-- ==== Sys2Proof/Word.lean ====
section
/-! DEFINITION. The word types of the FGN-6416 and their plainest arithmetic: bytes, little-endian and
big-endian byte strings, signed fields, saturating counters. -/

namespace Sys2Proof

/-- One byte of a packet, a register window or a memory. -/
abbrev Byte := BitVec 8

/-- A sparse map from keys to values, held as a list of pairs: keys strictly rising, no entry equal to what an
unlisted key reads as. -/
abbrev SMap (α : Type) := List (Nat × α)

/-- The little-endian bytes of a value, `n` bytes (00 R9). -/
def leBytes : Nat → Nat → List Byte
  | 0, _ => []
  | n + 1, v => BitVec.ofNat 8 v :: leBytes n (v / 256)

/-- The value of little-endian bytes (00 R9). -/
def leNat : List Byte → Nat
  | [] => 0
  | b :: bs => b.toNat + 256 * leNat bs

/-- The value of bytes, most significant first (06 R184, 09 R254). -/
def beNat (bs : List Byte) : Nat := leNat bs.reverse

/-- The bytes of a value, most significant first, `n` bytes. -/
def beBytes (n v : Nat) : List Byte := (leBytes n v).reverse

/-- The two's complement reading of a `w`-bit value (00 R10). -/
def sint (w v : Nat) : Int := if v % 2 ^ w < 2 ^ (w - 1) then (v % 2 ^ w : Nat) else ((v % 2 ^ w : Nat) : Int) - 2 ^ w

/-- The `w`-bit two's complement code of an integer (00 R10). -/
def uint (w : Nat) (i : Int) : Nat := (i % 2 ^ w).toNat

/-- One more on a 32-bit counter, which saturates (00 R12). -/
def satInc (n k : Nat) : Nat := min (n + k) 0xFFFFFFFF

/-- Bit `i` of a number. -/
def bit (v i : Nat) : Bool := v.testBit i

/-- Bits `hi` down to `lo` of a number. -/
def bits (v hi lo : Nat) : Nat := v / 2 ^ lo % 2 ^ (hi + 1 - lo)

/-- `b` as a number, 0 or 1. -/
def b2n (b : Bool) : Nat := if b then 1 else 0

/-- Clamp an integer between two bounds. -/
def clampI (lo hi x : Int) : Int := max lo (min hi x)

end Sys2Proof
end

