-- ==== Sys2Proof/Inputs.lean ====
section
/-! DEFINITION. What the outside world supplies with a command: the packet header of a host command, and the
measurements, samples and reports that an event row carries. -/

namespace Sys2Proof

/-- The two mailbox channels (02 R35), which are also the two roles (16 R427). -/
inductive Chan where
  | operator
  | custodian
  deriving DecidableEq, Repr

/-- The header of a command packet (02 R45): the channel it arrives on, its tag, and its two flags. -/
structure Hdr where
  ch : Chan
  tag : Nat
  roc : Bool := false
  cosign : Bool := false
  deriving DecidableEq, Repr

/-- The kinds of periodic work (03 R91, detail of DEADLINE_MISS), each with the index of its item. -/
structure WorkRef where
  kind : Nat
  index : Nat
  deriving DecidableEq, Repr

/-- One item that has not delivered its output at the boundary (03 R82): the domain that held its work, the
item, and whether an armed perturbation provoked it (03 R86). -/
structure Late where
  domain : Nat
  work : WorkRef
  rattle : Bool := false
  deriving DecidableEq, Repr

/-- One block of 24 samples of an input slot of an ASRC port, as its rate matcher delivers it (11 R317). -/
structure PortBlock where
  port : Nat
  slot : Nat
  samples : List Int
  deriving DecidableEq, Repr

/-- What comes in at `Pn_DIN` of a slip port in a period: of each frame the levels at the sampling edges, from the frame start on
(11 R313, R318). -/
structure PortLine where
  port : Nat
  frames : List (List Bool)
  deriving DecidableEq, Repr

/-- What the converters, ports and watchers report of the period that ends at a boundary. -/
structure PeriodEnv where
  /-- RMS level of each aerial's ADC stream, 0.01 dBFS, and its clipped samples (05 R126). -/
  rmsA : Int := -6000
  rmsB : Int := -6000
  clipA : Nat := 0
  clipB : Nat := 0
  /-- IRR estimates of the two chains, dB (05 R134). -/
  irrA : Nat := 0
  irrB : Nat := 0
  /-- Whether REFIN had edges, and the correction that the tracking loop pulls towards, 0.001 ppm; in mode 3 the pull leads away
  from the reference frequency and back while the grid is aligned (04 R100, R101). -/
  refSeen : Bool := false
  refPull : Int := 0
  /-- Items late at this boundary. -/
  late : List Late := []
  /-- Rods whose run has not reached HALT, with the cycles completed (10 R308). -/
  aborts : List (Nat × Nat) := []
  /-- Port input blocks. -/
  ports : List PortBlock := []
  lines : List PortLine := []
  /-- ADC output blocks of the local inputs MIC1 to MIC4 (12 R346). -/
  mics : List (List Int) := []
  /-- `VDD_SPK`, mV (12 R353). -/
  vddSpk : Nat := 5000
  deriving DecidableEq, Repr

/-- What one aerial's channeliser lane gives of one uplink frame: discriminator samples at two per symbol
divided by the deviation unit, in units of 1/4096, from index -4 - 2 pre (07 R207, R209), and the mean power over the
sync word and pilot blocks at the ball in units of 10^-21 W (07 R209). -/
structure AerialRx where
  z : List Int
  /-- Preamble symbols whose samples come first (07 R198, R223). -/
  pre : Nat := 0
  power : Nat
  deriving DecidableEq, Repr

/-- The detection window of one aerial (07 R196): discriminator samples at two per symbol in units of 1/4096 of the deviation unit,
the even ones at the centres of the symbols, and the mean power at the ball in units of 10^-21 W. -/
structure Window where
  z : List Int
  power : Nat
  deriving DecidableEq, Repr

/-- One uplink frame as its lane receives it (07 R198, R208, R211). -/
structure RxFrame where
  /-- Tracker, 0 or 1. -/
  tracker : Nat
  /-- Timebase tick of the start of the sync word at the ball. -/
  start : Nat
  /-- Found position less predicted position, lane samples. -/
  syncErr : Int := 0
  a : AerialRx
  b : AerialRx
  deriving DecidableEq, Repr

/-- What a scan lane measures (05 R145): its frequency in Hz, and the power samples of the two aerials, one every 10 µs of the
dwell or of the step of travel, in units of 10^-21 W. -/
structure ScanMeas where
  hz : Nat
  a : List Nat := []
  b : List Nat := []
  deriving DecidableEq, Repr

/-- One count of a Top (17 R451): its index and normalised reading, 0.01 ps. -/
structure TopRead where
  top : Nat
  reading : Nat
  deriving DecidableEq, Repr

/-- What a received command-link packet brings (09 R254, R277): its bits after the sync word, body and CRC still scrambled, its
level in 0.25 dBm, and the levels of the preambles and sync words heard while it was received. -/
structure ClPacket where
  air : List Bool
  level : Int
  later : List Int := []
  deriving DecidableEq, Repr

end Sys2Proof
end

