-- ==== Sys2Proof/Syntax.lean ====
section
/-! DEFINITION. The commands of the FGN-6416: one constructor per row of the opcode table. A host command is a
whole packet with a correct CRC; an event row is the instant the spec names, with what the outside world supplies. -/

namespace Sys2Proof

/-- The commands, in the order of the opcode table. Host commands carry their packet header `h` and the fields
that 02 R58 lists, unsigned fields as `Nat`, signed fields as `Int`. -/
inductive Instr where
  | nop (h : Hdr)
  | getInfo (h : Hdr)
  | reset (h : Hdr) (kind : Nat)
  | getEvents (h : Hdr) (maxRecs : Nat)
  | setEventMask (h : Hdr) (block mode : Nat)
  | getCounters (h : Hdr) (first n : Nat)
  | timeRead (h : Hdr)
  | timeSetAlarm (h : Hdr) (time action : Nat)
  | fwPatchBegin (h : Hdr) (length : Nat) (digest : List Byte)
  | fwPatchData (h : Hdr) (offset : Nat) (data : List Byte)
  | fwPatchCommit (h : Hdr)
  | paramGet (h : Hdr) (pid : Nat)
  | paramSet (h : Hdr) (pid value : Nat)
  | paramSetMany (h : Hdr) (pairs : List (Nat × Nat))
  | tableRead (h : Hdr) (table first count : Nat)
  | tableWrite (h : Hdr) (table first count : Nat) (entries : List Byte)
  | tableCommit (h : Hdr) (table : Nat)
  | rfTuneWindow (h : Hdr) (path edge : Nat)
  | rfCalibrate (h : Hdr) (items : Nat)
  | rfScanStart (h : Hdr) (start stop step passes : Nat)
  | rfScanStop (h : Hdr)
  | rfSetGain (h : Hdr) (aerial mode : Nat) (gain : Int)
  | rfGetSpectrum (h : Hdr) (start nbins : Nat)
  | rfCoordinate (h : Hdr) (links carriers options : Nat)
  | linkOpen (h : Hdr) (link hz cls mode session air : Nat)
  | linkClose (h : Hdr) (link : Nat)
  | linkRetune (h : Hdr) (link hz period : Nat)
  | linkStatus (h : Hdr) (link : Nat)
  | linkSetAlt (h : Hdr) (link : Nat) (freqs : List Nat)
  | linkPrivilege (h : Hdr) (link on : Nat)
  | carrierOpen (h : Hdr) (carrier hz cls step session encrypt : Nat)
  | carrierClose (h : Hdr) (carrier : Nat)
  | carrierSetPower (h : Hdr) (carrier step : Nat)
  | carrierRetune (h : Hdr) (carrier hz period : Nat)
  | txEnable (h : Hdr) (mask : Nat)
  | txDisable (h : Hdr) (mask : Nat)
  | clStart (h : Hdr) (hz : Nat) (power : Int)
  | clStop (h : Hdr)
  | sessionAdd (h : Hdr) (session txId flags : Nat) (key : List Byte)
  | sessionRemove (h : Hdr) (session : Nat)
  | sessionSend (h : Hdr) (session : Nat) (data : List Byte)
  | sessionStatus (h : Hdr) (session : Nat)
  | clHop (h : Hdr) (kind index hz period : Nat)
  | portConfig (h : Hdr) (port format rate slots role slotBits inMask outMask drive : Nat)
  | portStart (h : Hdr) (mask start period : Nat)
  | portStop (h : Hdr) (mask : Nat)
  | routeSet (h : Hdr) (route source dest : Nat) (gain : Int)
  | routeClear (h : Hdr) (route : Nat)
  | mixSetGain (h : Hdr) (bus cls : Nat) (gain : Int)
  | tapConfig (h : Hdr) (route packing offset length : Nat)
  | analogConfig (h : Hdr) (target field : Nat) (value : Int)
  | progLoad (h : Hdr) (rod first : Nat) (words : List Nat)
  | progAdmit (h : Hdr) (rod cls : Nat)
  | progRetire (h : Hdr) (rod : Nat)
  | coefWrite (h : Hdr) (rod bank first : Nat) (words : List Int)
  | coefSwap (h : Hdr) (rod period : Nat)
  | measConfig (h : Hdr) (converter channel rate order notch trigger delay : Nat)
  | measNow (h : Hdr) (converter channel : Nat)
  | measStreamStart (h : Hdr) (mask offset length : Nat)
  | measStreamStop (h : Hdr) (mask : Nat)
  | cdacSet (h : Hdr) (channel code update : Nat)
  | cdacRange (h : Hdr) (channel range : Nat)
  | powerStateRequest (h : Hdr) (state : Nat)
  | powerStatus (h : Hdr)
  | domainHold (h : Hdr) (domain hold : Nat)
  | budgetQuery (h : Hdr) (resource index : Nat)
  | marginReplan (h : Hdr)
  | ageingReport (h : Hdr)
  | cosignPropose (h : Hdr) (digest : List Byte)
  | cosignApprove (h : Hdr) (tag : List Byte)
  | cosignCancel (h : Hdr)
  | cosignStatus (h : Hdr)
  | nonceGet (h : Hdr)
  | rattleArm (h : Hdr) (pert target setting : Nat)
  | rattleDisarm (h : Hdr) (pert : Nat)
  | testLoopback (h : Hdr) (kind index : Nat)
  /-- A packet whose opcode is reserved (00 R11). -/
  | badOpcode (h : Hdr) (op : Nat)
  /-- PARAM_SET of CLK.SYNC_ARM with 1 (04 R116). -/
  | syncArmOneShot (h : Hdr)
  /-- PARAM_SET of CLK.SYNC_ARM with 2 (04 R118). -/
  | syncArmMonitor (h : Hdr)
  /-- PARAM_SET of CLK.SYNC_ARM with 0 (04 R117). -/
  | syncDisarm (h : Hdr)
  /-- PARAM_SET of TX.MSG_LEN of a carrier (08 R233). -/
  | txMsgSend (h : Hdr) (carrier len : Nat)
  /-- PARAM_SET of RCK.POWERED_HOURS (17 R454). -/
  | poweredHoursWrite (h : Hdr) (hours : Nat)
  | spiWriteMailbox (quad : Bool) (data : List Byte)
  | spiReadMailbox (quad : Bool) (n : Nat)
  | spiReadFrontWindow (quad : Bool) (addr n : Nat)
  | spiWriteFrontWindow (quad : Bool) (addr : Nat) (data : List Byte)
  | spiReadStatus (quad : Bool) (n : Nat)
  | spiProtoErr (code : Byte)
  | cmdMailboxWrite (ch : Chan) (b : Byte)
  | replyMailboxRead (ch : Chan)
  | flushCmd (ch : Chan)
  | flushReply (ch : Chan)
  | timebaseLatch
  | alertStatusWrite (v : Byte)
  | frontWindowWrite (ch : Chan) (addr : Nat) (v : Byte)
  /-- `addr` is the 7-bit address, `data` the bytes after it, the pointer byte first (14 R393). -/
  | twWriteTransfer (addr : Nat) (data : List Byte)
  /-- `mismatch`, when given, is the byte of the read at which SDA reads 0 where the device sends 1 (14 R402). -/
  | twReadTransfer (addr n : Nat) (mismatch : Option Nat)
  /-- `other` is what the other devices on the bus send, ANDed bit by bit (14 R401). -/
  | alertResponse (other : Byte)
  | twProtoError (kind : Nat)
  | twWakeNack (addr : Nat) (detail : Nat)
  | twAddressMatchSleep (addr : Nat)
  | twSclTimeout (sdaLow : Bool)
  | packetAssemblyTimeout (ch : Chan)
  | discardModeEnd (ch : Chan)
  | heldReplyEntersFifo (ch : Chan)
  | cmdTimeout (ch : Chan) (tag : Nat)
  | softResetTrigger
  | seqWatchdogExpiry
  | seqRestarted
  | timeAlarm
  | periodTick (env : PeriodEnv)
  | stageTimeout (domain stage : Nat) (work : Option WorkRef)
  | domainWdog (domain : Nat)
  | domainRestart (domain : Nat)
  | laneReacquire (link : Nat)
  | xtalQualified
  /-- `lf` is the count of low-frequency cycles to the resumption, where the timebase is bridged (04 R97). -/
  | mainPllLockCheck (confirmed : Bool) (lf : Nat)
  | xtalFail
  /-- `lf` is the count of low-frequency cycles while the reset was held (04 R94). -/
  | xtalFailRelease (lf boot addrPins : Nat)
  | lfCrystalTakeover
  | lfSourceChange
  | mainPllLockLost
  | refQualified
  /-- `correction` in 0.001 ppm. -/
  | refLocked (correction : Int)
  /-- `cause` 1 no edges, 2 frequency jump; `average` the correction's average over the preceding second. -/
  | refLost (cause : Nat) (average : Int)
  | holdoverEnd
  | synthLockCheck (id : Nat) (confirmed : Bool) (band : Nat)
  | synthLockLost (id band : Nat)
  /-- `temp` in 0.1 degree Celsius. -/
  | tempSample (temp : Int)
  | syncInstant
  /-- `error` in VCO cycles. -/
  | syncMonitorEdge (error : Int)
  | imageCalFastEnd
  | imageCalAlarm (aerial irr : Nat)
  /-- The coefficients measured, scaled by 2^15 (05 R140). -/
  | privCalDone (link : Nat) (aRe aIm bRe bIm : Int)
  | scanDwellEnd (meas : List ScanMeas)
  | scanPassEnd
  /-- `start` in timebase ticks; the windows of aerials A and B. -/
  | preambleDetected (link tracker start : Nat) (a b : Window)
  /-- `bin`: the frequency bin of the sync detector, 0 to 10 for -15 kHz to +15 kHz; `w`: the windows of aerials A and B. -/
  | syncWordDetected (link tracker start bin : Nat) (w : Window × Window)
  | preTimeout (link tracker : Nat)
  | uplinkFrame (link : Nat) (frame : RxFrame)
  | syncWindowClose (link : Nat)
  | intrusionBarEnd (link : Nat)
  /-- Mean powers measured on the alternates j = 0 to 7 (07 R220), 10^-21 W. -/
  | hopAltChosen (link : Nat) (levels : List Nat)
  | hopBoundary (link : Nat)
  | hopFailed (link : Nat)
  | carrierRetuned (carrier : Nat)
  | txStartBoundary
  | txRampDownEnd
  | paOffDelayExpiry
  | txResumed
  /-- COEX_GNT at b, whether the lock check at b + 30 us passes. -/
  | beaconSlot (grant lockOk : Bool)
  | replySlotEnd (slot : Nat) (grant : Bool)
  | pollReply (slot : Nat) (pkt : ClPacket)
  | join (slot : Nat) (pkt : ClPacket)
  | clPreambleFalseStart
  /-- `reason` 1 REMOVE sent, 2 command link left RUNNING, 3 one second passed (09 R284). -/
  | sessionRemoved (session reason : Nat)
  | keyChangeBoundary (session : Nat)
  | clHopDone (lockOk : Bool)
  | coexGrantWithdrawn
  | portStartInstant (port : Nat)
  | startTrig
  | portStopped (port : Nat)
  /-- `cause` 1 clock absent, 2 count error. -/
  | portLost (port cause : Nat)
  | portEdgesReturn (port : Nat)
  /-- `us` from the first edge to RUNNING. -/
  | portReturned (port us : Nat)
  /-- `rate` in mHz, `ratio` error in 0.001 ppm, `off` the greatest distance of a frame start from its grid instant in the measurement,
  ticks (11 R316). -/
  | portRateMeasured (port rate : Nat) (ratio : Int) (off : Nat)
  | portGlitch (port : Nat)
  /-- `faster`: the port is faster than the core. -/
  | portSlip (port : Nat) (faster : Bool)
  | asrcAcquired (port : Nat)
  /-- `bus` false names a route, true a bus; `sample` is the sample at which the ramp begins. -/
  | zeroCrossing (bus : Bool) (index sample : Nat)
  | zcTimeout (bus : Bool) (index : Nat)
  | routeFadeEnd (route : Nat)
  | analogSequenceEnd (target : Nat)
  | jackChanged (jack : Nat) (inserted : Bool)
  | spkOvercurrent
  | spkUndervoltage
  | spkRestart
  | micbiasLimit (bias : Nat)
  | timerTick (timer : Nat)
  | pwmEdgeTrigger (pwm : Nat)
  /-- `value` is the voltage in nV, or the die temperature in 0.001 degree Celsius. -/
  | conversionDone (converter : Nat) (value : Int)
  | refBufferReady
  | cdacRangePhaseEnd (channel : Nat)
  | domainEntryAck (domain : Nat)
  | powerHandshakeTimeout (domain : Nat)
  | idleGate (domain : Nat)
  | domainWakeDone (domain us : Nat)
  | domainWakeFault (domain : Nat)
  /-- `source` 0 SPI_CS_N, 1 two-wire, 2 GPIO, 3 time alarm; `pin` the GPIO. -/
  | wakeSourceFire (source pin : Nat)
  | entryAborted
  /-- `lf` cycles counted in the sleep; `us` from the first wake source to READY. -/
  | woke (lf us : Nat)
  /-- `order` the power-up violations seen (19 R478). -/
  | por (order : Nat)
  /-- `rail` 1 VDD_CORE, 2 VDDA_RF, 3 VDD_AON. -/
  | bor (rail : Nat)
  | pinReset
  | resetRelease (boot addrPins : Nat)
  /-- `tops` the count of every Top that the boot plan takes; `romOk` the ROM check. -/
  | bootReady (romOk : Bool) (tops : List TopRead)
  | rfMonitorArmed
  /-- `rail` 0 VDD_CORE, 1 VDDA_RF, 2 VDD_AON. -/
  | brownWarn (rail : Nat)
  | brownHoldEnd (us : Nat)
  | topsCount (tops : List TopRead)
  | scheduledPlan
  /-- `tops` the extra count after the step. -/
  | knobStepVerified (tops : List TopRead)
  | cosignExpired
  | patchSequenceTimeout
  | rattleArmLimit (pert : Nat)
  | micbiasCurrentLimitRecovery (bias : Nat)
  | txQuadratureCalibrationDone
  | fullSynthCalibrationDone (id : Nat)
  | returnToCrystalDone
  | replyDelayEnd (ch : Chan) (tag : Nat)
  | postBrownHoldDeferralEnd
  | slewLimiterUpdate
  /-- `up`: at or above its lower limit; `off`: below 0.3 V; `mv` the rail's level. -/
  | railPresenceChange (rail : Nat) (up off : Bool) (mv : Nat)
  deriving DecidableEq, Repr

end Sys2Proof
end

