-- ==== Sys2Proof/Decode.lean ====
section
/-! DEFINITION. The command a table word spells. The opcode table gives no row any bits, so no word spells one. -/

namespace Sys2Proof

/-- The command that `w`, of `nbits` bits, spells by the opcode table's bits: none, since the table gives no row
bits. Command packets are decoded from their bytes in Machine/Packets. -/
def decodeTableWord (_nbits _w : Nat) : Option Instr := none

end Sys2Proof
end

