-- ==== Sys2Proof/Config.lean ====
section
/-! DEFINITION. What a part fixes and what the spec leaves open: free values, constants without a body. Nothing
can be proved of a value of theirs, so a claim holds whatever they are. Each is named in the assumption log. -/

namespace Sys2Proof.Config

/-- FW minor and FW build of GET_INFO (00 R1), which the manual does not fix: they follow from the patches in force, named by their
digests. DESIGN CHOICE: free. -/
opaque fwMinor : List (List (BitVec 8)) → Nat
opaque fwBuild : List (List (BitVec 8)) → Nat

/-- The bytes of the part's OTP as it left manufacture (16 R439). DESIGN CHOICE: free. -/
opaque otpByte : Nat → BitVec 8

/-- Whether the OTP check of a boot passes (16 R441), by draw: the manual does not give the check at 0x1D8.
DESIGN CHOICE: free. -/
opaque otpCheckOk : Nat → Bool

/-- Whether the burn of an OTP item passes its verify read (16 R444), by draw. DESIGN CHOICE: free. -/
opaque burnOk : Nat → Bool

/-- The bytes of a nonce drawn from the hardware random source (16 R431), and those that a failed burn leaves in an OTP item
(16 R444): draw, byte. DESIGN CHOICE: free. -/
opaque randomByte : Nat → Nat → BitVec 8

/-- The decision of the equaliser where its output is exactly 0, between +1 and -1, which are equally near to zero
(07 R209): frame number, symbol. DESIGN CHOICE: free. -/
opaque zeroTie : Nat → Nat → Bool

/-- Output samples of the half-band interpolation filter of a range link (06 R181), whose coefficients the manual
does not give: draw, sample index, decoded samples. DESIGN CHOICE: free. -/
opaque halfBand : Nat → Nat → List Int → Int

/-- A sample of an audio fade whose shape the spec does not give (11 R324, 12 R345): draw, sample index, the sample
it scales. DESIGN CHOICE: free. -/
opaque fadeSample : Nat → Nat → Int → Int

/-- Whether a sample that the manual scales without a rounding rule is rounded up when the scaled value is no integer
(10 R308): draw, sample index. DESIGN CHOICE: free. -/
opaque roundUp : Nat → Nat → Bool

/-- Whether a value that lies exactly halfway between two integers is rounded up, where the manual rounds, or gives the unit
of a value, and has no rule for a half: which value (0 a converter code, 1 a concealed sample, 2 a cross-faded sample, 3
LINK.TIMING_OFFSET, 4 an LO error, 5 LINK.FREQ_OFFSET, 6 LINK.LQ, 7 LINK.EVM, 8 a rate in Hz, 9 milliseconds left, 10 a
time in 0.01 ps, 11 A, 12 years, 13 powered hours, 14 the change of a VSEL step), its numerator and denominator.
DESIGN CHOICE: free. -/
opaque halfUp : Nat → Int → Nat → Bool

/-- A number that the manual leaves open: the level and the offset of the candidate that FALSE_PREAMBLE makes (18 R469), the
offset of the RC oscillator over a sleep (15 R419): draw. DESIGN CHOICE: free. -/
opaque openNat : Nat → Nat
opaque openInt : Nat → Int

/-- The production baseline of a Top, 0.01 ps (17 R452, R453), from the calibration bytes of the OTP, which the
manual does not describe. DESIGN CHOICE: free. -/
opaque topBaseline : Nat → Nat

/-- The production refinement of the speed gain (17 R453), within 0.1 % per step, parts per million: knob (0 VSEL,
1 bias), steps. DESIGN CHOICE: free. -/
opaque gainTrim : Nat → Int → Int

/-- The measured offset of the low-frequency clock, 0.001 ppm (04 R93), at a timebase. DESIGN CHOICE: free. -/
opaque lfPpm : Nat → Int

/-- A component of a tap that the blind adaptation of the background filters sets (05 R133): draw, component. DESIGN CHOICE:
free. -/
opaque imageTap : Nat → Nat → Int

/-- A sample that the rate matcher of an ASRC port makes of a block, whose filter the manual does not give (11 R312, R317): draw,
sample index, the samples. DESIGN CHOICE: free. -/
opaque asrcSample : Nat → Nat → List Int → Int

/-- A sample that the peak limiter of the speaker makes of another while it acts or releases, whose law the manual does not give
(12 R353): draw, sample index, the sample. DESIGN CHOICE: free. -/
opaque limiterSample : Nat → Nat → Int → Int

end Sys2Proof.Config
end

