-- ==== Sys2Proof/Machine/Codec.lean ====
section
/-! DEFINITION. The byte codecs that several chapters share: CRC-16, packet and event bytes, exact power and
logarithm comparisons. -/

namespace Sys2Proof.Machine

/-- One bit of CRC-16/CCITT-FALSE: polynomial 0x1021, most significant bit first (02 R46). -/
def crcBit (c : BitVec 16) (b : Bool) : BitVec 16 :=
  if c.getLsbD 15 == b then c <<< 1 else (c <<< 1) ^^^ 0x1021#16

/-- The bits of a byte, most significant first. -/
def msbBits (b : Byte) : List Bool := (List.range 8).map (fun i => b.getLsbD (7 - i))

/-- The bits of bytes, most significant first. -/
def bitsOf (bs : List Byte) : List Bool := bs.flatMap msbBits

/-- The number that bits spell, most significant first. -/
def bitsNat (l : List Bool) : Nat := l.foldl (fun a b => 2 * a + b2n b) 0

/-- Bytes from bits, most significant first; a last incomplete group is dropped. -/
def bytesOfBits : List Bool → List Byte
  | a :: b :: c :: d :: e :: f :: g :: h :: l => BitVec.ofNat 8 (bitsNat [a, b, c, d, e, f, g, h]) :: bytesOfBits l
  | _ => []

/-- The `n` low bits of a number, most significant first. -/
def natBits (n v : Nat) : List Bool := (List.range n).map (fun i => v.testBit (n - 1 - i))

/-- CRC-16 over bits, initial value 0xFFFF, no reflection, no final XOR (02 R46). -/
def crcBits (l : List Bool) : Nat := (l.foldl crcBit 0xFFFF#16).toNat

/-- CRC-16 over bytes (02 R46). -/
def crc16 (bs : List Byte) : Nat := crcBits (bitsOf bs)

/-- A reply packet (02 R48). -/
def replyBytes (op tag : Nat) (completion : Bool) (status : Nat) (payload : List Byte) : List Byte :=
  let head := [BitVec.ofNat 8 op, BitVec.ofNat 8 (tag % 16 + 16 * b2n completion), BitVec.ofNat 8 status] ++
    leBytes 2 payload.length ++ payload
  head ++ leBytes 2 (crc16 head)

/-- Integer square root of a number below 2^(2k+2), bit by bit. -/
def isqrtFrom : Nat → Nat → Nat → Nat
  | 0, r, n => if (r + 1) * (r + 1) ≤ n then r + 1 else r
  | k + 1, r, n => let t := r + 2 ^ (k + 1); isqrtFrom k (if t * t ≤ n then t else r) n

/-- The integer square root. -/
def isqrt (n : Nat) : Nat := isqrtFrom (n.log2 / 2 + 1) 0 n

/-- The nearest integer to a fraction; a half goes up or down as the part has it, by kind of value. -/
def nearest (k : Nat) (a : Int) (b : Nat) : Int :=
  let q := (2 * a + b) / (2 * b)
  if (2 * a + b) % (2 * b) = 0 ∧ Config.halfUp k a b = false then q - 1 else q

/-- The nearest integer to a rational number. -/
def nearestRat (k : Nat) (x : Rat) : Int := nearest k x.num x.den

/-- `⌈a / b⌉`. -/
def ceilDiv (a b : Nat) : Nat := (a + b - 1) / b

end Sys2Proof.Machine
end

