-- ==== Sys2Proof/Machine/Crypto.lean ====
section
/-! DEFINITION. The ciphers of the air link and of protection: SHA-256 and HMAC (16 R430, R433), AES-128 with CTR,
CMAC and one-block unwrap (06 R189, 09 R263, 16 R443). -/

namespace Sys2Proof.Machine

abbrev W32 := BitVec 32

/-- The round constants of SHA-256 (FIPS 180-4). -/
def shaK : List W32 :=
  [0x428A2F98, 0x71374491, 0xB5C0FBCF, 0xE9B5DBA5, 0x3956C25B, 0x59F111F1, 0x923F82A4, 0xAB1C5ED5,
   0xD807AA98, 0x12835B01, 0x243185BE, 0x550C7DC3, 0x72BE5D74, 0x80DEB1FE, 0x9BDC06A7, 0xC19BF174,
   0xE49B69C1, 0xEFBE4786, 0x0FC19DC6, 0x240CA1CC, 0x2DE92C6F, 0x4A7484AA, 0x5CB0A9DC, 0x76F988DA,
   0x983E5152, 0xA831C66D, 0xB00327C8, 0xBF597FC7, 0xC6E00BF3, 0xD5A79147, 0x06CA6351, 0x14292967,
   0x27B70A85, 0x2E1B2138, 0x4D2C6DFC, 0x53380D13, 0x650A7354, 0x766A0ABB, 0x81C2C92E, 0x92722C85,
   0xA2BFE8A1, 0xA81A664B, 0xC24B8B70, 0xC76C51A3, 0xD192E819, 0xD6990624, 0xF40E3585, 0x106AA070,
   0x19A4C116, 0x1E376C08, 0x2748774C, 0x34B0BCB5, 0x391C0CB3, 0x4ED8AA4A, 0x5B9CCA4F, 0x682E6FF3,
   0x748F82EE, 0x78A5636F, 0x84C87814, 0x8CC70208, 0x90BEFFFA, 0xA4506CEB, 0xBEF9A3F7, 0xC67178F2]

/-- The initial hash value of SHA-256 (FIPS 180-4). -/
def shaH0 : List W32 :=
  [0x6A09E667, 0xBB67AE85, 0x3C6EF372, 0xA54FF53A, 0x510E527F, 0x9B05688C, 0x1F83D9AB, 0x5BE0CD19]

def rotr (x : W32) (n : Nat) : W32 := x.rotateRight n

/-- Big-endian words of a block. -/
def words32 : List Byte → List W32
  | a :: b :: c :: d :: l => BitVec.ofNat 32 (beNat [a, b, c, d]) :: words32 l
  | _ => []

/-- Extend the message schedule: the list holds the words so far, newest first. -/
def shaExtend : Nat → List W32 → List W32
  | 0, w => w
  | n + 1, w =>
    let s0 (x : W32) := rotr x 7 ^^^ rotr x 18 ^^^ (x >>> 3)
    let s1 (x : W32) := rotr x 17 ^^^ rotr x 19 ^^^ (x >>> 10)
    shaExtend n ((s1 (w.getD 1 0) + w.getD 6 0 + s0 (w.getD 14 0) + w.getD 15 0) :: w)

/-- One round: `h` holds a to h. -/
def shaRound (h : List W32) (kw : W32) : List W32 :=
  match h with
  | [a, b, c, d, e, f, g, hh] =>
    let t1 := hh + (rotr e 6 ^^^ rotr e 11 ^^^ rotr e 25) + ((e &&& f) ^^^ (~~~ e &&& g)) + kw
    let t2 := (rotr a 2 ^^^ rotr a 13 ^^^ rotr a 22) + ((a &&& b) ^^^ (a &&& c) ^^^ (b &&& c))
    [t1 + t2, a, b, c, d + t1, e, f, g]
  | _ => h

/-- One block of the compression function. -/
def shaBlock (h : List W32) (block : List Byte) : List W32 :=
  let w := (shaExtend 48 (words32 block).reverse).reverse
  List.zipWith (· + ·) h ((List.zipWith (· + ·) shaK w).foldl shaRound h)

/-- The blocks of a padded message. -/
def shaBlocks : Nat → List Byte → List W32 → List W32
  | 0, _, h => h
  | n + 1, m, h => shaBlocks n (m.drop 64) (shaBlock h (m.take 64))

/-- SHA-256 (FIPS 180-4). -/
def sha256 (m : List Byte) : List Byte :=
  let m' := m ++ [0x80#8] ++ List.replicate ((119 - m.length % 64) % 64) 0 ++ beBytes 8 (8 * m.length)
  (shaBlocks (m'.length / 64) m' shaH0).flatMap (fun w => beBytes 4 w.toNat)

/-- HMAC-SHA-256 with a key of at most 64 bytes (FIPS 198-1). -/
def hmac256 (k m : List Byte) : List Byte :=
  let k := k ++ List.replicate (64 - k.length) 0
  sha256 (k.map (· ^^^ 0x5C#8) ++ sha256 (k.map (· ^^^ 0x36#8) ++ m))

/-- The S-box of AES (FIPS 197). -/
def aesSbox : List Byte :=
  [0x63, 0x7C, 0x77, 0x7B, 0xF2, 0x6B, 0x6F, 0xC5, 0x30, 0x01, 0x67, 0x2B, 0xFE, 0xD7, 0xAB, 0x76,
   0xCA, 0x82, 0xC9, 0x7D, 0xFA, 0x59, 0x47, 0xF0, 0xAD, 0xD4, 0xA2, 0xAF, 0x9C, 0xA4, 0x72, 0xC0,
   0xB7, 0xFD, 0x93, 0x26, 0x36, 0x3F, 0xF7, 0xCC, 0x34, 0xA5, 0xE5, 0xF1, 0x71, 0xD8, 0x31, 0x15,
   0x04, 0xC7, 0x23, 0xC3, 0x18, 0x96, 0x05, 0x9A, 0x07, 0x12, 0x80, 0xE2, 0xEB, 0x27, 0xB2, 0x75,
   0x09, 0x83, 0x2C, 0x1A, 0x1B, 0x6E, 0x5A, 0xA0, 0x52, 0x3B, 0xD6, 0xB3, 0x29, 0xE3, 0x2F, 0x84,
   0x53, 0xD1, 0x00, 0xED, 0x20, 0xFC, 0xB1, 0x5B, 0x6A, 0xCB, 0xBE, 0x39, 0x4A, 0x4C, 0x58, 0xCF,
   0xD0, 0xEF, 0xAA, 0xFB, 0x43, 0x4D, 0x33, 0x85, 0x45, 0xF9, 0x02, 0x7F, 0x50, 0x3C, 0x9F, 0xA8,
   0x51, 0xA3, 0x40, 0x8F, 0x92, 0x9D, 0x38, 0xF5, 0xBC, 0xB6, 0xDA, 0x21, 0x10, 0xFF, 0xF3, 0xD2,
   0xCD, 0x0C, 0x13, 0xEC, 0x5F, 0x97, 0x44, 0x17, 0xC4, 0xA7, 0x7E, 0x3D, 0x64, 0x5D, 0x19, 0x73,
   0x60, 0x81, 0x4F, 0xDC, 0x22, 0x2A, 0x90, 0x88, 0x46, 0xEE, 0xB8, 0x14, 0xDE, 0x5E, 0x0B, 0xDB,
   0xE0, 0x32, 0x3A, 0x0A, 0x49, 0x06, 0x24, 0x5C, 0xC2, 0xD3, 0xAC, 0x62, 0x91, 0x95, 0xE4, 0x79,
   0xE7, 0xC8, 0x37, 0x6D, 0x8D, 0xD5, 0x4E, 0xA9, 0x6C, 0x56, 0xF4, 0xEA, 0x65, 0x7A, 0xAE, 0x08,
   0xBA, 0x78, 0x25, 0x2E, 0x1C, 0xA6, 0xB4, 0xC6, 0xE8, 0xDD, 0x74, 0x1F, 0x4B, 0xBD, 0x8B, 0x8A,
   0x70, 0x3E, 0xB5, 0x66, 0x48, 0x03, 0xF6, 0x0E, 0x61, 0x35, 0x57, 0xB9, 0x86, 0xC1, 0x1D, 0x9E,
   0xE1, 0xF8, 0x98, 0x11, 0x69, 0xD9, 0x8E, 0x94, 0x9B, 0x1E, 0x87, 0xE9, 0xCE, 0x55, 0x28, 0xDF,
   0x8C, 0xA1, 0x89, 0x0D, 0xBF, 0xE6, 0x42, 0x68, 0x41, 0x99, 0x2D, 0x0F, 0xB0, 0x54, 0xBB, 0x16]

def subByte (b : Byte) : Byte := aesSbox.getD b.toNat 0

/-- The inverse S-box. -/
def invSubByte (b : Byte) : Byte := BitVec.ofNat 8 (aesSbox.findIdx (fun x => x == b))

/-- Multiply by x in GF(2^8). -/
def xtime (b : Byte) : Byte := (b <<< 1) ^^^ (if b.getLsbD 7 then 0x1B#8 else 0)

/-- Multiply in GF(2^8) by a constant below 16. -/
def gmul (c : Nat) (b : Byte) : Byte :=
  let b2 := xtime b
  let b4 := xtime b2
  let b8 := xtime b4
  (if c.testBit 0 then b else 0) ^^^ (if c.testBit 1 then b2 else 0) ^^^ (if c.testBit 2 then b4 else 0) ^^^
    (if c.testBit 3 then b8 else 0)

def xorBytes (a b : List Byte) : List Byte := List.zipWith (· ^^^ ·) a b

/-- The next round key of AES-128. -/
def nextKey (k : List Byte) (rcon : Byte) : List Byte :=
  let t := [13, 14, 15, 12].map (fun i => subByte (k.getD i 0))
  let w0 := xorBytes (k.take 4) (xorBytes t [rcon, 0, 0, 0])
  let w1 := xorBytes ((k.drop 4).take 4) w0
  let w2 := xorBytes ((k.drop 8).take 4) w1
  w0 ++ w1 ++ w2 ++ xorBytes (k.drop 12) w2

/-- The round keys after the first, for the given round constants. -/
def roundKeys : List Byte → List Byte → List (List Byte)
  | _, [] => []
  | k, r :: rs => let k' := nextKey k r; k' :: roundKeys k' rs

def aesRcon : List Byte := [0x01, 0x02, 0x04, 0x08, 0x10, 0x20, 0x40, 0x80, 0x1B, 0x36]

/-- Pick bytes of a block by index. -/
def permute (p : List Nat) (s : List Byte) : List Byte := p.map (fun i => s.getD i 0)

def shiftRows : List Byte → List Byte := permute [0, 5, 10, 15, 4, 9, 14, 3, 8, 13, 2, 7, 12, 1, 6, 11]
def invShiftRows : List Byte → List Byte := permute [0, 13, 10, 7, 4, 1, 14, 11, 8, 5, 2, 15, 12, 9, 6, 3]

/-- A column times a circulant matrix. -/
def mixWith (c0 c1 c2 c3 : Nat) : List Byte → List Byte
  | a :: b :: c :: d :: l =>
    let m (x0 x1 x2 x3 : Byte) := gmul c0 x0 ^^^ gmul c1 x1 ^^^ gmul c2 x2 ^^^ gmul c3 x3
    m a b c d :: m b c d a :: m c d a b :: m d a b c :: mixWith c0 c1 c2 c3 l
  | _ => []

/-- The rounds of AES-128 encryption; the last has no column mixing. -/
def aesRounds : List (List Byte) → List Byte → List Byte
  | [], s => s
  | [k], s => xorBytes (shiftRows (s.map subByte)) k
  | k :: ks, s => aesRounds ks (xorBytes (mixWith 2 3 1 1 (shiftRows (s.map subByte))) k)

/-- AES-128 of one block (FIPS 197). -/
def aes128 (key block : List Byte) : List Byte := aesRounds (roundKeys key aesRcon) (xorBytes block key)

/-- The rounds of AES-128 decryption, round keys last first. -/
def aesInvRounds : List (List Byte) → List Byte → List Byte
  | [], s => s
  | [k], s => xorBytes ((invShiftRows s).map invSubByte) k
  | k :: ks, s => aesInvRounds ks (mixWith 14 11 13 9 (xorBytes ((invShiftRows s).map invSubByte) k))

/-- The inverse of AES-128 on one block (FIPS 197). -/
def aes128Inv (key block : List Byte) : List Byte :=
  match (key :: roundKeys key aesRcon).reverse with
  | [] => block
  | k :: ks => aesInvRounds ks (xorBytes block k)

/-- The counter block `iv` plus `n`, big-endian in its last `w` bytes. -/
def counterBlock (iv : List Byte) (w n : Nat) : List Byte :=
  iv.take (16 - w) ++ beBytes w (beNat (iv.drop (16 - w)) + n)

/-- `n` blocks of CTR key stream from a first counter block (NIST SP 800-38A). -/
def ctrStream (key iv : List Byte) (w n : Nat) : List Byte :=
  (List.range n).flatMap (fun i => aes128 key (counterBlock iv w i))

/-- Doubling in GF(2^128) for CMAC (NIST SP 800-38B). -/
def dbl128 (b : List Byte) : List Byte :=
  let v := 2 * beNat b
  beBytes 16 (if v < 2 ^ 128 then v else Nat.xor (v - 2 ^ 128) 0x87)

/-- The CBC chain of CMAC over full blocks. -/
def cbcMac (key : List Byte) : Nat → List Byte → List Byte → List Byte
  | 0, _, x => x
  | n + 1, m, x => cbcMac key n (m.drop 16) (aes128 key (xorBytes x (m.take 16)))

/-- AES-CMAC (NIST SP 800-38B), 16 bytes. -/
def cmac (key m : List Byte) : List Byte :=
  let k1 := dbl128 (aes128 key (List.replicate 16 0))
  let n := ceilDiv m.length 16
  let n := if n = 0 then 1 else n
  let last := m.drop (16 * (n - 1))
  let x := cbcMac key (n - 1) m (List.replicate 16 0)
  let l := if last.length = 16 then xorBytes last k1
    else xorBytes (last ++ [0x80#8] ++ List.replicate (15 - last.length) 0) (dbl128 k1)
  aes128 key (xorBytes x l)

end Sys2Proof.Machine
end

