-- ==== Sys2Proof/Machine/Params.lean ====
section
/-! DEFINITION. The parameter maps (00 R15): every field with its PID, bits, access, value after POR and what it is
kept through, and a name for each field's place in the parameter store. -/

namespace Sys2Proof.Machine

/-- Access codes (00 R15). -/
inductive Acc where
  | ro | rw | rws | w1c | wo
  deriving DecidableEq, Repr

/-- "Kept through" (00 R16): KEEP, None (QUIET and SCAN only), or the four power states. -/
inductive Kept where
  | keep | none | sleep
  deriving DecidableEq, Repr

/-- One field of a parameter map: PID (of the object 0 of its block), low bit, width, access, kept through, value
after POR. -/
structure Fld where
  pid : Nat
  lo : Nat
  w : Nat
  acc : Acc
  kept : Kept
  por : Nat
  deriving DecidableEq, Repr

/-- The place of a field in the parameter store. -/
def key (pid lo : Nat) : Nat := pid * 32 + lo

/-- The object blocks (00 R3, 02 R64 and the maps of each chapter): first PID, PIDs per object, objects. -/
def paramBlocks : List (Nat × Nat × Nat) :=
  [(0x3000, 0x40, 64), (0x4040, 0x40, 16), (0x6040, 0x20, 6), (0x6100, 8, 16), (0x6180, 1, 32), (0x7040, 4, 64),
   (0x8020, 4, 4), (0x8030, 4, 4), (0x8040, 4, 8)]

/-- The PID of the same field of object 0 of its block, and the object; a PID outside the blocks is its own. -/
def canonPid (pid : Nat) : Nat × Nat :=
  match paramBlocks.find? (fun b => b.1 ≤ pid && pid < b.1 + b.2.1 * b.2.2) with
  | some b => (b.1 + (pid - b.1) % b.2.1, (pid - b.1) / b.2.1)
  | none => (pid, 0)

namespace P
def sysCmdsExecuted : Nat := key (0x10) 0
def sysBadCrcCount : Nat := key (0x11) 0
def sysBusyTagsCount : Nat := key (0x12) 0
def sysDupTagCount : Nat := key (0x13) 0
def sysCmdTimeoutA : Nat := key (0x14) 0
def sysCmdTimeoutB : Nat := key (0x15) 0
def sysCmdTimeoutC : Nat := key (0x16) 0
def sysPktDiscarded : Nat := key (0x17) 0
def sysReplyUnderrun : Nat := key (0x18) 0
def sysEventsLost : Nat := key (0x19) 0
def sysSpiProtoErr : Nat := key (0x1A) 0
def sysSpiWakingReplies : Nat := key (0x1B) 0
def sysSeqRestarts : Nat := key (0x1C) 0
def rckCycleCert : Nat := key (0xA000) 0
def rckCycleLifetime : Nat := key (0xA001) 0
def rckHeadroom : Nat := key (0xA002) 0
def rckAdmitPolicy : Nat := key (0xA003) 0
def rckRefusals : Nat := key (0xA005) 0
def rckLastRefusal : Nat := key (0xA006) 0
def rckOvercommitted : Nat := key (0xA007) 0
def rckDeadlineMiss : Nat := key (0xA008) 0
def rckBrownMisses : Nat := key (0xA009) 0
def rckDomainRestarts : Nat := key (0xA00A) 0
def rckLastRestartDomain : Nat := key (0xA00B) 0
def rckStageTimeouts : Nat := key (0xA00C) 0
def rckRodAborts : Nat := key (0xA00D) 0
def rckDomainWdog : Nat := key (0xA00E) 0
def clkRefMode : Nat := key (0x1000) 0
def clkRefState : Nat := key (0x1001) 0
def clkRefOffset : Nat := key (0x1002) 0
def clkRefLosses : Nat := key (0x1003) 0
def clkHoldoverEnds : Nat := key (0x1004) 0
def clkLockFaults : Nat := key (0x1005) 0
def clkLockRetries : Nat := key (0x1006) 0
def clkSynthStatus : Nat := key (0x1007) 0
def clkSynthCalibrating4 : Nat := key (0x1007) 4
def clkRxLoFreq : Nat := key (0x1008) 0
def clkTxLoFreq : Nat := key (0x1009) 0
def clkRxLoError : Nat := key (0x100A) 0
def clkTxLoError : Nat := key (0x100B) 0
def clkLfSource : Nat := key (0x100C) 0
def clkLfPpm : Nat := key (0x100D) 0
def clkXtalFails : Nat := key (0x100E) 0
def clkCalTemp : Nat := key (0x100F) 0
def clkSyncRole : Nat := key (0x1010) 0
def clkSyncPeriodLo : Nat := key (0x1011) 0
def clkSyncPeriodHi : Nat := key (0x1012) 0
def clkSyncArm : Nat := key (0x1013) 0
def clkSyncComp : Nat := key (0x1014) 0
def clkSyncError : Nat := key (0x1015) 0
def clkSyncSlips : Nat := key (0x1016) 0
def clkCalCount : Nat := key (0x1017) 0
def clkRampProfile : Nat := key (0x1018) 0
def clkRampDwell : Nat := key (0x1019) 0
def clkRampRate : Nat := key (0x101A) 0
def clkOut0Cfg (i : Nat) : Nat := key (0x101B + i) 0
def clkOut0Cfg1 (i : Nat) : Nat := key (0x101B + i) 1
def clkOut0Cfg3 (i : Nat) : Nat := key (0x101B + i) 3
def clkOut0Cfg16 (i : Nat) : Nat := key (0x101B + i) 16
def clkMclkCfg : Nat := key (0x101E) 0
def clkMclkCfg1 : Nat := key (0x101E) 1
def clkMclkCfg2 : Nat := key (0x101E) 2
def clkMclkCfg4 : Nat := key (0x101E) 4
def rfrRxWindowEdge : Nat := key (0x2000) 0
def rfrGainA : Nat := key (0x2001) 0
def rfrGainA8 : Nat := key (0x2001) 8
def rfrGainB : Nat := key (0x2002) 0
def rfrGainB8 : Nat := key (0x2002) 8
def rfrAgcTarget : Nat := key (0x2003) 0
def rfrAdcOverloadsA : Nat := key (0x2004) 0
def rfrAdcOverloadsB : Nat := key (0x2005) 0
def rfrAgcSteps : Nat := key (0x2006) 0
def rfrImageCalState : Nat := key (0x2007) 0
def rfrIrrA : Nat := key (0x2008) 0
def rfrIrrB : Nat := key (0x2009) 0
def rfrPrivCount : Nat := key (0x200A) 0
def rfrScanPasses : Nat := key (0x200B) 0
def rfrScanPasses8 : Nat := key (0x200B) 8
def rfrScanAerial : Nat := key (0x200C) 0
def rfrScansDone : Nat := key (0x200D) 0
def rfrCoordOccLimit : Nat := key (0x2010) 0
def rfrCoordRaster : Nat := key (0x2011) 0
def rfrCoordSpacingLink : Nat := key (0x2012) 0
def rfrCoordSpacingCarrier : Nat := key (0x2013) 0
def rfrCoordSpacingMixed : Nat := key (0x2014) 0
def rfrCoordIm3Guard : Nat := key (0x2015) 0
def rfrCoordIm2Guard : Nat := key (0x2016) 0
def rfrCoordImageGuard : Nat := key (0x2017) 0
def rfrPlanCommits : Nat := key (0x2018) 0
def linkState (n : Nat) : Nat := key (0x3000 + 0x40 * n) 0
def linkCapture (n : Nat) : Nat := key (0x3001 + 0x40 * n) 0
def linkCapture8 (n : Nat) : Nat := key (0x3001 + 0x40 * n) 8
def linkDiversity (n : Nat) : Nat := key (0x3002 + 0x40 * n) 0
def linkDiversity8 (n : Nat) : Nat := key (0x3002 + 0x40 * n) 8
def linkDfeCfg (n : Nat) : Nat := key (0x3003 + 0x40 * n) 0
def linkDfeCfg4 (n : Nat) : Nat := key (0x3003 + 0x40 * n) 4
def linkDfeCfg8 (n : Nat) : Nat := key (0x3003 + 0x40 * n) 8
def linkLqHopThreshold (n : Nat) : Nat := key (0x3004 + 0x40 * n) 0
def linkHopCfg (n : Nat) : Nat := key (0x3005 + 0x40 * n) 0
def linkHopCfg16 (n : Nat) : Nat := key (0x3005 + 0x40 * n) 16
def linkHopLead (n : Nat) : Nat := key (0x3006 + 0x40 * n) 0
def linkHopHoldoff (n : Nat) : Nat := key (0x3007 + 0x40 * n) 0
def linkHopFallback (n : Nat) : Nat := key (0x3008 + 0x40 * n) 0
def linkLoopCfg (n : Nat) : Nat := key (0x3009 + 0x40 * n) 0
def linkLoopCfg4 (n : Nat) : Nat := key (0x3009 + 0x40 * n) 4
def linkConcealFade (n : Nat) : Nat := key (0x300A + 0x40 * n) 0
def linkHoldFrames (n : Nat) : Nat := key (0x300B + 0x40 * n) 0
def linkFcRejects (n : Nat) : Nat := key (0x300C + 0x40 * n) 0
def linkCaptureRefused (n : Nat) : Nat := key (0x300D + 0x40 * n) 0
def linkHopNoAlt (n : Nat) : Nat := key (0x300E + 0x40 * n) 0
def linkMsgLen (n : Nat) : Nat := key (0x300F + 0x40 * n) 0
def linkLq (n : Nat) : Nat := key (0x3010 + 0x40 * n) 0
def linkRssi (n : Nat) : Nat := key (0x3011 + 0x40 * n) 0
def linkRssi16 (n : Nat) : Nat := key (0x3011 + 0x40 * n) 16
def linkFreqOffset (n : Nat) : Nat := key (0x3012 + 0x40 * n) 0
def linkTimingOffset (n : Nat) : Nat := key (0x3013 + 0x40 * n) 0
def linkEvm (n : Nat) : Nat := key (0x3014 + 0x40 * n) 0
def linkAerial (n : Nat) : Nat := key (0x3015 + 0x40 * n) 0
def linkFreq (n : Nat) : Nat := key (0x3016 + 0x40 * n) 0
def linkHopTarget (n : Nat) : Nat := key (0x3017 + 0x40 * n) 0
def linkHopPeriodLo (n : Nat) : Nat := key (0x3018 + 0x40 * n) 0
def linkHopPeriodHi (n : Nat) : Nat := key (0x3019 + 0x40 * n) 0
def linkSbTxid (n : Nat) : Nat := key (0x301A + 0x40 * n) 0
def linkSbStatus (n : Nat) : Nat := key (0x301B + 0x40 * n) 0
def linkSbName0 (n : Nat) (i : Nat) : Nat := key (0x301C + 0x40 * n + i) 0
def linkSbFlags (n : Nat) : Nat := key (0x301F + 0x40 * n) 0
def linkSbFlags8 (n : Nat) : Nat := key (0x301F + 0x40 * n) 8
def linkFramesOk (n : Nat) : Nat := key (0x3020 + 0x40 * n) 0
def linkFramesCrcFail (n : Nat) : Nat := key (0x3021 + 0x40 * n) 0
def linkFramesNoSync (n : Nat) : Nat := key (0x3022 + 0x40 * n) 0
def linkFramesConcealed (n : Nat) : Nat := key (0x3023 + 0x40 * n) 0
def linkBlocksInvalid (n : Nat) : Nat := key (0x3024 + 0x40 * n) 0
def linkFrameSlips (n : Nat) : Nat := key (0x3025 + 0x40 * n) 0
def linkIntrusions (n : Nat) : Nat := key (0x3026 + 0x40 * n) 0
def linkCaptureSwitches (n : Nat) : Nat := key (0x3027 + 0x40 * n) 0
def linkDiversitySwitches (n : Nat) : Nat := key (0x3028 + 0x40 * n) 0
def linkRunaheadUndos (n : Nat) : Nat := key (0x3029 + 0x40 * n) 0
def linkFalseStarts (n : Nat) : Nat := key (0x302A + 0x40 * n) 0
def linkLaneReacq (n : Nat) : Nat := key (0x302B + 0x40 * n) 0
def linkHops (n : Nat) : Nat := key (0x302C + 0x40 * n) 0
def linkHopFails (n : Nat) : Nat := key (0x302D + 0x40 * n) 0
def linkSbAccepted (n : Nat) : Nat := key (0x302E + 0x40 * n) 0
def linkSbDiscarded (n : Nat) : Nat := key (0x302F + 0x40 * n) 0
def linkMsg0 (n : Nat) (i : Nat) : Nat := key (0x3030 + 0x40 * n + i) 0
def txWindowEdge : Nat := key (0x4000) 0
def txEnabled : Nat := key (0x4001) 0
def txPaEnLead : Nat := key (0x4002) 0
def txPaUnmuteLead : Nat := key (0x4003) 0
def txPaOffDelay : Nat := key (0x4004) 0
def txCeiling : Nat := key (0x4005) 0
def txCeiling16 : Nat := key (0x4005) 16
def txPaState : Nat := key (0x4006) 0
def txPaState1 : Nat := key (0x4006) 1
def txComposite : Nat := key (0x4007) 0
def txBrownCuts : Nat := key (0x4008) 0
def txFaultCuts : Nat := key (0x4009) 0
def txQcalTemp : Nat := key (0x400A) 0
def txState (n : Nat) : Nat := key (0x4040 + 0x40 * n) 0
def txFreq (n : Nat) : Nat := key (0x4041 + 0x40 * n) 0
def txStep (n : Nat) : Nat := key (0x4042 + 0x40 * n) 0
def txStep8 (n : Nat) : Nat := key (0x4042 + 0x40 * n) 8
def txCfg (n : Nat) : Nat := key (0x4043 + 0x40 * n) 0
def txCfg1 (n : Nat) : Nat := key (0x4043 + 0x40 * n) 1
def txCfg2 (n : Nat) : Nat := key (0x4043 + 0x40 * n) 2
def txName0 (n : Nat) (i : Nat) : Nat := key (0x4044 + 0x40 * n + i) 0
def txMsgLen (n : Nat) : Nat := key (0x4047 + 0x40 * n) 0
def txMsgLen8 (n : Nat) : Nat := key (0x4047 + 0x40 * n) 8
def txMsg0 (n : Nat) (i : Nat) : Nat := key (0x4048 + 0x40 * n + i) 0
def txHopLead (n : Nat) : Nat := key (0x4058 + 0x40 * n) 0
def txRetuneTarget (n : Nat) : Nat := key (0x4059 + 0x40 * n) 0
def txRetunePeriodLo (n : Nat) : Nat := key (0x405A + 0x40 * n) 0
def txRetunePeriodHi (n : Nat) : Nat := key (0x405B + 0x40 * n) 0
def txFramesSent (n : Nat) : Nat := key (0x405C + 0x40 * n) 0
def txFramesInvalid (n : Nat) : Nat := key (0x405D + 0x40 * n) 0
def txRetunes (n : Nat) : Nat := key (0x405E + 0x40 * n) 0
def txClamps (n : Nat) : Nat := key (0x405F + 0x40 * n) 0
def clState : Nat := key (0x5000) 0
def clFreq : Nat := key (0x5001) 0
def clTxPower : Nat := key (0x5002) 0
def clSystemId : Nat := key (0x5003) 0
def clJoinEnable : Nat := key (0x5004) 0
def clCapture : Nat := key (0x5005) 0
def clCapture8 : Nat := key (0x5005) 8
def clSessionTimeout : Nat := key (0x5006) 0
def clHopLead : Nat := key (0x5007) 0
def clKeyLead : Nat := key (0x5008) 0
def clCoexCfg : Nat := key (0x5009) 0
def clCoexCfg1 : Nat := key (0x5009) 1
def clCoexCfg2 : Nat := key (0x5009) 2
def clCoexCfg8 : Nat := key (0x5009) 8
def clHopTarget : Nat := key (0x500A) 0
def clHopPeriodLo : Nat := key (0x500B) 0
def clHopPeriodHi : Nat := key (0x500C) 0
def clBeaconsSent : Nat := key (0x5010) 0
def clBeaconsAbandoned : Nat := key (0x5011) 0
def clRepliesOk : Nat := key (0x5012) 0
def clPollsMissed : Nat := key (0x5013) 0
def clCrcFails : Nat := key (0x5014) 0
def clMicFails : Nat := key (0x5015) 0
def clIntrusions : Nat := key (0x5016) 0
def clCaptureSwitches : Nat := key (0x5017) 0
def clCaptureRefused : Nat := key (0x5018) 0
def clFalseStarts : Nat := key (0x5019) 0
def clJoins : Nat := key (0x501A) 0
def clJoinUnknown : Nat := key (0x501B) 0
def clCoexDenials : Nat := key (0x501C) 0
def clCoexAborts : Nat := key (0x501D) 0
def clHopUnannounced : Nat := key (0x501E) 0
def clKeyChanges : Nat := key (0x501F) 0
def clKeyResyncs : Nat := key (0x5020) 0
def clBrownCuts : Nat := key (0x5021) 0
def clFaultCuts : Nat := key (0x5022) 0
def clMsgsReceived : Nat := key (0x5023) 0
def abcUserRods : Nat := key (0x7000) 0
def abcReservedLo : Nat := key (0x7001) 0
def abcReservedHi : Nat := key (0x7002) 0
def abcRunningLo : Nat := key (0x7003) 0
def abcRunningHi : Nat := key (0x7004) 0
def abcLoad : Nat := key (0x7005) 0
def abcProgCheck : Nat := key (0x7006) 0
def abcProgCheck16 : Nat := key (0x7006) 16
def abcProgCheck24 : Nat := key (0x7006) 24
def abcAccSats : Nat := key (0x7007) 0
def abcStoreSats : Nat := key (0x7008) 0
def abcSwaps : Nat := key (0x7009) 0
def abcRodState (n : Nat) : Nat := key (0x7040 + 0x4 * n) 0
def abcRodState4 (n : Nat) : Nat := key (0x7040 + 0x4 * n) 4
def abcRodState8 (n : Nat) : Nat := key (0x7040 + 0x4 * n) 8
def abcRodCost (n : Nat) : Nat := key (0x7041 + 0x4 * n) 0
def abcSwapPeriodLo (n : Nat) : Nat := key (0x7042 + 0x4 * n) 0
def abcSwapPeriodHi (n : Nat) : Nat := key (0x7043 + 0x4 * n) 0
def audZcTimeout : Nat := key (0x6000) 0
def audZcEnable : Nat := key (0x6001) 0
def audAsrcFree : Nat := key (0x6002) 0
def audRoutesActive : Nat := key (0x6003) 0
def audZcTimeouts : Nat := key (0x6004) 0
def audRouteSats : Nat := key (0x6005) 0
def audBusSats : Nat := key (0x6006) 0
def audStartTrigs : Nat := key (0x6007) 0
def audStartTimeLo : Nat := key (0x6008) 0
def audStartTimeHi : Nat := key (0x6009) 0
def audLatencyRefusals : Nat := key (0x600A) 0
def audPortState (n : Nat) : Nat := key (0x6040 + 0x20 * n) 0
def audPortCfg (n : Nat) : Nat := key (0x6041 + 0x20 * n) 0
def audPortCfg1 (n : Nat) : Nat := key (0x6041 + 0x20 * n) 1
def audPortCfg2 (n : Nat) : Nat := key (0x6041 + 0x20 * n) 2
def audPortCfg3 (n : Nat) : Nat := key (0x6041 + 0x20 * n) 3
def audPortAutoFollow (n : Nat) : Nat := key (0x6042 + 0x20 * n) 0
def audPortFormat (n : Nat) : Nat := key (0x6043 + 0x20 * n) 0
def audPortFormat2 (n : Nat) : Nat := key (0x6043 + 0x20 * n) 2
def audPortFormat3 (n : Nat) : Nat := key (0x6043 + 0x20 * n) 3
def audPortFormat4 (n : Nat) : Nat := key (0x6043 + 0x20 * n) 4
def audPortFormat8 (n : Nat) : Nat := key (0x6043 + 0x20 * n) 8
def audPortFormat16 (n : Nat) : Nat := key (0x6043 + 0x20 * n) 16
def audPortFormat17 (n : Nat) : Nat := key (0x6043 + 0x20 * n) 17
def audPortInMask (n : Nat) : Nat := key (0x6044 + 0x20 * n) 0
def audPortOutMask (n : Nat) : Nat := key (0x6045 + 0x20 * n) 0
def audPortRate (n : Nat) : Nat := key (0x6046 + 0x20 * n) 0
def audPortRatio (n : Nat) : Nat := key (0x6047 + 0x20 * n) 0
def audPortStatus (n : Nat) : Nat := key (0x6048 + 0x20 * n) 0
def audPortStatus1 (n : Nat) : Nat := key (0x6048 + 0x20 * n) 1
def audPortStatus2 (n : Nat) : Nat := key (0x6048 + 0x20 * n) 2
def audPortLost (n : Nat) : Nat := key (0x6049 + 0x20 * n) 0
def audPortGlitches (n : Nat) : Nat := key (0x604A + 0x20 * n) 0
def audPortUnderruns (n : Nat) : Nat := key (0x604B + 0x20 * n) 0
def audPortOverruns (n : Nat) : Nat := key (0x604C + 0x20 * n) 0
def audPortRateChanges (n : Nat) : Nat := key (0x604D + 0x20 * n) 0
def audTapRoute (n : Nat) : Nat := key (0x6100 + 0x8 * n) 0
def audTapRoute12 (n : Nat) : Nat := key (0x6100 + 0x8 * n) 12
def audTapRoute13 (n : Nat) : Nat := key (0x6100 + 0x8 * n) 13
def audTapStart (n : Nat) : Nat := key (0x6101 + 0x8 * n) 0
def audTapLength (n : Nat) : Nat := key (0x6102 + 0x8 * n) 0
def audTapWrptr (n : Nat) : Nat := key (0x6103 + 0x8 * n) 0
def audTapWraps (n : Nat) : Nat := key (0x6104 + 0x8 * n) 0
def audBus (n : Nat) : Nat := key (0x6180 + 0x1 * n) 0
def audBus16 (n : Nat) : Nat := key (0x6180 + 0x1 * n) 16
def audBus20 (n : Nat) : Nat := key (0x6180 + 0x1 * n) 20
def audMic1Cfg (i : Nat) : Nat := key (0x6200 + i) 0
def audMic1Cfg2 (i : Nat) : Nat := key (0x6200 + i) 2
def audMic1Cfg4 (i : Nat) : Nat := key (0x6200 + i) 4
def audMic1Cfg8 (i : Nat) : Nat := key (0x6200 + i) 8
def audMic1Cfg16 (i : Nat) : Nat := key (0x6200 + i) 16
def audMicbiasCfg : Nat := key (0x6204) 0
def audMicbiasCfg2 : Nat := key (0x6204) 2
def audMicbiasCfg8 : Nat := key (0x6204) 8
def audMicbiasCfg9 : Nat := key (0x6204) 9
def audHp1Cfg (i : Nat) : Nat := key (0x6205 + i) 0
def audHp1Cfg8 (i : Nat) : Nat := key (0x6205 + i) 8
def audHp1Cfg16 (i : Nat) : Nat := key (0x6205 + i) 16
def audHp1Cfg17 (i : Nat) : Nat := key (0x6205 + i) 17
def audSpkCfg : Nat := key (0x6207) 0
def audSpkCfg2 : Nat := key (0x6207) 2
def audSpkCfg8 : Nat := key (0x6207) 8
def audSpkCfg16 : Nat := key (0x6207) 16
def audSpkCfg17 : Nat := key (0x6207) 17
def audJackState : Nat := key (0x6208) 0
def audJackState1 : Nat := key (0x6208) 1
def audJackState8 : Nat := key (0x6208) 8
def audJackState16 : Nat := key (0x6208) 16
def audJackState17 : Nat := key (0x6208) 17
def audJackChanges : Nat := key (0x6209) 0
def audSpkFaults : Nat := key (0x620A) 0
def audMicbiasLimits : Nat := key (0x620B) 0
def audLocalClips : Nat := key (0x620C) 0
def measRefEn : Nat := key (0x8000) 0
def measRefEn8 : Nat := key (0x8000) 8
def measFaCfg : Nat := key (0x8001) 0
def measFaCfg8 : Nat := key (0x8001) 8
def measFaCfg12 : Nat := key (0x8001) 12
def measFaCfg16 : Nat := key (0x8001) 16
def measFaCfg20 : Nat := key (0x8001) 20
def measFaCfg21 : Nat := key (0x8001) 21
def measFaCfg24 : Nat := key (0x8001) 24
def measFbCfg : Nat := key (0x8002) 0
def measFbCfg8 : Nat := key (0x8002) 8
def measFbCfg12 : Nat := key (0x8002) 12
def measFbCfg16 : Nat := key (0x8002) 16
def measFbCfg20 : Nat := key (0x8002) 20
def measFbCfg21 : Nat := key (0x8002) 21
def measFbCfg24 : Nat := key (0x8002) 24
def measFaRate : Nat := key (0x8003) 0
def measFbRate : Nat := key (0x8004) 0
def measDelay : Nat := key (0x8005) 0
def measDelay16 : Nat := key (0x8005) 16
def measFaSeqLo : Nat := key (0x8008) 0
def measFaSeqHi : Nat := key (0x8009) 0
def measFbSeqLo : Nat := key (0x800A) 0
def measFbSeqHi : Nat := key (0x800B) 0
def measSeqLen : Nat := key (0x800C) 0
def measSeqLen8 : Nat := key (0x800C) 8
def measQueueLevel : Nat := key (0x8010) 0
def measTrigDropped : Nat := key (0x8011) 0
def measUrgentDropped : Nat := key (0x8012) 0
def measQueueOverflows : Nat := key (0x8013) 0
def measOverranges : Nat := key (0x8014) 0
def measCdacMismatches : Nat := key (0x8015) 0
def measStreamStart : Nat := key (0x8018) 0
def measStreamLength : Nat := key (0x8019) 0
def measStreamWrptr : Nat := key (0x801A) 0
def measStreamWraps : Nat := key (0x801B) 0
def measStreamMask : Nat := key (0x801C) 0
def measTmCfg (n : Nat) : Nat := key (0x8020 + 0x4 * n) 0
def measTmPeriod (n : Nat) : Nat := key (0x8021 + 0x4 * n) 0
def measTmPhase (n : Nat) : Nat := key (0x8022 + 0x4 * n) 0
def measPwmCfg (n : Nat) : Nat := key (0x8030 + 0x4 * n) 0
def measPwmCfg1 (n : Nat) : Nat := key (0x8030 + 0x4 * n) 1
def measPwmPeriod (n : Nat) : Nat := key (0x8031 + 0x4 * n) 0
def measPwmDuty (n : Nat) : Nat := key (0x8032 + 0x4 * n) 0
def measCdacCode (n : Nat) : Nat := key (0x8040 + 0x4 * n) 0
def measCdacCode16 (n : Nat) : Nat := key (0x8040 + 0x4 * n) 16
def measCdacCfg (n : Nat) : Nat := key (0x8041 + 0x4 * n) 0
def measCdacCfg1 (n : Nat) : Nat := key (0x8041 + 0x4 * n) 1
def measCdacCfg4 (n : Nat) : Nat := key (0x8041 + 0x4 * n) 4
def measCdacSlew (n : Nat) : Nat := key (0x8042 + 0x4 * n) 0
def measCdacSupv (n : Nat) : Nat := key (0x8043 + 0x4 * n) 0
def sysTwSclTimeouts : Nat := key (0x20) 0
def sysTwProtoErr : Nat := key (0x21) 0
def sysTwWakeNacks : Nat := key (0x22) 0
def sysTwFullNacks : Nat := key (0x23) 0
def sysTwAlertAnswers : Nat := key (0x24) 0
def sysTwAlertLost : Nat := key (0x25) 0
def sysTwStatus : Nat := key (0x26) 0
def sysTwStatus1 : Nat := key (0x26) 1
def sysTwStatus8 : Nat := key (0x26) 8
def sysTwStatus16 : Nat := key (0x26) 16
def sysSleepTimeUncertainty : Nat := key (0x30) 0
def sysSleepTimeUncertainty31 : Nat := key (0x30) 31
def sysSleepLfCyclesLo : Nat := key (0x31) 0
def sysSleepLfCyclesHi : Nat := key (0x32) 0
def pwrDomainsOn : Nat := key (0x9000) 0
def pwrPowerRefusals : Nat := key (0x9001) 0
def pwrLastRefuser : Nat := key (0x9002) 0
def pwrLastRefuser8 : Nat := key (0x9002) 8
def pwrLastRefuser16 : Nat := key (0x9002) 16
def pwrWakeAborts : Nat := key (0x9003) 0
def pwrHold : Nat := key (0x9004) 0
def pwrWakeCfg : Nat := key (0x9005) 0
def pwrWakeCfg8 : Nat := key (0x9005) 8
def pwrWakeCfg16 : Nat := key (0x9005) 16
def pwrWakeCfg17 : Nat := key (0x9005) 17
def pwrIdleDelay : Nat := key (0x9006) 0
def pwrSleeps : Nat := key (0x9007) 0
def pwrDomainWakes : Nat := key (0x9008) 0
def pwrWakeStallMax : Nat := key (0x9009) 0
def pwrWakeTimeouts : Nat := key (0x900A) 0
def pwrLastWakeTime : Nat := key (0x900B) 0
def pwrWdogResets : Nat := key (0x900C) 0
def protState : Nat := key (0xB000) 0
def protState8 : Nat := key (0xB000) 8
def protPolicy : Nat := key (0xB001) 0
def protOtpStatus : Nat := key (0xB002) 0
def protOtpStatus1 : Nat := key (0xB002) 1
def protOtpStatus4 : Nat := key (0xB002) 4
def protProposals : Nat := key (0xB003) 0
def protApprovals : Nat := key (0xB004) 0
def protRejects : Nat := key (0xB005) 0
def protExpiries : Nat := key (0xB006) 0
def protCancels : Nat := key (0xB007) 0
def protApplied : Nat := key (0xB008) 0
def rckVselCode : Nat := key (0xA020) 0
def rckBiasStep : Nat := key (0xA021) 0
def rckPoweredHours : Nat := key (0xA022) 0
def rckHoursSincePlan : Nat := key (0xA023) 0
def rckTopsWorst : Nat := key (0xA024) 0
def rckTopsWorst24 : Nat := key (0xA024) 24
def rckTopsExcluded : Nat := key (0xA025) 0
def rckPlanCount : Nat := key (0xA026) 0
def rckPlanLimits : Nat := key (0xA027) 0
def rckPlanLimits1 : Nat := key (0xA027) 1
def rckPlanLimits2 : Nat := key (0xA027) 2
def rckPlanLimits3 : Nat := key (0xA027) 3
def rckPlanLimits4 : Nat := key (0xA027) 4
def rckVselFaults : Nat := key (0xA028) 0
def rckTopsFaults : Nat := key (0xA029) 0
def rckVselSettle : Nat := key (0xA02A) 0
def tstArmed1 : Nat := key (0xF000) 1
def tstArmLimit : Nat := key (0xF001) 0
def tstLoopback : Nat := key (0xF002) 0
def tstLoopback8 : Nat := key (0xF002) 8
def tstInjections (i : Nat) : Nat := key (0xF011 + i) 0
def tstTarget (i : Nat) : Nat := key (0xF021 + i) 0
def tstSetting (i : Nat) : Nat := key (0xF031 + i) 0
def sysTxAutoResume : Nat := key (0x40) 0
def sysBrownState : Nat := key (0x41) 0
def sysBrownState1 : Nat := key (0x41) 1
def sysBrownState2 : Nat := key (0x41) 2
def sysBrownState8 : Nat := key (0x41) 8
def sysBrownWarnCore : Nat := key (0x42) 0
def sysBrownWarnRf : Nat := key (0x43) 0
def sysBrownWarnAon : Nat := key (0x44) 0
def sysBrownHoldMax : Nat := key (0x45) 0
def sysLastBorRail : Nat := key (0x46) 0
def sysSupplyOrder : Nat := key (0x47) 0
def sysRailsPresent : Nat := key (0x48) 0
def sysRailsPresent16 : Nat := key (0x48) 16

end P

def fieldRows1 : List Fld :=
  [⟨0x10, 0, 32, .ro, .none, 0⟩, ⟨0x11, 0, 32, .ro, .none, 0⟩,
   ⟨0x12, 0, 32, .ro, .none, 0⟩, ⟨0x13, 0, 32, .ro, .none, 0⟩,
   ⟨0x14, 0, 32, .ro, .none, 0⟩, ⟨0x15, 0, 32, .ro, .none, 0⟩,
   ⟨0x16, 0, 32, .ro, .none, 0⟩, ⟨0x17, 0, 32, .ro, .none, 0⟩,
   ⟨0x18, 0, 32, .ro, .none, 0⟩, ⟨0x19, 0, 32, .ro, .none, 0⟩,
   ⟨0x1A, 0, 32, .ro, .none, 0⟩, ⟨0x1B, 0, 32, .ro, .none, 0⟩,
   ⟨0x1C, 0, 32, .ro, .keep, 0⟩, ⟨0x20, 0, 32, .ro, .sleep, 0⟩,
   ⟨0x21, 0, 32, .ro, .sleep, 0⟩, ⟨0x22, 0, 32, .ro, .sleep, 0⟩,
   ⟨0x23, 0, 32, .ro, .sleep, 0⟩, ⟨0x24, 0, 32, .ro, .sleep, 0⟩,
   ⟨0x25, 0, 32, .ro, .sleep, 0⟩, ⟨0x26, 0, 1, .ro, .sleep, 0⟩,
   ⟨0x26, 1, 1, .ro, .none, 0⟩, ⟨0x26, 8, 8, .ro, .sleep, 0⟩,
   ⟨0x26, 16, 8, .ro, .sleep, 0⟩, ⟨0x30, 0, 31, .ro, .sleep, 0⟩,
   ⟨0x30, 31, 1, .ro, .sleep, 0⟩, ⟨0x31, 0, 32, .ro, .sleep, 0⟩,
   ⟨0x32, 0, 32, .ro, .sleep, 0⟩, ⟨0x40, 0, 1, .rw, .keep, 0⟩,
   ⟨0x41, 0, 1, .ro, .none, 0⟩, ⟨0x41, 1, 1, .ro, .none, 0⟩,
   ⟨0x41, 2, 1, .ro, .none, 0⟩, ⟨0x41, 8, 1, .ro, .none, 0⟩,
   ⟨0x42, 0, 32, .ro, .sleep, 0⟩, ⟨0x43, 0, 32, .ro, .sleep, 0⟩,
   ⟨0x44, 0, 32, .ro, .sleep, 0⟩, ⟨0x45, 0, 32, .ro, .sleep, 0⟩,
   ⟨0x46, 0, 2, .ro, .keep, 0⟩, ⟨0x47, 0, 3, .ro, .keep, 0⟩,
   ⟨0x48, 0, 10, .ro, .none, 0⟩, ⟨0x48, 16, 10, .ro, .none, 0⟩,
   ⟨0x1000, 0, 2, .rw, .keep, 0⟩, ⟨0x1001, 0, 3, .ro, .none, 0⟩,
   ⟨0x1002, 0, 32, .ro, .none, 0⟩, ⟨0x1003, 0, 32, .ro, .none, 0⟩,
   ⟨0x1004, 0, 32, .ro, .none, 0⟩, ⟨0x1005, 0, 32, .ro, .none, 0⟩,
   ⟨0x1006, 0, 32, .ro, .none, 0⟩, ⟨0x1007, 0, 4, .ro, .none, 0⟩,
   ⟨0x1007, 4, 4, .ro, .none, 0⟩, ⟨0x1008, 0, 32, .ro, .none, 0⟩,
   ⟨0x1009, 0, 32, .ro, .none, 0⟩, ⟨0x100A, 0, 32, .ro, .none, 0⟩,
   ⟨0x100B, 0, 32, .ro, .none, 0⟩, ⟨0x100C, 0, 1, .ro, .none, 1⟩,
   ⟨0x100D, 0, 32, .ro, .none, 0⟩, ⟨0x100E, 0, 32, .ro, .keep, 0⟩,
   ⟨0x100F, 0, 16, .ro, .none, 0⟩, ⟨0x1010, 0, 2, .rws, .keep, 0⟩,
   ⟨0x1011, 0, 32, .rw, .none, 0⟩, ⟨0x1012, 0, 32, .rw, .none, 0⟩]

def fieldRows2 : List Fld :=
  [⟨0x1013, 0, 2, .rw, .none, 0⟩, ⟨0x1014, 0, 12, .rw, .keep, 0x400⟩,
   ⟨0x1015, 0, 16, .ro, .none, 0⟩, ⟨0x1016, 0, 32, .ro, .none, 0⟩,
   ⟨0x1017, 0, 32, .ro, .none, 0⟩, ⟨0x1018, 0, 1, .rws, .keep, 0⟩,
   ⟨0x1019, 0, 16, .rws, .keep, 0x1F4⟩, ⟨0x101A, 0, 32, .rws, .keep, 0x186A0⟩,
   ⟨0x101B, 0, 1, .rw, .keep, 0⟩, ⟨0x101B, 1, 2, .rw, .keep, 0⟩,
   ⟨0x101B, 3, 1, .rw, .keep, 0⟩, ⟨0x101B, 16, 16, .rw, .keep, 0x20⟩,
   ⟨0x101C, 0, 1, .rw, .keep, 0⟩, ⟨0x101C, 1, 2, .rw, .keep, 0⟩,
   ⟨0x101C, 3, 1, .rw, .keep, 0⟩, ⟨0x101C, 16, 16, .rw, .keep, 0x20⟩,
   ⟨0x101D, 0, 1, .rw, .keep, 0⟩, ⟨0x101D, 1, 2, .rw, .keep, 0⟩,
   ⟨0x101D, 3, 1, .rw, .keep, 0⟩, ⟨0x101D, 16, 16, .rw, .keep, 0x20⟩,
   ⟨0x101E, 0, 1, .rw, .keep, 0⟩, ⟨0x101E, 1, 1, .rw, .keep, 0⟩,
   ⟨0x101E, 2, 2, .rw, .keep, 0⟩, ⟨0x101E, 4, 2, .rw, .keep, 0⟩,
   ⟨0x2000, 0, 32, .ro, .none, 0⟩, ⟨0x2001, 0, 8, .ro, .none, 0xC⟩,
   ⟨0x2001, 8, 1, .ro, .none, 0⟩, ⟨0x2002, 0, 8, .ro, .none, 0xC⟩,
   ⟨0x2002, 8, 1, .ro, .none, 0⟩, ⟨0x2003, 0, 8, .rw, .keep, 0xEC⟩,
   ⟨0x2004, 0, 32, .ro, .none, 0⟩, ⟨0x2005, 0, 32, .ro, .none, 0⟩,
   ⟨0x2006, 0, 32, .ro, .none, 0⟩, ⟨0x2007, 0, 2, .ro, .none, 0⟩,
   ⟨0x2008, 0, 8, .ro, .none, 0⟩, ⟨0x2009, 0, 8, .ro, .none, 0⟩,
   ⟨0x200A, 0, 4, .ro, .none, 0⟩, ⟨0x200B, 0, 8, .ro, .none, 0⟩,
   ⟨0x200B, 8, 1, .ro, .none, 0⟩, ⟨0x200C, 0, 1, .rws, .keep, 0⟩,
   ⟨0x200D, 0, 32, .ro, .none, 0⟩, ⟨0x2010, 0, 16, .rw, .keep, 0xFE84⟩,
   ⟨0x2011, 0, 32, .rw, .keep, 0x61A8⟩, ⟨0x2012, 0, 32, .rw, .keep, 0x55730⟩,
   ⟨0x2013, 0, 32, .rw, .keep, 0x927C0⟩, ⟨0x2014, 0, 32, .rw, .keep, 0x4C4B40⟩,
   ⟨0x2015, 0, 32, .rw, .keep, 0x186A0⟩, ⟨0x2016, 0, 32, .rw, .keep, 0xC350⟩,
   ⟨0x2017, 0, 32, .rw, .keep, 0x30D40⟩, ⟨0x2018, 0, 32, .ro, .keep, 0⟩,
   ⟨0x3000, 0, 3, .ro, .none, 0⟩, ⟨0x3001, 0, 5, .rw, .none, 0xC⟩,
   ⟨0x3001, 8, 1, .rw, .none, 0⟩, ⟨0x3002, 0, 2, .rw, .none, 0⟩,
   ⟨0x3002, 8, 8, .rw, .none, 4⟩, ⟨0x3003, 0, 4, .rw, .none, 6⟩,
   ⟨0x3003, 4, 4, .rw, .none, 7⟩, ⟨0x3003, 8, 1, .rw, .none, 0⟩,
   ⟨0x3004, 0, 8, .rw, .none, 0x40⟩, ⟨0x3005, 0, 16, .rw, .none, 0xC8⟩]

def fieldRows3 : List Fld :=
  [⟨0x3005, 16, 1, .rw, .none, 1⟩, ⟨0x3006, 0, 16, .rw, .none, 0x3C⟩,
   ⟨0x3007, 0, 16, .rw, .none, 0x7D0⟩, ⟨0x3008, 0, 8, .rw, .none, 8⟩,
   ⟨0x3009, 0, 4, .rw, .none, 3⟩, ⟨0x3009, 4, 4, .rw, .none, 2⟩,
   ⟨0x300A, 0, 7, .rw, .none, 8⟩, ⟨0x300B, 0, 8, .rw, .none, 0x10⟩,
   ⟨0x300C, 0, 32, .ro, .none, 0⟩, ⟨0x300D, 0, 32, .ro, .none, 0⟩,
   ⟨0x300E, 0, 32, .ro, .none, 0⟩, ⟨0x300F, 0, 7, .ro, .none, 0⟩,
   ⟨0x3010, 0, 8, .ro, .none, 0⟩, ⟨0x3011, 0, 16, .ro, .none, 0x8000⟩,
   ⟨0x3011, 16, 16, .ro, .none, 0x8000⟩, ⟨0x3012, 0, 32, .ro, .none, 0⟩,
   ⟨0x3013, 0, 16, .ro, .none, 0⟩, ⟨0x3014, 0, 16, .ro, .none, 0x3E8⟩,
   ⟨0x3015, 0, 1, .ro, .none, 0⟩, ⟨0x3016, 0, 32, .ro, .none, 0⟩,
   ⟨0x3017, 0, 32, .ro, .none, 0⟩, ⟨0x3018, 0, 32, .ro, .none, 0⟩,
   ⟨0x3019, 0, 32, .ro, .none, 0⟩, ⟨0x301A, 0, 32, .ro, .none, 0⟩,
   ⟨0x301B, 0, 32, .ro, .none, 0⟩, ⟨0x301C, 0, 32, .ro, .none, 0⟩,
   ⟨0x301D, 0, 32, .ro, .none, 0⟩, ⟨0x301E, 0, 32, .ro, .none, 0⟩,
   ⟨0x301F, 0, 8, .ro, .none, 0⟩, ⟨0x301F, 8, 1, .ro, .none, 0⟩,
   ⟨0x3020, 0, 32, .ro, .none, 0⟩, ⟨0x3021, 0, 32, .ro, .none, 0⟩,
   ⟨0x3022, 0, 32, .ro, .none, 0⟩, ⟨0x3023, 0, 32, .ro, .none, 0⟩,
   ⟨0x3024, 0, 32, .ro, .none, 0⟩, ⟨0x3025, 0, 32, .ro, .none, 0⟩,
   ⟨0x3026, 0, 32, .ro, .none, 0⟩, ⟨0x3027, 0, 32, .ro, .none, 0⟩,
   ⟨0x3028, 0, 32, .ro, .none, 0⟩, ⟨0x3029, 0, 32, .ro, .none, 0⟩,
   ⟨0x302A, 0, 32, .ro, .none, 0⟩, ⟨0x302B, 0, 32, .ro, .none, 0⟩,
   ⟨0x302C, 0, 32, .ro, .none, 0⟩, ⟨0x302D, 0, 32, .ro, .none, 0⟩,
   ⟨0x302E, 0, 32, .ro, .none, 0⟩, ⟨0x302F, 0, 32, .ro, .none, 0⟩,
   ⟨0x3030, 0, 32, .ro, .none, 0⟩, ⟨0x3031, 0, 32, .ro, .none, 0⟩,
   ⟨0x3032, 0, 32, .ro, .none, 0⟩, ⟨0x3033, 0, 32, .ro, .none, 0⟩,
   ⟨0x3034, 0, 32, .ro, .none, 0⟩, ⟨0x3035, 0, 32, .ro, .none, 0⟩,
   ⟨0x3036, 0, 32, .ro, .none, 0⟩, ⟨0x3037, 0, 32, .ro, .none, 0⟩,
   ⟨0x3038, 0, 32, .ro, .none, 0⟩, ⟨0x3039, 0, 32, .ro, .none, 0⟩,
   ⟨0x303A, 0, 32, .ro, .none, 0⟩, ⟨0x303B, 0, 32, .ro, .none, 0⟩,
   ⟨0x303C, 0, 32, .ro, .none, 0⟩, ⟨0x303D, 0, 32, .ro, .none, 0⟩]

def fieldRows4 : List Fld :=
  [⟨0x303E, 0, 32, .ro, .none, 0⟩, ⟨0x303F, 0, 32, .ro, .none, 0⟩,
   ⟨0x4000, 0, 32, .ro, .none, 0⟩, ⟨0x4001, 0, 16, .ro, .none, 0⟩,
   ⟨0x4002, 0, 16, .rws, .keep, 0xC8⟩, ⟨0x4003, 0, 16, .rws, .keep, 0x32⟩,
   ⟨0x4004, 0, 16, .rws, .keep, 0x64⟩, ⟨0x4005, 0, 6, .ro, .keep, 0⟩,
   ⟨0x4005, 16, 16, .ro, .keep, 0xEDCC⟩, ⟨0x4006, 0, 1, .ro, .none, 0⟩,
   ⟨0x4006, 1, 1, .ro, .none, 0⟩, ⟨0x4007, 0, 16, .ro, .none, 0x8000⟩,
   ⟨0x4008, 0, 32, .ro, .none, 0⟩, ⟨0x4009, 0, 32, .ro, .none, 0⟩,
   ⟨0x400A, 0, 16, .ro, .none, 0⟩, ⟨0x4040, 0, 3, .ro, .none, 0⟩,
   ⟨0x4041, 0, 32, .ro, .none, 0⟩, ⟨0x4042, 0, 6, .ro, .none, 0⟩,
   ⟨0x4042, 8, 2, .ro, .none, 0⟩, ⟨0x4043, 0, 1, .rw, .none, 0⟩,
   ⟨0x4043, 1, 1, .rw, .none, 0⟩, ⟨0x4043, 2, 1, .rw, .none, 0⟩,
   ⟨0x4044, 0, 32, .rw, .none, 0⟩, ⟨0x4045, 0, 32, .rw, .none, 0⟩,
   ⟨0x4046, 0, 32, .rw, .none, 0⟩, ⟨0x4047, 0, 7, .rw, .none, 0⟩,
   ⟨0x4047, 8, 1, .ro, .none, 0⟩, ⟨0x4048, 0, 32, .rw, .none, 0⟩,
   ⟨0x4049, 0, 32, .rw, .none, 0⟩, ⟨0x404A, 0, 32, .rw, .none, 0⟩,
   ⟨0x404B, 0, 32, .rw, .none, 0⟩, ⟨0x404C, 0, 32, .rw, .none, 0⟩,
   ⟨0x404D, 0, 32, .rw, .none, 0⟩, ⟨0x404E, 0, 32, .rw, .none, 0⟩,
   ⟨0x404F, 0, 32, .rw, .none, 0⟩, ⟨0x4050, 0, 32, .rw, .none, 0⟩,
   ⟨0x4051, 0, 32, .rw, .none, 0⟩, ⟨0x4052, 0, 32, .rw, .none, 0⟩,
   ⟨0x4053, 0, 32, .rw, .none, 0⟩, ⟨0x4054, 0, 32, .rw, .none, 0⟩,
   ⟨0x4055, 0, 32, .rw, .none, 0⟩, ⟨0x4056, 0, 32, .rw, .none, 0⟩,
   ⟨0x4057, 0, 32, .rw, .none, 0⟩, ⟨0x4058, 0, 16, .rw, .none, 0x3C⟩,
   ⟨0x4059, 0, 32, .ro, .none, 0⟩, ⟨0x405A, 0, 32, .ro, .none, 0⟩,
   ⟨0x405B, 0, 32, .ro, .none, 0⟩, ⟨0x405C, 0, 32, .ro, .none, 0⟩,
   ⟨0x405D, 0, 32, .ro, .none, 0⟩, ⟨0x405E, 0, 32, .ro, .none, 0⟩,
   ⟨0x405F, 0, 32, .ro, .none, 0⟩, ⟨0x5000, 0, 3, .ro, .none, 0⟩,
   ⟨0x5001, 0, 32, .ro, .none, 0⟩, ⟨0x5002, 0, 8, .ro, .none, 0⟩,
   ⟨0x5003, 0, 24, .rws, .keep, 0⟩, ⟨0x5004, 0, 1, .rw, .keep, 1⟩,
   ⟨0x5005, 0, 5, .rw, .keep, 0xC⟩, ⟨0x5005, 8, 1, .rw, .keep, 0⟩,
   ⟨0x5006, 0, 8, .rw, .keep, 0xC⟩, ⟨0x5007, 0, 16, .rw, .keep, 0x64⟩]

def fieldRows5 : List Fld :=
  [⟨0x5008, 0, 8, .rw, .keep, 0x1E⟩, ⟨0x5009, 0, 1, .rw, .keep, 0⟩,
   ⟨0x5009, 1, 1, .rw, .keep, 0⟩, ⟨0x5009, 2, 1, .rw, .keep, 0⟩,
   ⟨0x5009, 8, 8, .rw, .keep, 0x14⟩, ⟨0x500A, 0, 32, .ro, .none, 0⟩,
   ⟨0x500B, 0, 32, .ro, .none, 0⟩, ⟨0x500C, 0, 32, .ro, .none, 0⟩,
   ⟨0x5010, 0, 32, .ro, .none, 0⟩, ⟨0x5011, 0, 32, .ro, .none, 0⟩,
   ⟨0x5012, 0, 32, .ro, .none, 0⟩, ⟨0x5013, 0, 32, .ro, .none, 0⟩,
   ⟨0x5014, 0, 32, .ro, .none, 0⟩, ⟨0x5015, 0, 32, .ro, .none, 0⟩,
   ⟨0x5016, 0, 32, .ro, .none, 0⟩, ⟨0x5017, 0, 32, .ro, .none, 0⟩,
   ⟨0x5018, 0, 32, .ro, .none, 0⟩, ⟨0x5019, 0, 32, .ro, .none, 0⟩,
   ⟨0x501A, 0, 32, .ro, .none, 0⟩, ⟨0x501B, 0, 32, .ro, .none, 0⟩,
   ⟨0x501C, 0, 32, .ro, .none, 0⟩, ⟨0x501D, 0, 32, .ro, .none, 0⟩,
   ⟨0x501E, 0, 32, .ro, .none, 0⟩, ⟨0x501F, 0, 32, .ro, .none, 0⟩,
   ⟨0x5020, 0, 32, .ro, .none, 0⟩, ⟨0x5021, 0, 32, .ro, .none, 0⟩,
   ⟨0x5022, 0, 32, .ro, .none, 0⟩, ⟨0x5023, 0, 32, .ro, .none, 0⟩,
   ⟨0x6000, 0, 8, .rw, .none, 0x20⟩, ⟨0x6001, 0, 1, .rw, .none, 1⟩,
   ⟨0x6002, 0, 7, .ro, .none, 0x40⟩, ⟨0x6003, 0, 10, .ro, .none, 0⟩,
   ⟨0x6004, 0, 32, .ro, .none, 0⟩, ⟨0x6005, 0, 32, .ro, .none, 0⟩,
   ⟨0x6006, 0, 32, .ro, .none, 0⟩, ⟨0x6007, 0, 32, .ro, .none, 0⟩,
   ⟨0x6008, 0, 32, .ro, .none, 0⟩, ⟨0x6009, 0, 32, .ro, .none, 0⟩,
   ⟨0x600A, 0, 32, .ro, .none, 0⟩, ⟨0x6040, 0, 3, .ro, .none, 0⟩,
   ⟨0x6041, 0, 1, .rws, .none, 0⟩, ⟨0x6041, 1, 1, .rws, .none, 0⟩,
   ⟨0x6041, 2, 1, .rws, .none, 0⟩, ⟨0x6041, 3, 1, .rw, .none, 0⟩,
   ⟨0x6042, 0, 1, .rw, .none, 0⟩, ⟨0x6043, 0, 2, .ro, .none, 0⟩,
   ⟨0x6043, 2, 1, .ro, .none, 0⟩, ⟨0x6043, 3, 1, .ro, .none, 0⟩,
   ⟨0x6043, 4, 2, .ro, .none, 0⟩, ⟨0x6043, 8, 6, .ro, .none, 0⟩,
   ⟨0x6043, 16, 1, .ro, .none, 0⟩, ⟨0x6043, 17, 1, .ro, .none, 0⟩,
   ⟨0x6044, 0, 32, .ro, .none, 0⟩, ⟨0x6045, 0, 32, .ro, .none, 0⟩,
   ⟨0x6046, 0, 32, .ro, .none, 0⟩, ⟨0x6047, 0, 32, .ro, .none, 0⟩,
   ⟨0x6048, 0, 1, .ro, .none, 0⟩, ⟨0x6048, 1, 1, .ro, .none, 0⟩,
   ⟨0x6048, 2, 2, .ro, .none, 0⟩, ⟨0x6049, 0, 32, .ro, .none, 0⟩]

def fieldRows6 : List Fld :=
  [⟨0x604A, 0, 32, .ro, .none, 0⟩, ⟨0x604B, 0, 32, .ro, .none, 0⟩,
   ⟨0x604C, 0, 32, .ro, .none, 0⟩, ⟨0x604D, 0, 32, .ro, .none, 0⟩,
   ⟨0x6100, 0, 9, .ro, .none, 0⟩, ⟨0x6100, 12, 1, .ro, .none, 0⟩,
   ⟨0x6100, 13, 1, .ro, .none, 0⟩, ⟨0x6101, 0, 32, .ro, .none, 0⟩,
   ⟨0x6102, 0, 32, .ro, .none, 0⟩, ⟨0x6103, 0, 32, .ro, .none, 0⟩,
   ⟨0x6104, 0, 32, .ro, .none, 0⟩, ⟨0x6105, 0, 32, .ro, .none, 0⟩,
   ⟨0x6106, 0, 32, .ro, .none, 0⟩, ⟨0x6107, 0, 32, .ro, .none, 0⟩,
   ⟨0x6180, 0, 16, .ro, .none, 0⟩, ⟨0x6180, 16, 2, .ro, .none, 0⟩,
   ⟨0x6180, 20, 10, .ro, .none, 0⟩, ⟨0x6200, 0, 2, .ro, .none, 0⟩,
   ⟨0x6200, 2, 2, .ro, .none, 0⟩, ⟨0x6200, 4, 2, .ro, .none, 0⟩,
   ⟨0x6200, 8, 7, .ro, .none, 0xC⟩, ⟨0x6200, 16, 1, .ro, .none, 0⟩,
   ⟨0x6201, 0, 2, .ro, .none, 0⟩, ⟨0x6201, 2, 2, .ro, .none, 0⟩,
   ⟨0x6201, 4, 2, .ro, .none, 0⟩, ⟨0x6201, 8, 7, .ro, .none, 0xC⟩,
   ⟨0x6201, 16, 1, .ro, .none, 0⟩, ⟨0x6202, 0, 2, .ro, .none, 0⟩,
   ⟨0x6202, 2, 2, .ro, .none, 0⟩, ⟨0x6202, 4, 2, .ro, .none, 0⟩,
   ⟨0x6202, 8, 7, .ro, .none, 0xC⟩, ⟨0x6202, 16, 1, .ro, .none, 0⟩,
   ⟨0x6203, 0, 2, .ro, .none, 0⟩, ⟨0x6203, 2, 2, .ro, .none, 0⟩,
   ⟨0x6203, 4, 2, .ro, .none, 0⟩, ⟨0x6203, 8, 7, .ro, .none, 0xC⟩,
   ⟨0x6203, 16, 1, .ro, .none, 0⟩, ⟨0x6204, 0, 2, .ro, .none, 0⟩,
   ⟨0x6204, 2, 2, .ro, .none, 0⟩, ⟨0x6204, 8, 1, .ro, .none, 0⟩,
   ⟨0x6204, 9, 1, .ro, .none, 0⟩, ⟨0x6205, 0, 2, .ro, .none, 0⟩,
   ⟨0x6205, 8, 6, .ro, .none, 0x14⟩, ⟨0x6205, 16, 1, .ro, .none, 0⟩,
   ⟨0x6205, 17, 3, .ro, .none, 0⟩, ⟨0x6206, 0, 2, .ro, .none, 0⟩,
   ⟨0x6206, 8, 6, .ro, .none, 0x14⟩, ⟨0x6206, 16, 1, .ro, .none, 0⟩,
   ⟨0x6206, 17, 3, .ro, .none, 0⟩, ⟨0x6207, 0, 2, .ro, .none, 0⟩,
   ⟨0x6207, 2, 2, .ro, .none, 3⟩, ⟨0x6207, 8, 6, .ro, .none, 0x14⟩,
   ⟨0x6207, 16, 1, .ro, .none, 0⟩, ⟨0x6207, 17, 3, .ro, .none, 0⟩,
   ⟨0x6208, 0, 1, .ro, .none, 0⟩, ⟨0x6208, 1, 1, .ro, .none, 0⟩,
   ⟨0x6208, 8, 8, .ro, .none, 0x64⟩, ⟨0x6208, 16, 1, .ro, .none, 0⟩,
   ⟨0x6208, 17, 1, .ro, .none, 0⟩, ⟨0x6209, 0, 32, .ro, .none, 0⟩]

def fieldRows7 : List Fld :=
  [⟨0x620A, 0, 32, .ro, .none, 0⟩, ⟨0x620B, 0, 32, .ro, .none, 0⟩,
   ⟨0x620C, 0, 32, .ro, .none, 0⟩, ⟨0x7000, 0, 7, .ro, .none, 0x40⟩,
   ⟨0x7001, 0, 32, .ro, .none, 0⟩, ⟨0x7002, 0, 32, .ro, .none, 0⟩,
   ⟨0x7003, 0, 32, .ro, .none, 0⟩, ⟨0x7004, 0, 32, .ro, .none, 0⟩,
   ⟨0x7005, 0, 10, .ro, .none, 0⟩, ⟨0x7006, 0, 9, .ro, .none, 0⟩,
   ⟨0x7006, 16, 3, .ro, .none, 0⟩, ⟨0x7006, 24, 6, .ro, .none, 0⟩,
   ⟨0x7007, 0, 32, .ro, .none, 0⟩, ⟨0x7008, 0, 32, .ro, .none, 0⟩,
   ⟨0x7009, 0, 32, .ro, .none, 0⟩, ⟨0x7040, 0, 3, .ro, .none, 0⟩,
   ⟨0x7040, 4, 2, .ro, .none, 0⟩, ⟨0x7040, 8, 1, .ro, .none, 0⟩,
   ⟨0x7041, 0, 32, .ro, .none, 0⟩, ⟨0x7042, 0, 32, .ro, .none, 0⟩,
   ⟨0x7043, 0, 32, .ro, .none, 0⟩, ⟨0x8000, 0, 1, .rw, .none, 0⟩,
   ⟨0x8000, 8, 1, .ro, .none, 0⟩, ⟨0x8001, 0, 8, .ro, .none, 0⟩,
   ⟨0x8001, 8, 3, .ro, .none, 4⟩, ⟨0x8001, 12, 2, .ro, .none, 0⟩,
   ⟨0x8001, 16, 4, .ro, .none, 0⟩, ⟨0x8001, 20, 1, .ro, .none, 0⟩,
   ⟨0x8001, 21, 1, .ro, .none, 0⟩, ⟨0x8001, 24, 8, .ro, .none, 0⟩,
   ⟨0x8002, 0, 8, .ro, .none, 0⟩, ⟨0x8002, 8, 3, .ro, .none, 4⟩,
   ⟨0x8002, 12, 2, .ro, .none, 0⟩, ⟨0x8002, 16, 4, .ro, .none, 0⟩,
   ⟨0x8002, 20, 1, .ro, .none, 0⟩, ⟨0x8002, 21, 1, .ro, .none, 0⟩,
   ⟨0x8002, 24, 8, .ro, .none, 0⟩, ⟨0x8003, 0, 32, .ro, .none, 0x186A0⟩,
   ⟨0x8004, 0, 32, .ro, .none, 0x186A0⟩, ⟨0x8005, 0, 16, .ro, .none, 0⟩,
   ⟨0x8005, 16, 16, .ro, .none, 0⟩, ⟨0x8008, 0, 32, .rws, .none, 0⟩,
   ⟨0x8009, 0, 32, .rws, .none, 0⟩, ⟨0x800A, 0, 32, .rws, .none, 0⟩,
   ⟨0x800B, 0, 32, .rws, .none, 0⟩, ⟨0x800C, 0, 4, .rws, .none, 0⟩,
   ⟨0x800C, 8, 4, .rws, .none, 0⟩, ⟨0x8010, 0, 7, .ro, .none, 0⟩,
   ⟨0x8011, 0, 32, .ro, .none, 0⟩, ⟨0x8012, 0, 32, .ro, .none, 0⟩,
   ⟨0x8013, 0, 32, .ro, .none, 0⟩, ⟨0x8014, 0, 32, .ro, .none, 0⟩,
   ⟨0x8015, 0, 32, .ro, .none, 0⟩, ⟨0x8018, 0, 32, .ro, .none, 0⟩,
   ⟨0x8019, 0, 32, .ro, .none, 0⟩, ⟨0x801A, 0, 32, .ro, .none, 0⟩,
   ⟨0x801B, 0, 32, .ro, .none, 0⟩, ⟨0x801C, 0, 2, .ro, .none, 0⟩,
   ⟨0x8020, 0, 1, .rw, .none, 0⟩, ⟨0x8021, 0, 32, .rws, .none, 0x3000⟩]

def fieldRows8 : List Fld :=
  [⟨0x8022, 0, 32, .rws, .none, 0⟩, ⟨0x8030, 0, 1, .rw, .none, 0⟩,
   ⟨0x8030, 1, 1, .rw, .none, 0⟩, ⟨0x8031, 0, 16, .rw, .none, 0x1EC⟩,
   ⟨0x8032, 0, 16, .rw, .none, 0⟩, ⟨0x8040, 0, 14, .ro, .none, 0⟩,
   ⟨0x8040, 16, 14, .ro, .none, 0⟩, ⟨0x8041, 0, 1, .ro, .none, 0⟩,
   ⟨0x8041, 1, 3, .ro, .none, 0⟩, ⟨0x8041, 4, 3, .ro, .none, 0⟩,
   ⟨0x8042, 0, 14, .rw, .none, 0x3E8⟩, ⟨0x8043, 0, 8, .rw, .none, 0x10⟩,
   ⟨0x9000, 0, 12, .ro, .none, 1⟩, ⟨0x9001, 0, 32, .ro, .keep, 0⟩,
   ⟨0x9002, 0, 4, .ro, .keep, 0⟩, ⟨0x9002, 8, 2, .ro, .keep, 0⟩,
   ⟨0x9002, 16, 3, .ro, .keep, 0⟩, ⟨0x9003, 0, 32, .ro, .keep, 0⟩,
   ⟨0x9004, 0, 12, .ro, .none, 0⟩, ⟨0x9005, 0, 8, .rw, .keep, 0⟩,
   ⟨0x9005, 8, 8, .rw, .keep, 0⟩, ⟨0x9005, 16, 1, .rw, .keep, 1⟩,
   ⟨0x9005, 17, 1, .rw, .keep, 1⟩, ⟨0x9006, 0, 16, .rw, .keep, 0xA⟩,
   ⟨0x9007, 0, 32, .ro, .keep, 0⟩, ⟨0x9008, 0, 32, .ro, .none, 0⟩,
   ⟨0x9009, 0, 16, .ro, .none, 0⟩, ⟨0x900A, 0, 32, .ro, .none, 0⟩,
   ⟨0x900B, 0, 16, .ro, .none, 0⟩, ⟨0x900C, 0, 32, .ro, .keep, 0⟩,
   ⟨0xA000, 0, 16, .ro, .keep, 0x44C⟩, ⟨0xA001, 0, 16, .ro, .keep, 0x640⟩,
   ⟨0xA002, 0, 16, .ro, .keep, 0x78⟩, ⟨0xA003, 0, 1, .rw, .keep, 0⟩,
   ⟨0xA004, 0, 32, .ro, .none, 0⟩, ⟨0xA005, 0, 32, .ro, .none, 0⟩,
   ⟨0xA006, 0, 16, .ro, .none, 0⟩, ⟨0xA007, 0, 8, .ro, .none, 0⟩,
   ⟨0xA008, 0, 32, .ro, .none, 0⟩, ⟨0xA009, 0, 32, .ro, .none, 0⟩,
   ⟨0xA00A, 0, 32, .ro, .none, 0⟩, ⟨0xA00B, 0, 4, .ro, .none, 0⟩,
   ⟨0xA00C, 0, 32, .ro, .none, 0⟩, ⟨0xA00D, 0, 32, .ro, .none, 0⟩,
   ⟨0xA00E, 0, 32, .ro, .none, 0⟩, ⟨0xA020, 0, 4, .ro, .keep, 0xF⟩,
   ⟨0xA021, 0, 4, .ro, .keep, 0⟩, ⟨0xA022, 0, 32, .rw, .keep, 0⟩,
   ⟨0xA023, 0, 11, .ro, .keep, 0⟩, ⟨0xA024, 0, 24, .ro, .none, 0⟩,
   ⟨0xA024, 24, 5, .ro, .none, 0⟩, ⟨0xA025, 0, 32, .ro, .keep, 0⟩,
   ⟨0xA026, 0, 32, .ro, .keep, 0⟩, ⟨0xA027, 0, 1, .ro, .keep, 0⟩,
   ⟨0xA027, 1, 1, .ro, .keep, 0⟩, ⟨0xA027, 2, 1, .ro, .keep, 1⟩,
   ⟨0xA027, 3, 1, .ro, .keep, 0⟩, ⟨0xA027, 4, 1, .ro, .keep, 0⟩,
   ⟨0xA028, 0, 32, .ro, .keep, 0⟩, ⟨0xA029, 0, 32, .ro, .keep, 0⟩]

def fieldRows9 : List Fld :=
  [⟨0xA02A, 0, 11, .rw, .keep, 0xC8⟩, ⟨0xB000, 0, 2, .ro, .none, 0⟩,
   ⟨0xB000, 8, 2, .ro, .none, 0⟩, ⟨0xB001, 0, 32, .ro, .keep, 0⟩,
   ⟨0xB002, 0, 1, .ro, .keep, 0⟩, ⟨0xB002, 1, 1, .ro, .keep, 0⟩,
   ⟨0xB002, 4, 4, .ro, .keep, 0⟩, ⟨0xB003, 0, 32, .ro, .none, 0⟩,
   ⟨0xB004, 0, 32, .ro, .none, 0⟩, ⟨0xB005, 0, 32, .ro, .none, 0⟩,
   ⟨0xB006, 0, 32, .ro, .none, 0⟩, ⟨0xB007, 0, 32, .ro, .none, 0⟩,
   ⟨0xB008, 0, 32, .ro, .none, 0⟩, ⟨0xF000, 1, 9, .ro, .none, 0⟩,
   ⟨0xF001, 0, 12, .rw, .none, 0x258⟩, ⟨0xF002, 0, 6, .ro, .none, 0⟩,
   ⟨0xF002, 8, 1, .ro, .none, 0⟩, ⟨0xF011, 0, 32, .ro, .none, 0⟩,
   ⟨0xF012, 0, 32, .ro, .none, 0⟩, ⟨0xF013, 0, 32, .ro, .none, 0⟩,
   ⟨0xF014, 0, 32, .ro, .none, 0⟩, ⟨0xF015, 0, 32, .ro, .none, 0⟩,
   ⟨0xF016, 0, 32, .ro, .none, 0⟩, ⟨0xF017, 0, 32, .ro, .none, 0⟩,
   ⟨0xF018, 0, 32, .ro, .none, 0⟩, ⟨0xF019, 0, 32, .ro, .none, 0⟩,
   ⟨0xF021, 0, 8, .ro, .none, 0⟩, ⟨0xF022, 0, 8, .ro, .none, 0⟩,
   ⟨0xF023, 0, 8, .ro, .none, 0⟩, ⟨0xF024, 0, 8, .ro, .none, 0⟩,
   ⟨0xF025, 0, 8, .ro, .none, 0⟩, ⟨0xF026, 0, 8, .ro, .none, 0⟩,
   ⟨0xF027, 0, 8, .ro, .none, 0⟩, ⟨0xF028, 0, 8, .ro, .none, 0⟩,
   ⟨0xF029, 0, 8, .ro, .none, 0⟩, ⟨0xF031, 0, 32, .ro, .none, 0⟩,
   ⟨0xF032, 0, 32, .ro, .none, 0⟩, ⟨0xF033, 0, 32, .ro, .none, 0⟩,
   ⟨0xF034, 0, 32, .ro, .none, 0⟩, ⟨0xF035, 0, 32, .ro, .none, 0⟩,
   ⟨0xF036, 0, 32, .ro, .none, 0⟩, ⟨0xF037, 0, 32, .ro, .none, 0⟩,
   ⟨0xF038, 0, 32, .ro, .none, 0⟩, ⟨0xF039, 0, 32, .ro, .none, 0⟩]

/-- Every field of the parameter maps, objects at object 0 of their block. -/
def fieldTable : List Fld :=
  fieldRows1 ++ fieldRows2 ++ fieldRows3 ++ fieldRows4 ++ fieldRows5 ++ fieldRows6 ++ fieldRows7 ++ fieldRows8 ++ fieldRows9

/-- The fields of a PID; none: the PID is unassigned (00 R11). -/
def fieldsOf (pid : Nat) : List Fld := fieldTable.filter (fun f => f.pid == (canonPid pid).1)

/-- The value after POR of a place in the store. CL.SYSTEM_ID takes the serial number of the OTP (09 R283), which
the part fixes. -/
def porValue (k : Nat) : Nat :=
  if k = P.clSystemId then
    (Config.otpByte 0).toNat + 256 * (Config.otpByte 1).toNat + 65536 * (Config.otpByte 2).toNat
  else (fieldTable.find? (fun f => f.pid == (canonPid (k / 32)).1 && f.lo == k % 32)).elim 0 Fld.por

/-- The width of a field by its place in the store. -/
def fieldWidth (k : Nat) : Nat := (fieldTable.find? (fun f => f.pid == (canonPid (k / 32)).1 && f.lo == k % 32)).elim 32 Fld.w

end Sys2Proof.Machine
end

