-- ==== Sys2Proof/Machine/State.lean ====
section
/-! DEFINITION. The state of the FGN-6416: everything the spec gives the machine, as plain data, and the machine
right after reset. -/

namespace Sys2Proof.Machine

/-- Why the machine stops with a fault. -/
inductive Fault where
  /-- An access to an address that does not exist. No command raises it: the commands check their addresses
  first (11 R337, 13 R379). Safe. -/
  | noSuchAddress (address : Nat)
  deriving DecidableEq, Repr

/-- Why the machine refuses a command. -/
inductive Refusal where
  /-- Raised by exec for a command that has no meaning yet. Safe. -/
  | notModelled (mnemonic : String)
  deriving DecidableEq, Repr

/-- The status codes (02 R57). -/
inductive Status where
  | ok | accepted | busyTags | refusedCapacity | badCrc | badOpcode | badParam | badState | timeout
  | needsCosign | cosignRejected | dupTag | planForbidden | synthNotLocked | aborted | hwFault | dropped
  deriving DecidableEq, Repr

/-- The reset kinds and power states a value may be kept through (00 R16). -/
inductive Life where
  | por | bor | pin | soft | wdog | quiet | scan | listen | hibernate
  deriving DecidableEq, Repr

/-! ### Host interface (02) -/

/-- A reply held in SEQ until it fits (02 R43): its bytes, and the tag it frees when it enters the FIFO. -/
structure Held where
  bytes : List Byte
  frees : Option Nat
  deriving DecidableEq, Repr

/-- One mailbox channel (02 R35, R40, R42, R43, R49). -/
structure Channel where
  /-- Bytes of the packet in assembly. -/
  asm : List Byte
  discard : Bool
  /-- Replies in the reply FIFO, oldest first, each with the bytes not yet read. -/
  replies : List (List Byte)
  /-- Whether the oldest reply has been partly read. -/
  partly : Bool
  held : List Held
  /-- TAG_MAP. -/
  tags : BitVec 16
  intDiscard : Bool
  intUnderrun : Bool
  deriving DecidableEq, Repr

/-- A packet with a correct CRC that has not started yet (02 R51): its size in the FIFO, its command when its
layout fits, and its parameters. -/
structure Arrived where
  hdr : Hdr
  op : Nat
  params : List Byte
  cmd : Option Instr
  size : Nat
  deriving DecidableEq, Repr

/-- What a started command waits for. -/
inductive Wait where
  /-- The next period boundary. -/
  | boundary
  /-- The lock instant of a synthesiser, before the start reply (04 R107). -/
  | lock (id : Nat)
  /-- TX quadrature calibration (08 R227, R229). -/
  | qcal
  /-- RF_CALIBRATE: synthesisers and image work still to end (04 R112, 05 R139). -/
  | calibrate
  /-- The tone measurement of a link (05 R135). -/
  | privCal (link : Nat)
  /-- The start boundary m (08 R243). -/
  | txStart
  /-- The first beacon (09 R278). -/
  | clStart
  /-- The boundary of a command-link hop (09 R276). -/
  | clHop
  /-- Every fragment reported held (09 R273). -/
  | sessionSend (session : Nat)
  /-- Ramp-down of the carriers of a mask (08 R234, R245). -/
  | rampDown (mask : Nat)
  /-- The ports of a mask to stop (11 R322). -/
  | portStop (mask : Nat)
  /-- The sequence of a local analog object (12 R342). -/
  | analogSeq (target : Nat)
  /-- A conversion result (13 R376). -/
  | conversion (converter : Nat)
  /-- A power-state entry (15 R411). -/
  | powerEntry
  /-- A margin plan (17 R455, R460). -/
  | plan
  /-- The wake of a domain (15 R409); nothing has been done. -/
  | domainWake (domain : Nat)
  /-- Held by REPLY_DELAY after its work, before it completes (18 R469). -/
  | replyDelay
  /-- Held by REPLY_DELAY from its start, before it does any work (18 R469). -/
  | delayStart
  deriving DecidableEq, Repr

/-- A command started and not completed (02 R51 to R53). -/
structure Running where
  hdr : Hdr
  op : Nat
  cmd : Instr
  /-- 1 A, 2 B, 3 C. -/
  cls : Nat
  wait : Wait
  /-- The start reply ACCEPTED has been sent. -/
  accepted : Bool
  /-- Digest bytes 0 to 3 of the proposal it consumed (16 R434). -/
  cosigned : Option Nat
  /-- A value the command keeps to its completion: a period, an edge, an old value. -/
  aux : Nat
  deriving DecidableEq, Repr

/-- One event record (02 R62) and the mode its block had when it was queued (02 R63). -/
structure EvRec where
  code : Nat
  arg : Nat
  detail : Nat
  time : BitVec 64
  mode : Nat
  deriving DecidableEq, Repr

/-- The event queue (02 R62, R63). -/
structure Events where
  queue : List EvRec
  lost : Nat
  /-- Modes per block, unlisted 2. -/
  modes : SMap Nat
  /-- Timebase of the last event of a rate-limited kind, and its occurrences within its span, newest first, each with a
  number, by key. -/
  limits : SMap (Nat × List (Nat × Nat))
  deriving DecidableEq, Repr

/-- The front-window registers held in AON (02 R40). -/
structure Front where
  bootMode : Nat
  otpValid : Bool
  romFail : Bool
  resetCause : Nat
  readyRise : Bool
  wake : Bool
  eventsLost : Bool
  intMask : BitVec 32
  alertNormal : Bool
  alertBrown : Bool
  alertDeadline : Bool
  alertCosign : Bool
  alertMask : Byte
  tbLatch : BitVec 64
  addrPins : Nat
  groupEn : Bool
  groupAddr : Nat
  groupMask : Nat
  wakeReason : Nat
  scratch : BitVec 32
  /-- The bytes driven in the last SPI transaction (02 R36). -/
  spiOut : List Byte
  deriving DecidableEq, Repr

/-- The sequencer (02 R38, R55, R59, R526). -/
structure Seq where
  running : Bool
  waking : Bool
  /-- SEQ restarting after a watchdog expiry. -/
  restarting : Bool
  /-- Timebase of the watchdog expiries of the last 10 s. -/
  expiries : List Nat
  /-- A SOFT reset is pending: channel and tag of the RESET whose reply is awaited (02 R59). -/
  softReset : Option (Chan × Nat)
  /-- Bytes left of the RESET reply before the reset takes place. -/
  softBytes : Nat
  /-- Events to be queued once SEQ runs: code, argument, detail. -/
  atRun : List (Nat × Nat × Nat)
  deriving DecidableEq, Repr

/-- The time alarm (02 R60). -/
structure Alarm where
  time : Nat
  action : Nat
  deriving DecidableEq, Repr

/-! ### Reckoner (03) -/

/-- A cost on one resource: resource, index, amount (03 R69). -/
structure Use where
  res : Nat
  idx : Nat
  amount : Nat
  deriving DecidableEq, Repr

/-- The cost of one work item: its rod and cycles, and its other resources (03 R72). -/
structure Cost where
  rod : Option Nat
  cycles : Nat
  uses : List Use
  deriving DecidableEq, Repr

/-- A cost and the price at which it was admitted: `lifetime` under RCK.ADMIT_POLICY 1 (03 R78). -/
structure Price where
  cost : Cost
  lifetime : Bool
  deriving DecidableEq, Repr

/-- A reservation that a running command holds on an item (03 R75): the number that names the command, the inputs that it adds
to a bus, and the price that the item is to take. -/
structure Reserve where
  key : Nat
  inputs : Nat
  price : Price
  deriving DecidableEq, Repr

/-- One item of the ledger (03 R74 to R76): the price in force and the price admitted for the next boundary, the inputs that a
bus's admitted price pays for, and the reservations that running commands hold on it. -/
structure Charge where
  work : WorkRef
  old : Price
  new : Price
  inputs : Nat
  waits : List Reserve
  deriving DecidableEq, Repr

/-- The Reckoner: ledger, domains that restart (03 R84), domains whose watchdog expired, resources reported above their
limit and above their budget. -/
structure Reckoner where
  charges : List Charge
  restarts : List Nat
  wdog : List Nat
  overLimit : List (Nat × Nat)
  overBudget : List (Nat × Nat)
  /-- Items already counted missed for the coming boundary. -/
  missed : List WorkRef
  /-- Items whose miss in the gap of the main PLL has been counted (04 R98). -/
  gapped : List WorkRef
  /-- Items whose output a stage timeout replaced, each with the boundary at which that output is due (03 R87). -/
  stalled : List (Nat × Late)
  /-- Periods that the outputs of a domain still fade in after its restart, by domain (03 R84). -/
  fading : SMap Nat
  /-- Timebase at which the watchdog count of a domain began afresh, by domain (03 R84, R88). -/
  servedAt : SMap Nat
  deriving DecidableEq, Repr

/-! ### Clocks (04) -/

/-- What a clock output carries (04 R119 to R122): nothing, with the domain CKG off; the static level of R120; the main VCO
divided by `d`; the crystal. -/
inductive ClkDrive where
  | hiZ | static | vco (d : Nat) | crystal
  deriving DecidableEq, Repr

/-- The lock sequence of a radio synthesiser (04 R106). -/
inductive SynthPhase where
  | off | searching | retrying | locked | calibrating
  deriving DecidableEq, Repr

/-- One radio synthesiser (04 R104 to R112). -/
structure Synth where
  phase : SynthPhase
  /-- Wanted LO frequency, Hz; 0 none. -/
  freq : Nat
  divider : Nat
  int : Nat
  frac : Nat
  band : Nat
  /-- A full calibration is due at the next lock request. -/
  calDue : Bool
  /-- Part of a running RF_CALIBRATE. -/
  inCal : Bool
  /-- `calDue` before the RF_CALIBRATE that runs (04 R112). -/
  calWas : Bool
  /-- A temperature-triggered trim runs in lock, or will from the lock instant (04 R112). -/
  trim : Bool
  /-- Timebase value at which its output divider and accumulator started, once the device has been synchronised (04 R116). -/
  acc : Option Nat
  deriving DecidableEq, Repr

/-- Crystals, main PLL, reference, synthesisers (04). -/
structure Clocks where
  xtalQual : Bool
  xtalMeant : Bool
  /-- Held in the reset of a crystal failure (04 R94). -/
  xtalHeld : Bool
  pllLocked : Bool
  /-- The timebase is frozen and to be bridged (04 R97). -/
  bridging : Bool
  lfCrystal : Bool
  refState : Nat
  /-- Correction applied to the main VCO, in units of 0.0005 ppm: the slew limit of 04 R100 is five of them in a period. -/
  refCorr : Int
  /-- `CLKOUT0`, `CLKOUT1`, `CLKOUT2`, `MCLK0`, `MCLK1`. -/
  outs : List ClkDrive
  /-- Outputs that pass through the static state of a change of divider or source (04 R120). -/
  outWait : List Nat
  /-- `SYNC_OUT` between its edges, and its last rising edge in main VCO cycles of the timebase (04 R115 to R118). -/
  syncOut : ClkDrive
  syncEdge : Option Int
  /-- The timebase value at which the sample-clock, audio and instrument dividers were at phase zero, and whether a
  synchronisation has been made (04 R116). -/
  divPhase : Nat
  synced : Bool
  rx : Synth
  tx : Synth
  cmd : Synth
  /-- A temperature-triggered calibration is deferred by brown hold (19 R484). -/
  calDeferred : Bool
  /-- Die temperature when `CLK.CAL_TEMP` last took its value; none before the first reading (04 R111). -/
  calRef : Option Int
  /-- Last die temperature, 0.1 degree Celsius. -/
  dieTemp : Int
  deriving DecidableEq, Repr

/-! ### Receive front end (05) -/

/-- One aerial chain (05 R125 to R128). -/
structure Chain where
  gain : Int
  fixed : Bool
  /-- Consecutive quiet periods without a step (05 R126). -/
  quiet : Nat
  /-- Step that takes effect at the next boundary. -/
  step : Int
  irr : Nat
  irrAlarmed : Bool
  /-- Boundaries in a row, outside fast mode, with an estimate below 55 dB (05 R134). -/
  below : Nat
  /-- The eight complex taps of the background filter (05 R133). -/
  taps : List (Int × Int)
  deriving DecidableEq, Repr

/-- One `PRIV_CAL` record (05 R140). -/
structure PrivRec where
  link : Option Nat
  valid : Bool
  stale : Bool
  temp : Int
  freq : Nat
  aRe : Int
  aIm : Int
  bRe : Int
  bIm : Int
  /-- A measurement is in progress or due. -/
  measuring : Bool
  deriving DecidableEq, Repr

/-- The measurements of a scan in one bin (05 R146): greatest peak, sum and count of means. -/
structure BinMeas where
  peak : Nat
  sum : Nat
  count : Nat
  deriving DecidableEq, Repr

/-- A scan in progress (05 R144 to R146, 04 R113). -/
structure Scan where
  start : Nat
  stop : Nat
  step : Nat
  passes : Nat
  done : Nat
  /-- F of the present dwell. -/
  f : Nat
  /-- The RX LO was free at the start of the present dwell (04 R114). -/
  loFree : Bool
  /-- Timebase at which the present dwell, or the present linear sweep, began (04 R113). -/
  began : Nat
  /-- Steps of travel that the lanes of the present linear sweep have measured (05 R145). -/
  seen : List Nat
  pass : SMap BinMeas
  total : SMap BinMeas
  deriving DecidableEq, Repr

/-- One `SPECTRUM_PLAN` entry (05 R147). -/
structure PlanBin where
  peak : Nat
  mean : Nat
  /-- Powered periods, as `Rf.ageTicks` counts them, at the scanner's last write; none: never measured. -/
  written : Option Nat
  deriving DecidableEq, Repr

/-- The receive front end and the spectrum plan (05). -/
structure Rf where
  a : Chain
  b : Chain
  /-- 0 idle, 1 fast, 2 normal (05 R133). -/
  imageCal : Nat
  /-- Timebase at which fast mode may end (05 R133). -/
  fastUntil : Nat
  priv : List PrivRec
  /-- Timebase at which the present tone of privileged calibration began (05 R135). -/
  toneAt : Option Nat
  scan : Option Scan
  /-- Measurement fields of the plan, unlisted 0, 0, 255. -/
  bins : SMap PlanBin
  /-- Permission bits in force, unlisted 0. -/
  perm : SMap Nat
  permPending : Option (SMap Nat)
  /-- Powered periods, from which AGE is counted (05 R147). -/
  ageTicks : Nat
  /-- RX window edge to return to when a scan ends. -/
  scanReturn : Bool
  /-- `ALT_FREQ` in force, its pending copy, and the entries waiting for the boundary. -/
  alt : SMap Nat
  altPending : Option (SMap Nat)
  altNext : Option (SMap Nat)
  deriving DecidableEq, Repr

/-! ### Links (06, 07) -/

/-- Tracker states (07 R198). -/
inductive TrkPhase where
  | idle | search | pre | verify | active | watch
  deriving DecidableEq, Repr

/-- One acquisition tracker (07 R192, R198). -/
structure Tracker where
  phase : TrkPhase
  /-- Start of the candidate: the first symbol of its detection, ticks. -/
  cand : Nat
  /-- Start of its sync word, or of the one that is expected next, ticks. -/
  start : Nat
  /-- A frame at the tracked symbol rate, ticks (07 R199). -/
  len : Nat
  /-- Frequency offset, Hz. -/
  df : Rat
  /-- Timing of the loop, symbols. -/
  tau : Rat
  /-- Power of the candidate or of the last decoded frame, 10^-21 W. -/
  level : Nat
  /-- Acquisition step sizes apply. -/
  training : Bool
  deriving DecidableEq, Repr

/-- One tap set of the equaliser, 12 fractional bits, and its last decisions, newest first (07 R209). -/
structure Taps where
  w : List Int
  b : List Int
  d : List Int
  deriving DecidableEq, Repr

/-- A frame that passed its CRC: its tracker, the timing and the loops after it, levels, aerial, tap sets, E_k and fields
(07 R198, R210, R214). -/
structure Verdict where
  trk : Nat
  start : Nat
  df : Rat
  tau : Rat
  powerA : Nat
  powerB : Nat
  aerial : Nat
  tapsA : Taps
  tapsB : Taps
  err : Rat
  airId : Nat
  fc : Nat
  md : Nat
  audio : List Bool
  deriving DecidableEq, Repr

/-- What is due at a boundary (07 R193, R212 to R214): the samples, none when they are concealed, and E_k of a frame; whether a
decoded frame holds the slot, and whether a later one of the same slot was dropped. -/
structure DueFrame where
  x : Option (List Int)
  err : Rat
  decoded : Bool
  dropped : Bool
  deriving DecidableEq, Repr

/-- An intrusion bar (07 R204): timing within the period in ticks, offset, and its last period. -/
structure Bar where
  phase : Nat
  df : Int
  untilPeriod : Nat
  deriving DecidableEq, Repr

/-- A hop or retune of a link that is pending (07 R221, R222) or under way (07 R223, R224). -/
structure Hop where
  target : Nat
  period : Nat
  /-- Times announced (09 R261). -/
  sent : Nat
  /-- It was scheduled while the command link ran, for a session: its announcement is pending (09 R275). -/
  announce : Bool
  /-- Under way: the old frequency, the periods concealed so far. -/
  old : Nat
  concealed : Nat
  deriving DecidableEq, Repr

/-- A concealment run (07 R215). -/
structure Conceal where
  lag : Nat
  k : Nat
  frozen : List Int
  deriving DecidableEq, Repr

/-- A message in assembly on a message channel (06 R187). -/
structure MsgAsm where
  next : Nat
  bytes : List Byte
  deriving DecidableEq, Repr

/-- One link (07). -/
structure Link where
  isOpen : Bool
  /-- Admission begins at the next boundary (03 R76). -/
  starting : Bool
  freq : Nat
  cls : Nat
  range : Bool
  session : Option Nat
  air : Nat
  t0 : Tracker
  t1 : Tracker
  losses : Nat
  lastOk : Bool
  aerial : Nat
  tapsA : Taps
  tapsB : Taps
  mean : Option Rat
  rssiA : Option Rat
  rssiB : Option Rat
  fOff : Int
  tOff : Int
  /-- The run-ahead buffers, of each aerial: 1.5 frames (07 R192, R211), as the discriminator samples that 720 lane samples give. -/
  bufA : List Int
  bufB : List Int
  bars : List Bar
  /-- Superblock bytes received in order, and the frame counter expected next. -/
  sb : List Byte
  sbNext : Nat
  sbBad : Bool
  /-- Last superblock accepted since LINK_OPEN. -/
  sbLast : Option (List Byte)
  msg : Option MsgAsm
  hop : Option Hop
  hopping : Option Hop
  /-- Consecutive boundaries with LQ below threshold. -/
  low : Nat
  /-- Period of the last hop boundary or attempt. -/
  lastHop : Option Nat
  /-- The alternates are being measured over this period. -/
  measuring : Bool
  /-- Frames and declared losses by the boundary at which they are due. -/
  due : SMap DueFrame
  /-- Due periods in a row with no outcome. -/
  silent : Nat
  hist : List Int
  conceal : Option Conceal
  out : List Int
  /-- The lanes are on the privileged path (05 R135, R137). -/
  onPriv : Bool
  /-- The path that the lanes take from the next boundary, when it changes (05 R136, R137). -/
  privNext : Option Bool
  /-- The NCO word of the two lanes, and that of their mirror paths (05 R135, R141). -/
  nco : BitVec 32
  mirror : Option (BitVec 32)
  /-- A frame that passed its CRC while the other tracker verifies a frame of the same period (07 R200). -/
  tie : Option Verdict
  deriving DecidableEq, Repr

/-! ### Downlink (08) -/

/-- The transmit state of a carrier (08 R251). -/
inductive TxPhase where
  | closed | opened | starting | on | stopping | held
  deriving DecidableEq, Repr

/-- What a carrier radiates over one symbol: nothing, an unmodulated ramp, or a symbol value (06 R172, 08 R236, R244). -/
inductive AirSym where
  | off
  | ramp
  | sym (a : Int)
  deriving DecidableEq, Repr

/-- A message being sent by a carrier (08 R233). -/
structure TxMsg where
  bytes : List Byte
  /-- Fragments sent; `none` until the next superblock start. -/
  sent : Nat
  begun : Bool
  deriving DecidableEq, Repr

/-- One carrier (08). -/
structure Carrier where
  phase : TxPhase
  starting : Bool
  freq : Nat
  cls : Nat
  step : Nat
  stepNext : Option Nat
  session : Option Nat
  encrypt : Bool
  /-- Start boundary m or resumption boundary. -/
  m : Nat
  /-- TX_STOPPED detail of the stop under way. -/
  stopCause : Nat
  retune : Option Hop
  /-- Retune under way at this period. -/
  retuning : Bool
  prevL : Int
  prevR : Int
  /-- Superblock in force. -/
  sb : List Byte
  msg : Option TxMsg
  /-- Data bits of the frame of the present period; `invalid`: a deadline miss has cleared its VALID flags. -/
  frame : List Bool
  invalid : Bool
  /-- The 240 symbols of the present period, as the carrier radiates them. -/
  air : List AirSym
  deriving DecidableEq, Repr

/-- One `TX_POWER_STEPS` table: trims and the ceiling entry (08 R238). -/
structure Steps where
  trim : SMap Int
  /-- Steps whose CEILING bit is set. -/
  ceilings : List Nat
  deriving DecidableEq, Repr

/-- Downlink transmission (08). -/
structure Tx where
  /-- `PA_EN` and `PA_MUTE_N` driven high. -/
  paEn : Bool
  paMute : Bool
  /-- Instants at which a start sequence raises them (08 R244). -/
  enAt : Option Nat
  muteAt : Option Nat
  /-- PA_EN is to fall after TX.PA_OFF_DELAY, which began at `offSince`. -/
  offDelay : Bool
  offSince : Nat
  qcal : Bool
  /-- TX_CAL_STALE is not to be queued: it has been since the last quadrature calibration, or none has been made. -/
  staleSent : Bool
  steps : Steps
  stepsPending : Option Steps
  stepsNext : Option Steps
  deriving DecidableEq, Repr

/-! ### Command link (09) -/

/-- States of the command link (09 R283). -/
inductive ClPhase where
  | stopped | starting | running | held | muted
  deriving DecidableEq, Repr

/-- The command link (09). -/
structure Cl where
  phase : ClPhase
  freq : Nat
  power : Int
  /-- The first beacon boundary of a start, then the boundary of the present superframe. -/
  b : Nat
  hop : Option Hop
  /-- Valid replies of this superframe, by slot. -/
  acks : Nat
  /-- Acknowledgement bitmap to be sent. -/
  prevAcks : Nat
  /-- The slots of this superframe are received. -/
  listening : Bool
  abandonedLast : Bool
  beacon : List Byte
  /-- Sessions served last by rule 5 of 09 R261, and by its rules 3 and 4. -/
  served : Nat
  servedOther : Nat
  txen : Bool
  rxen : Bool
  coexReq : Bool
  coexPri : Bool
  /-- A beacon is being sent. -/
  beaconing : Bool
  /-- The packet of the beacon as it is sent, ramps apart (09 R254). -/
  air : List Bool
  /-- The beacon slot is under way: `CMDRF_RXEN` rises at its end (09 R255). -/
  turning : Bool
  deriving DecidableEq, Repr

/-- A key change (09 R272). -/
structure KeyChange where
  n : Nat
  confirmed : Bool
  /-- The beltpack has shown the old epoch; the device returns to it at the next boundary. -/
  returning : Bool
  half : Nat
  /-- Switched to the new epoch and not completed. -/
  switched : Bool
  deriving DecidableEq, Repr

/-- A message to a beltpack (09 R273). -/
structure OutMsg where
  bytes : List Byte
  toggle : Bool
  next : Nat
  deriving DecidableEq, Repr

/-- A message from a beltpack in assembly (09 R274). -/
structure InMsg where
  toggle : Bool
  next : Nat
  length : Nat
  bytes : List Byte
  deriving DecidableEq, Repr

/-- Session states (09 R265). -/
inductive SesPhase where
  | free | added | assigned | joined | lost | removing
  deriving DecidableEq, Repr

/-- One session (09 R265). -/
structure Session where
  phase : SesPhase
  flags : Nat
  txId : Nat
  epoch : Nat
  key : List Byte
  pendKey : List Byte
  change : Option KeyChange
  level : Int
  heard : Nat
  battery : Nat
  status : Nat
  beaconLevel : Int
  missed : Nat
  msgLen : Nat
  msg : List Byte
  /-- Nonce to be echoed in ASSIGN while it waits. -/
  assign : Option Nat
  remove : Bool
  /-- Timebase of SESSION_REMOVE. -/
  removeAt : Nat
  out : Option OutMsg
  toggle : Bool
  inn : Option InMsg
  lastIn : Option Bool
  deriving DecidableEq, Repr

/-! ### Abacus (10) -/

/-- Rod states (10 R299). -/
inductive RodPhase where
  | free | loaded | running | link | carrier | bus
  deriving DecidableEq, Repr

/-- One rod (10 R285). -/
structure Rod where
  phase : RodPhase
  /-- The state to which a rod returns whose reservation is dropped before its program is lost (02 R53, 10 R300). -/
  was : RodPhase
  prog : SMap Nat
  data : SMap Int
  bank0 : SMap Int
  bank1 : SMap Int
  active : Nat
  ap : List Int
  ba : List Int
  md : List Int
  ml : List Int
  acc : List Int
  cls : Nat
  cycles : Nat
  /-- First run at the next boundary. -/
  starting : Bool
  /-- ABC came back within the present period: no run of this period (10 R307). -/
  resting : Bool
  swap : Option Nat
  /-- Last output blocks that a run completed, OUT0 to OUT3. -/
  last : List (List Int)
  /-- Output blocks of the present period. -/
  out : List (List Int)
  aborted : Nat
  deriving DecidableEq, Repr

/-! ### Audio (11) -/

/-- Port states (11 R339). -/
inductive PortPhase where
  | unconfigured | stopped | armed | running | lost | reacquiring | rateMuted
  deriving DecidableEq, Repr

/-- A port's configuration (11 R311). -/
structure PortCfg where
  format : Nat
  rate : Nat
  slots : Nat
  role : Nat
  slotBits : Nat
  inMask : Nat
  outMask : Nat
  drive : Nat
  deriving DecidableEq, Repr

/-- One port (11). -/
structure Port where
  phase : PortPhase
  cfg : PortCfg
  /-- Masks and masked drive that take effect at the boundary (11 R327). -/
  next : Option PortCfg
  /-- Start mode and start instant while ARMED. -/
  start : Nat
  startAt : Option Nat
  stopping : Bool
  /-- Cause of the stop: 1 PORT_STOP, 2 power state. -/
  stopCause : Nat
  /-- Measured frame rate, mHz. -/
  rate : Nat
  ratio : Int
  onGrid : Bool
  acquired : Bool
  /-- Consecutive measurements in another class. -/
  differs : Nat
  /-- Where the port's own fade of two periods stands: 0 silent, 2 full (11 R322 to R326). -/
  fade : Nat
  /-- The samples that its output slots carry in the present period. -/
  outBlocks : SMap (List Int)
  /-- Periods that a slot newly carried still fades in (11 R327). -/
  newSlots : SMap Nat
  loopback : Bool
  /-- Timebase at which its stop began (11 R322). -/
  stopAt : Nat
  /-- Consecutive measurements whose frame starts lay within 1 µs of the grid (11 R316). -/
  gridRun : Nat
  /-- A slip of the present period; true: the port is faster than the core (11 R318). -/
  slip : Option Bool
  /-- A glitch has spoilt an input frame of the present period (11 R325). -/
  spoilt : Bool
  deriving DecidableEq, Repr

/-- A gain ramp (11 R334, R335): gains are linear amplitudes. -/
structure Ramp where
  cur : Rat
  target : Rat
  /-- 0 idle, 1 waiting for a crossing, 2 ramping. -/
  phase : Nat
  g0 : Rat
  /-- Ramp samples applied before the present period. -/
  m : Nat
  /-- Sample of the present period at which the ramp begins or goes on. -/
  beginAt : Nat
  /-- Timebase at which the search began. -/
  since : Nat
  /-- A target that takes effect at the next boundary. -/
  next : Option Rat
  /-- While it waits for a crossing, the last sample of its channel before the present period, from the second period on. -/
  edge : Option Int
  deriving DecidableEq, Repr

/-- One route (11 R330 to R332). -/
structure Route where
  src : Nat
  dst : Nat
  gain : Int
  inUse : Bool
  active : Bool
  fading : Bool
  ramp : Ramp
  /-- The fade has ended; the route is removed at the next boundary. -/
  ended : Bool
  /-- The samples delivered in the present period. -/
  out : List Int
  deriving DecidableEq, Repr

/-- A staged `ROUTE` entry (11 R332). -/
structure RouteEntry where
  src : Nat
  dst : Nat
  gain : Int
  inUse : Bool
  deriving DecidableEq, Repr

/-- One bus (11 R333). -/
structure Bus where
  cls : Nat
  gain : Int
  ramp : Ramp
  deriving DecidableEq, Repr

/-- One tap (11 R337). -/
structure Tap where
  route : Nat
  packing : Nat
  start : Nat
  length : Nat
  wr : Nat
  deriving DecidableEq, Repr

/-- Ports, router, buses and taps (11). -/
structure Audio where
  ports : SMap Port
  routes : SMap Route
  routesPending : Option (SMap RouteEntry)
  buses : SMap Bus
  taps : SMap Tap
  /-- Past blocks of each source, newest first (11 R328). -/
  past : SMap (List (List Int))
  /-- Samples that reach each destination in the present period. -/
  dest : SMap (List Int)
  deriving DecidableEq, Repr

/-! ### Local analog audio (12) -/

/-- The phase of a local analog object (12): 0 off, 1 starting, 2 running, 3 stopping, 4 FAULT. -/
structure AnaObj where
  phase : Nat
  /-- What the sequence in progress runs to: true running, false off. -/
  up : Bool
  /-- Timebase at which the sequence began or turned round. -/
  since : Nat
  /-- How far it had come there: of an output, in ticks of its start table; of a bias output, its level in mV (12 R347, R351, R354). -/
  pos : Nat
  /-- The level that a bias output runs to, mV. -/
  goal : Nat
  /-- Timebase at which the sequence ends. -/
  endAt : Nat
  limit : Bool
  ramp : Ramp
  deriving DecidableEq, Repr

/-- Local analog audio: inputs 0 to 3, bias outputs 4 and 5, headphone outputs 6 and 7, speaker 8 (12 R341). -/
structure Analog where
  objs : SMap AnaObj
  jack1 : Bool
  jack2 : Bool
  /-- Timebase of the speaker faults of the last second (12 R356). -/
  spkFaults : List Nat
  spkRestart : Bool
  /-- Timebase before which the speaker does not restart (12 R356). -/
  spkDue : Nat
  /-- Timebase of the last debounced change of each jack, or of the start of ANA (12 R357, R359). -/
  jack1At : Nat
  jack2At : Nat
  /-- The samples of the local outputs in the present period: 0 to 3 `HP1L` to `HP2R`, 4 the speaker (12 R350, R353). -/
  outs : SMap (List Int)
  /-- Timebase at which the speaker's peak limiter last had to act (12 R353). -/
  limitAt : Option Nat
  deriving DecidableEq, Repr

/-! ### Instrumentation (13) -/

/-- A conversion in progress (13 R375). -/
structure Conv where
  channel : Nat
  start : Nat
  urgent : Bool
  /-- Modulator cycles of its notch and sinc filters, and its decimation, as set when it began (13 R369, R377). -/
  cycles : Nat
  d : Nat
  /-- Timebase at which its result is produced. -/
  due : Nat
  deriving DecidableEq, Repr

/-- One fine converter (13). -/
structure Fine where
  channel : Nat
  order : Nat
  notch : Nat
  trigger : Nat
  delay : Nat
  d : Nat
  tag : Nat
  seqAt : Nat
  conv : Option Conv
  /-- Its results go to the stream; joining or leaving at the next boundary. -/
  streaming : Bool
  joining : Bool
  deriving DecidableEq, Repr

/-- One `MEAS_QUEUE` record (13 R378). -/
structure MeasRec where
  converter : Nat
  channel : Nat
  tag : Nat
  overrange : Bool
  result : Int
  time : Nat
  deriving DecidableEq, Repr

/-- One control DAC (13 R381 to R384). -/
structure Cdac where
  target : Nat
  out : Nat
  /-- Slew accumulator, thousandths of a code. -/
  acc : Nat
  range : Nat
  newRange : Nat
  /-- 0 idle, 1 slewing, 2, 3, 4 range phases. -/
  phase : Nat
  pending : Option (Nat × Nat)
  /-- Timebase since which limiter and range sequence are idle. -/
  idleSince : Nat
  /-- Start of the last movement, and the output and idle time before it (13 R385). -/
  movedAt : Nat
  prevOut : Nat
  prevIdle : Nat
  /-- Timebase at which its range phase began (13 R383). -/
  phaseAt : Nat
  deriving DecidableEq, Repr

/-- One PWM output: period and duty in force, and the timebase at which a PWM period with them began (13 R386). -/
structure Pwm where
  period : Nat
  duty : Nat
  since : Nat
  deriving DecidableEq, Repr

/-- A converter stream (13 R379). -/
structure Stream where
  start : Nat
  length : Nat
  wr : Nat
  deriving DecidableEq, Repr

/-- The instrumentation (13). -/
structure Inst where
  fa : Fine
  fb : Fine
  refReady : Bool
  /-- Timebase at which the reference buffer was turned on (13 R368), and of the last limiter step (13 R382). -/
  refAt : Nat
  slewAt : Nat
  queue : List MeasRec
  stream : Option Stream
  cdac : SMap Cdac
  pwm : SMap Pwm
  deriving DecidableEq, Repr

/-! ### Two-wire port (14) -/

/-- What is left of a transfer in which the device stretches SCL until SEQ runs (14 R396, R398): the whole of a write, its pointer byte
first, or of a read, whose address has matched; data bytes to be written; bytes to be read, with the number of those read and the one at
which SDA will differ. -/
inductive TwRest where
  | write (data : List Byte)
  | read (n : Nat) (mismatch : Option Nat)
  | put (data : List Byte)
  | get (left read : Nat) (mismatch : Option Nat)
  deriving DecidableEq, Repr

/-- The two-wire management port (14). -/
structure Tw where
  opPtr : Nat
  cuPtr : Nat
  answered : Bool
  /-- A transfer addressed to the device is in progress. -/
  inTransfer : Bool
  /-- The bytes that the device drove in the last transfer, and its acknowledges, the address first. -/
  sent : List Byte
  acks : List Bool
  /-- A transfer stretched until SEQ runs: its channel, its address, and what is left of it; and the timebase since when. -/
  held : Option (Chan × Nat × TwRest)
  heldAt : Nat
  deriving DecidableEq, Repr

/-! ### Power and resets (15, 19) -/

/-- A power-state entry in progress (15 R411). -/
structure Entry where
  target : Nat
  /-- Domains still to be asked, the first being asked now, since this timebase. -/
  ask : List Nat
  askedAt : Nat
  /-- Domains that acknowledged and were on, latest first. -/
  stopped : List Nat
  /-- A wake source has fired. -/
  abort : Bool
  /-- What TXD, CLR and AUD stopped, for the rollback (15 R414). -/
  carriers : List Nat
  cl : Bool
  ports : List Nat
  deriving DecidableEq, Repr

/-- The power controller (15). -/
structure Power where
  state : Nat
  entry : Option Entry
  /-- A wake from LISTEN or HIBERNATE is in progress, with the sources that have fired. -/
  wakeSources : Nat
  waking : Bool
  /-- PWR.DOMAINS_ON. -/
  on : BitVec 12
  held : BitVec 12
  /-- Domains whose on-demand wake is in progress. -/
  coming : List Nat
  /-- Timebase at which each such wake began. -/
  comingAt : SMap Nat
  /-- Periods each domain has been idle. -/
  idle : SMap Nat
  sleepLfRc : Bool
  sleepPpm : Int
  deriving DecidableEq, Repr

/-- Supplies and resets (19). -/
structure Supply where
  /-- Rails up, bit n for rail n of the rails table. -/
  up : BitVec 10
  /-- Rails above 0.3 V. -/
  present : BitVec 10
  rfArmed : Bool
  /-- Rails in warning, as SYS.BROWN_STATE [2:0]. -/
  low : BitVec 3
  /-- Timebase of the last supply warning, then of the end of brown hold (19 R482, R484). -/
  lowAt : Nat
  /-- Rails that entered warning in this brown hold. -/
  entered : BitVec 3
  brown : Bool
  /-- A plan and a calibration wait for 1 ms after brown hold (19 R484, 17 R460). -/
  deferral : Bool
  /-- I/O banks IOH and IOA: powered and on 3.3 V levels. -/
  iohOn : Bool
  ioh33 : Bool
  ioaOn : Bool
  ioa33 : Bool
  /-- A reset is held, with its kind 0 POR to 4 WDOG. -/
  resetHeld : Option Nat
  /-- Boot is in progress. -/
  booting : Bool
  /-- RESET_REPORT detail for a WDOG reset. -/
  wdogCause : Nat
  deriving DecidableEq, Repr

/-! ### Protection (16) -/

/-- A patch sequence (16 R438). -/
structure PatchSeq where
  length : Nat
  digest : List Byte
  data : SMap Nat
  deriving DecidableEq, Repr

/-- A cosign proposal (16 R431). -/
structure Proposal where
  role : Chan
  digest : List Byte
  nonce : List Byte
  approved : Bool
  /-- Timebase at which it was made. -/
  made : Nat
  /-- The patch sequence, and the start of its last packet. -/
  patch : Option PatchSeq
  patchAt : Nat
  deriving DecidableEq, Repr

/-- Protection: proposal, patches, OTP, pending PROTECTED_CONFIG (16). -/
structure Prot where
  proposal : Option Proposal
  patchCount : Nat
  patchBytes : Nat
  /-- The digests of the patches in force, oldest first (00 R1). -/
  patches : List (List Byte)
  /-- OTP bytes burnt since manufacture; every other byte is the part's own (Config.otpByte). -/
  otp : SMap Nat
  /-- The 128 bytes of the pending PROTECTED_CONFIG. -/
  pending : Option (List Byte)
  deriving DecidableEq, Repr

/-! ### Ageing (17) -/

/-- A margin plan in progress (17 R455 to R457): kind as in MARGIN_PLANNED, the knob setting it goes to, the T_c and
H that follow, and its measurements in ps: u, t0 and the fifth power of A, with the powered hours it counted. -/
structure Plan where
  kind : Nat
  /-- A VSEL step waits for its verification: up or down. -/
  verifying : Option Bool
  /-- Timebase of its last VSEL step. -/
  stepAt : Nat
  biasTo : Nat
  vselTo : Nat
  newTc : Nat
  newH : Nat
  u : Rat
  base : Rat
  a5 : Rat
  hours : Nat
  deriving DecidableEq, Repr

/-- Ageing measurement (17). -/
structure Age where
  /-- Last readings of each Top, newest first, at most 100, 0.01 ps. -/
  readings : SMap (List Nat)
  /-- Counts for a plan of the Tops whose domain is off, and the timebase of the last scheduled count (17 R451). -/
  offCounts : SMap Nat
  countAt : Nat
  plan : Option Plan
  /-- A plan that is due and waits: kinds of MARGIN_PLANNED. -/
  due : List Nat
  /-- Powered ticks within the present minute and minutes within the hour. -/
  ticks : Nat
  minutes : Nat
  /-- Prognosis of the last plan: t, t0, A (0.01 ps), Y_hold, Y_limit, Y_budget (0.1 year), worst Top, last step. -/
  t : Nat
  t0 : Nat
  a : Nat
  /-- The shift s that it measured, ps. -/
  shift : Rat
  yHold : Nat
  yLimit : Nat
  yBudget : Nat
  worst : Nat
  lastStep : Nat
  exhaustedSent : Bool
  warned : Bool
  beyondSent : Bool
  deriving DecidableEq, Repr

/-! ### Rattle (18) -/

/-- An armed perturbation (18 R465, R469). -/
structure Pert where
  target : Nat
  setting : Nat
  armedAt : Nat
  /-- Acts from the next boundary; disarmed, and acting until the next boundary. -/
  starting : Bool
  stopping : Bool
  /-- Armed again after it was disarmed, to act from the next boundary: target, setting, time (18 R465, R466). -/
  again : Option (Nat × Nat × Nat)
  /-- Periods since it began to act. -/
  age : Nat
  /-- Injections left (LOCK_FAIL), frames left of the burst (CRC_FAIL). -/
  left : Nat
  deriving DecidableEq, Repr

/-- Rattle and loopback (18). -/
structure Rattle where
  armed : SMap Pert
  txLoop : Bool
  deriving DecidableEq, Repr

/-! ### The machine -/

/-- The whole machine. -/
structure State where
  /-- Commands waiting, first in first out. -/
  pending : List Instr
  timebase : BitVec 64
  /-- Parameter fields that differ from their After-POR value, by PID x 32 + low bit (00 R15). -/
  par : SMap Nat
  /-- The values still in force of fields written since the last boundary, where a write takes effect at the next
  boundary (07 R225, 08 R251). -/
  inForce : SMap Nat
  op : Channel
  cu : Channel
  waiting : List Arrived
  running : List Running
  events : Events
  front : Front
  seq : Seq
  alarm : Option Alarm
  rck : Reckoner
  clk : Clocks
  rf : Rf
  links : SMap Link
  carriers : SMap Carrier
  tx : Tx
  cl : Cl
  sessions : SMap Session
  rods : SMap Rod
  audio : Audio
  /-- The host area of MEM, bytes that are not 0 (11 R336). -/
  mem : SMap Nat
  ana : Analog
  inst : Inst
  tw : Tw
  power : Power
  supply : Supply
  prot : Prot
  age : Age
  rattle : Rattle
  /-- The number the next free value is drawn with: the model's own, not the spec's. -/
  free : Nat
  deriving DecidableEq, Repr


/-! ### Values after reset

Each definition is the value after POR of one part of the machine. -/

/-- An empty mailbox channel. -/
def Channel.reset : Channel :=
  { asm := [], discard := false, replies := [], partly := false, held := [], tags := 0, intDiscard := false,
    intUnderrun := false }

/-- The front window after POR (02 R40). The straps read 0 until RESET_RELEASE latches them: DESIGN CHOICE. -/
def Front.reset : Front :=
  { bootMode := 0, otpValid := false, romFail := false, resetCause := 0, readyRise := false, wake := false,
    eventsLost := false, intMask := 0x0000000B, alertNormal := false, alertBrown := false, alertDeadline := false,
    alertCosign := false, alertMask := 0x70, tbLatch := 0, addrPins := 0, groupEn := false, groupAddr := 0,
    groupMask := 0x7F, wakeReason := 0, scratch := 0, spiOut := [] }

/-- SEQ before boot (19 R490). -/
def Seq.reset : Seq :=
  { running := false, waking := true, restarting := false, expiries := [], softReset := none, softBytes := 0,
    atRun := [] }

/-- An empty event queue, every block in mode 2 (02 R63). -/
def Events.reset : Events := { queue := [], lost := 0, modes := [], limits := [] }

/-- The ledger with nothing admitted; the firmware overhead of 03 R72 is added where MEM is counted. -/
def Reckoner.reset : Reckoner :=
  { charges := [], restarts := [], wdog := [], overLimit := [], overBudget := [], missed := [], gapped := [], stalled := [],
    fading := [], servedAt := [] }

/-- A synthesiser that is off and untuned. -/
def Synth.reset : Synth :=
  { phase := .off, freq := 0, divider := 0, int := 0, frac := 0, band := 0, calDue := false,
    inCal := false, calWas := false, trim := false, acc := none }

/-- Clocks after POR: low-frequency clock from the RC oscillator (04 R93), nothing locked, every output static (04 R122). -/
def Clocks.reset : Clocks :=
  { xtalQual := false, xtalMeant := false, xtalHeld := false, pllLocked := false, bridging := false,
    lfCrystal := false, refState := 0, refCorr := 0, outs := List.replicate 5 .static, outWait := [], syncOut := .static,
    syncEdge := none, divPhase := 0, synced := false, rx := Synth.reset, tx := Synth.reset, cmd := Synth.reset,
    calDeferred := false, calRef := none, dieTemp := 0 }

/-- An aerial chain after POR: auto mode at +12 dB (05 R125). -/
def Chain.reset : Chain :=
  { gain := 12, fixed := false, quiet := 0, step := 0, irr := 0, irrAlarmed := false, below := 0,
    taps := List.replicate 8 (0, 0) }

/-- A free `PRIV_CAL` record (05 R140). -/
def PrivRec.reset : PrivRec :=
  { link := none, valid := false, stale := false, temp := 0, freq := 0, aRe := 0, aIm := 0, bRe := 0, bIm := 0,
    measuring := false }

/-- A plan bin never measured (05 R149). -/
def PlanBin.reset : PlanBin := { peak := 0, mean := 0, written := none }

/-- The receive front end after POR. -/
def Rf.reset : Rf :=
  { a := Chain.reset, b := Chain.reset, imageCal := 0, fastUntil := 0, priv := List.replicate 8 PrivRec.reset,
    toneAt := none, scan := none,
    bins := [], perm := [], permPending := none, ageTicks := 0, scanReturn := false, alt := [], altPending := none,
    altNext := none }

/-- An idle tracker. -/
def Tracker.reset : Tracker := { phase := .idle, cand := 0, start := 0, len := 61440, df := 0, tau := 0, level := 0, training := false }

/-- The taps at acquisition: every tap zero except w4, which is 1 (07 R210). -/
def Taps.reset : Taps := { w := [0, 0, 0, 0, 4096, 0, 0, 0], b := [0, 0, 0, 0], d := [] }

/-- A closed link. -/
def Link.reset : Link :=
  { isOpen := false, starting := false, freq := 0, cls := 0, range := false, session := none, air := 0,
    t0 := Tracker.reset, t1 := Tracker.reset, losses := 0, lastOk := false, aerial := 0, tapsA := Taps.reset,
    tapsB := Taps.reset, mean := none, rssiA := none, rssiB := none, fOff := 0, tOff := 0, bufA := [], bufB := [],
    bars := [], sb := [], sbNext := 0, sbBad := false, sbLast := none, msg := none, hop := none, hopping := none,
    low := 0, lastHop := none, measuring := false, due := [], silent := 0, hist := [], conceal := none, out := [],
    onPriv := false, privNext := none, nco := 0, mirror := none, tie := none }

/-- A closed carrier. -/
def Carrier.reset : Carrier :=
  { phase := .closed, starting := false, freq := 0, cls := 0, step := 0, stepNext := none,
    session := none, encrypt := false, m := 0, stopCause := 0, retune := none, retuning := false, prevL := 0,
    prevR := 0, sb := [], msg := none, frame := [], invalid := false, air := [] }

/-- `TX_POWER_STEPS` after POR: the ceiling at step 0 with TRIM 0 (08 R239). -/
def Steps.reset : Steps := { trim := [], ceilings := [0] }

/-- Downlink transmission after POR. -/
def Tx.reset : Tx :=
  { paEn := false, paMute := false, enAt := none, muteAt := none, offDelay := false, offSince := 0, qcal := false, staleSent := true, steps := Steps.reset,
    stepsPending := none, stepsNext := none }

/-- The command link after POR. -/
def Cl.reset : Cl :=
  { phase := .stopped, freq := 0, power := 0, b := 0, hop := none, acks := 0, prevAcks := 0, listening := false,
    abandonedLast := false, beacon := [], served := 255, servedOther := 255, txen := false, rxen := false, coexReq := false,
    coexPri := false, beaconing := false, air := [], turning := false }

/-- A FREE session: level 0x8000 when no reply has been received (09 R265). -/
def Session.reset : Session :=
  { phase := .free, flags := 0, txId := 0, epoch := 0, key := [], pendKey := [], change := none, level := -32768,
    heard := 0, battery := 0, status := 0, beaconLevel := 0, missed := 0, msgLen := 0, msg := [], assign := none,
    remove := false, removeAt := 0, out := none, toggle := false, inn := none, lastIn := none }

/-- A FREE rod: every program word NOP (10 R285); data, pointers and accumulators 0: DESIGN CHOICE. -/
def Rod.reset : Rod :=
  { phase := .free, was := .free, prog := [], data := [], bank0 := [], bank1 := [], active := 0, ap := [0, 0, 0, 0],
    ba := [0, 0, 0, 0], md := [0, 0, 0, 0], ml := [0, 0, 0, 0], acc := [0, 0, 0, 0], cls := 0, cycles := 0,
    starting := false, resting := false, swap := none, last := [], out := [], aborted := 0 }

/-- An empty port configuration. -/
def PortCfg.reset : PortCfg :=
  { format := 0, rate := 0, slots := 0, role := 0, slotBits := 0, inMask := 0, outMask := 0, drive := 0 }

/-- An unconfigured port. -/
def Port.reset : Port :=
  { phase := .unconfigured, cfg := PortCfg.reset, next := none, start := 0, startAt := none, stopping := false,
    stopCause := 0, rate := 0, ratio := 0, onGrid := false, acquired := false, differs := 0,
    fade := 0, outBlocks := [], newSlots := [], loopback := false, stopAt := 0, gridRun := 0, slip := none,
    spoilt := false }

/-- An idle ramp at a gain. -/
def Ramp.at (g : Rat) : Ramp :=
  { cur := g, target := g, phase := 0, g0 := g, m := 0, beginAt := 0, since := 0, next := none, edge := none }

/-- An unused route. -/
def Route.reset : Route :=
  { src := 0, dst := 0, gain := 0, inUse := false, active := false, fading := false, ramp := Ramp.at 0,
    ended := false, out := [] }

/-- A bus after POR: LC10 at 0 dB (11 R333). -/
def Bus.reset : Bus := { cls := 0, gain := 0, ramp := Ramp.at 1 }

/-- An unused tap. -/
def Tap.reset : Tap := { route := 0, packing := 0, start := 0, length := 0, wr := 0 }

/-- The audio side after POR. -/
def Audio.reset : Audio :=
  { ports := [], routes := [], routesPending := none, buses := [], taps := [], past := [], dest := [] }

/-- A local analog object that is off. -/
def AnaObj.reset : AnaObj := { phase := 0, up := false, since := 0, pos := 0, goal := 0, endAt := 0, limit := false, ramp := Ramp.at 1 }

/-- Local analog audio after POR: jacks removed. -/
def Analog.reset : Analog :=
  { objs := [], jack1 := false, jack2 := false, spkFaults := [], spkRestart := false, spkDue := 0, jack1At := 0, jack2At := 0,
    outs := [], limitAt := none }

/-- A fine converter after POR: order 4, rate 100 S/s, so D is 10 240 (13 R369, R387). -/
def Fine.reset : Fine :=
  { channel := 0, order := 4, notch := 0, trigger := 0, delay := 0, d := 10240, tag := 0, seqAt := 0, conv := none,
    streaming := false, joining := false }

/-- A control DAC after POR. -/
def Cdac.reset : Cdac :=
  { target := 0, out := 0, acc := 0, range := 0, newRange := 0, phase := 0, pending := none, idleSince := 0,
    movedAt := 0, prevOut := 0, prevIdle := 0, phaseAt := 0 }

/-- A PWM output after POR (13 R387). -/
def Pwm.reset : Pwm := { period := 492, duty := 0, since := 0 }

/-- The instrumentation after POR. -/
def Inst.reset : Inst :=
  { fa := Fine.reset, fb := Fine.reset, refReady := false, refAt := 0, slewAt := 0, queue := [], stream := none, cdac := [], pwm := [] }

/-- The two-wire port after reset: both pointers 0x00 (14 R394). -/
def Tw.reset : Tw :=
  { opPtr := 0, cuPtr := 0, answered := false, inTransfer := false, sent := [], acks := [], held := none, heldAt := 0 }

/-- The power controller after POR: ACTIVE, only AON on (15 R425). -/
def Power.reset : Power :=
  { state := 0, entry := none, wakeSources := 0, waking := false, on := 1, held := 0, coming := [], comingAt := [], idle := [],
    sleepLfRc := false, sleepPpm := 0 }

/-- Supplies at reset release: every rail up, which is the environment's: DESIGN CHOICE. -/
def Supply.reset : Supply :=
  { up := 0x3FF, present := 0x3FF, rfArmed := false, low := 0, lowAt := 0, entered := 0, brown := false, deferral := false,
    iohOn := true, ioh33 := true, ioaOn := true, ioa33 := true, resetHeld := none, booting := true, wdogCause := 0 }

/-- Protection after POR. No byte of the OTP has been burnt in the field. -/
def Prot.reset : Prot := { proposal := none, patchCount := 0, patchBytes := 0, patches := [], otp := [], pending := none }

/-- Ageing measurement after POR. -/
def Age.reset : Age :=
  { readings := [], offCounts := [], countAt := 0, plan := none, due := [], ticks := 0, minutes := 0, t := 0, t0 := 0, a := 0, shift := 0, yHold := 0,
    yLimit := 0, yBudget := 0, worst := 0, lastStep := 0, exhaustedSent := false, warned := false,
    beyondSent := false }

/-- The machine right after the release of a power-on reset. -/
def State.reset : State :=
  { pending := [], timebase := 0, par := [], inForce := [], op := Channel.reset, cu := Channel.reset, waiting := [], running := [],
    events := Events.reset, front := Front.reset, seq := Seq.reset, alarm := none, rck := Reckoner.reset,
    clk := Clocks.reset, rf := Rf.reset, links := [], carriers := [], tx := Tx.reset, cl := Cl.reset, sessions := [],
    rods := [], audio := Audio.reset, mem := [], ana := Analog.reset, inst := Inst.reset, tw := Tw.reset,
    power := Power.reset, supply := Supply.reset, prot := Prot.reset, age := Age.reset,
    rattle := { armed := [], txLoop := false }, free := 0 }

end Sys2Proof.Machine
end

