-- ==== Sys2Proof/Machine/Ops.lean ====
section
/-! DEFINITION. The named operations over the state: sparse maps, the parameter store, time, channels and replies,
events and alerts, domains. -/

namespace Sys2Proof.Machine

/-! ### Sparse maps -/

/-- The entry of a key, if it is listed. -/
def smFind {α : Type} : SMap α → Nat → Option α
  | [], _ => none
  | p :: m, k => if p.1 = k then some p.2 else smFind m k

/-- The value of a key; `d` is what an unlisted key reads as. -/
def smGet {α : Type} (d : α) (m : SMap α) (k : Nat) : α := (smFind m k).getD d

/-- The map without a key. -/
def smErase {α : Type} : SMap α → Nat → SMap α
  | [], _ => []
  | p :: m, k => if p.1 = k then m else p :: smErase m k

/-- The map with a key set, keys rising. -/
def smPut {α : Type} : SMap α → Nat → α → SMap α
  | [], k, v => [(k, v)]
  | p :: m, k, v => if k < p.1 then (k, v) :: p :: m else if p.1 = k then (k, v) :: m else p :: smPut m k v

/-- The map with a key set; writing what an unlisted key reads as removes the entry. -/
def smSet {α : Type} [DecidableEq α] (d : α) (m : SMap α) (k : Nat) (v : α) : SMap α :=
  if v = d then smErase m k else smPut m k v

/-- Write consecutive entries. -/
def smSetList {α : Type} [DecidableEq α] (d : α) (m : SMap α) (k : Nat) : List α → SMap α
  | [] => m
  | v :: vs => smSetList d (smSet d m k v) (k + 1) vs

/-- Read `n` consecutive entries. -/
def smGetList {α : Type} (d : α) (m : SMap α) (k n : Nat) : List α := (List.range n).map (fun i => smGet d m (k + i))

/-- The canonical form: keys strictly rising, no entry equal to what its key reads as when it is unlisted. -/
def smWf {α : Type} (d : Nat → α) (m : SMap α) : Prop :=
  m.Pairwise (fun p q => p.1 < q.1) ∧ ∀ p ∈ m, p.2 ≠ d p.1

/-- Apply a function to every listed entry; entries that become the default leave the map. -/
def smMap {α : Type} [DecidableEq α] (d : α) (f : Nat → α → α) : SMap α → SMap α
  | [] => []
  | p :: m => let v := f p.1 p.2; if v = d then smMap d f m else (p.1, v) :: smMap d f m

/-! ### The parameter store -/

/-- The value of a stored parameter field. -/
def parGet (s : State) (k : Nat) : Nat := (smFind s.par k).getD (porValue k)

/-- The value in force of a field whose writes take effect at the next boundary. -/
def parNow (s : State) (k : Nat) : Nat := (smFind s.inForce k).getD (parGet s k)

/-- Store a parameter field. -/
def parSet (k v : Nat) (s : State) : State :=
  { s with par := if v = porValue k then smErase s.par k else smPut s.par k v }

/-- A stored signed field of `w` bits. -/
def parInt (s : State) (w k : Nat) : Int := sint w (parGet s k)

/-- Count `n` on a counter, which saturates (00 R12). -/
def bumpBy (n k : Nat) (s : State) : State := if n = 0 then s else parSet k (satInc (parGet s k) n) s

/-- Count one. -/
def bump (k : Nat) (s : State) : State := bumpBy 1 k s

/-! ### Time -/

/-- Timebase ticks in one period (00 R6). -/
def periodLen : Nat := 61440

/-- The timebase as a number. -/
def now (s : State) : Nat := s.timebase.toNat

/-- The present period number (00 R6). -/
def period (s : State) : Nat := now s / periodLen

/-- Ticks per microsecond times `us`, at 122.88 MHz, rounded down. -/
def usTicks (us : Nat) : Nat := us * 12288 / 100

/-- The number of the next free value, and the state that has used it. -/
def draw (s : State) : Nat × State := (s.free, { s with free := s.free + 1 })

/-! ### Domains (00 R4, 15 R407) -/

namespace Dom
def aon : Nat := 0
def seq : Nat := 1
def ckg : Nat := 2
def rfa : Nat := 3
def chz : Nat := 4
def dmd : Nat := 5
def abc : Nat := 6
def txd : Nat := 7
def clr : Nat := 8
def aud : Nat := 9
def ana : Nat := 10
def mem : Nat := 11
end Dom

/-- Whether a domain is on. -/
def domOn (s : State) (d : Nat) : Bool := s.power.on.getLsbD d

/-- Whether a power state allows a domain (15 R407). -/
def domAllowed (state d : Nat) : Bool :=
  match state with
  | 0 => d ≤ 11
  | 1 => d == 0 || d == 1 || d == 2 || d == 6 || d == 9 || d == 10 || d == 11
  | 2 => d ≤ 4 || d == 11
  | _ => d == 0

/-- Switch a domain on or off. -/
def setDom (d : Nat) (b : Bool) (s : State) : State :=
  { s with power := { s.power with
      on := if b then s.power.on ||| BitVec.ofNat 12 (2 ^ d) else s.power.on &&& ~~~ BitVec.ofNat 12 (2 ^ d) } }

/-- Whether a domain is restarting (03 R84). -/
def restarting (s : State) (d : Nat) : Bool := s.rck.restarts.contains d

/-- What the main VCO feeds is held stopped: its PLL has no lock, or the domain CKG restarts (04 R95, R98). -/
def unclocked (s : State) : Bool := !s.clk.pllLocked || restarting s Dom.ckg

/-- Whether an instant has come, where the timebase can tell. -/
def elapsed (s : State) (t : Nat) : Bool := unclocked s || decide (t ≤ now s)

/-! ### Objects -/

def link (s : State) (n : Nat) : Link := smGet Link.reset s.links n
def onLink (n : Nat) (f : Link → Link) (s : State) : State :=
  { s with links := smSet Link.reset s.links n (f (link s n)) }
def carrier (s : State) (n : Nat) : Carrier := smGet Carrier.reset s.carriers n
def onCarrier (n : Nat) (f : Carrier → Carrier) (s : State) : State :=
  { s with carriers := smSet Carrier.reset s.carriers n (f (carrier s n)) }
def session (s : State) (n : Nat) : Session := smGet Session.reset s.sessions n
def onSession (n : Nat) (f : Session → Session) (s : State) : State :=
  { s with sessions := smSet Session.reset s.sessions n (f (session s n)) }
def rod (s : State) (n : Nat) : Rod := smGet Rod.reset s.rods n
def onRod (n : Nat) (f : Rod → Rod) (s : State) : State :=
  { s with rods := smSet Rod.reset s.rods n (f (rod s n)) }
def port (s : State) (n : Nat) : Port := smGet Port.reset s.audio.ports n
def onAudio (f : Audio → Audio) (s : State) : State := { s with audio := f s.audio }
def onPort (n : Nat) (f : Port → Port) (s : State) : State :=
  onAudio (fun a => { a with ports := smSet Port.reset a.ports n (f (smGet Port.reset a.ports n)) }) s
def route (s : State) (n : Nat) : Route := smGet Route.reset s.audio.routes n
def onRoute (n : Nat) (f : Route → Route) (s : State) : State :=
  onAudio (fun a => { a with routes := smSet Route.reset a.routes n (f (smGet Route.reset a.routes n)) }) s
def bus (s : State) (n : Nat) : Bus := smGet Bus.reset s.audio.buses n
def onBus (n : Nat) (f : Bus → Bus) (s : State) : State :=
  onAudio (fun a => { a with buses := smSet Bus.reset a.buses n (f (smGet Bus.reset a.buses n)) }) s
def tap (s : State) (n : Nat) : Tap := smGet Tap.reset s.audio.taps n
def onTap (n : Nat) (f : Tap → Tap) (s : State) : State :=
  onAudio (fun a => { a with taps := smSet Tap.reset a.taps n (f (smGet Tap.reset a.taps n)) }) s
def ana (s : State) (n : Nat) : AnaObj := smGet AnaObj.reset s.ana.objs n
def onAna (n : Nat) (f : AnaObj → AnaObj) (s : State) : State :=
  { s with ana := { s.ana with objs := smSet AnaObj.reset s.ana.objs n (f (ana s n)) } }
def cdac (s : State) (n : Nat) : Cdac := smGet Cdac.reset s.inst.cdac n
def onCdac (n : Nat) (f : Cdac → Cdac) (s : State) : State :=
  { s with inst := { s.inst with cdac := smSet Cdac.reset s.inst.cdac n (f (cdac s n)) } }
def fine (s : State) (n : Nat) : Fine := if n = 0 then s.inst.fa else s.inst.fb
def onFine (n : Nat) (f : Fine → Fine) (s : State) : State :=
  if n = 0 then { s with inst := { s.inst with fa := f s.inst.fa } }
  else { s with inst := { s.inst with fb := f s.inst.fb } }

/-- The synthesisers by ID: 1 RX LO, 2 TX LO, 3 command (04 R104). -/
def synth (s : State) (id : Nat) : Synth := if id = 1 then s.clk.rx else if id = 2 then s.clk.tx else s.clk.cmd
def onSynth (id : Nat) (f : Synth → Synth) (s : State) : State :=
  if id = 1 then { s with clk := { s.clk with rx := f s.clk.rx } }
  else if id = 2 then { s with clk := { s.clk with tx := f s.clk.tx } }
  else { s with clk := { s.clk with cmd := f s.clk.cmd } }

/-! ### Alerts and events (02 R62, R63, 14 R400) -/

/-- ALERT_STATUS without URGENT (02 R40). -/
def alertBits (f : Front) : Nat :=
  b2n f.alertNormal + 16 * b2n f.alertBrown + 32 * b2n f.alertDeadline + 64 * b2n f.alertCosign

/-- ALERT_STATUS, URGENT included: the OR of bits [6:4] after ALERT_MASK (02 R40). -/
def alertStatus (f : Front) : Nat :=
  alertBits f + 128 * b2n (decide (bits (Nat.land (alertBits f) f.alertMask.toNat) 6 4 ≠ 0))

/-- Change the alert bits; a masked bit that goes from 0 to 1 clears the answered latch (14 R400). -/
def raiseAlert (f : Front → Front) (s : State) : State :=
  let f' := f s.front
  let rose := Nat.land (alertBits f' - Nat.land (alertBits f') (alertBits s.front)) s.front.alertMask.toNat
  let s := { s with front := f' }
  if rose = 0 then s else { s with tw := { s.tw with answered := false } }

/-- The mode of an event block, after POR 2 (02 R63). -/
def eventMode (s : State) (block : Nat) : Nat := smGet 2 s.events.modes block

/-- Queue an event under the mode of its block (02 R62, R63): mode 0 discards it; a full queue drops and counts it;
mode 3 also sets ALERT_STATUS.NORMAL. -/
def queueAt (time : BitVec 64) (code arg detail : Nat) (s : State) : State :=
  let m := eventMode s (code / 256)
  if m = 0 then s
  else if s.events.queue.length ≥ 256 then
    bump P.sysEventsLost { s with
      events := { s.events with lost := s.events.lost + 1 }, front := { s.front with eventsLost := true } }
  else
    let s := { s with events := { s.events with queue := s.events.queue ++ [⟨code, arg, detail, time, m⟩] } }
    if m = 3 then raiseAlert (fun f => { f with alertNormal := true }) s else s

/-- Queue an event that arises now. -/
def queueEvent (code arg detail : Nat) (s : State) : State := queueAt s.timebase code arg detail s

/-- Queue an event once SEQ runs (04 R94, 15 R421). -/
def queueWhenRunning (code arg detail : Nat) (s : State) : State :=
  if s.seq.running then queueEvent code arg detail s
  else { s with seq := { s.seq with atRun := s.seq.atRun ++ [(code, arg, detail)] } }

/-- Queue an event at most once in `span` ticks; `n` occurrences arise now, and the detail is made from the number of
occurrences within the last `span` ticks. `k` names the kind and the object. -/
def queueWindow (k span code arg n : Nat) (detail : Nat → Nat) (s : State) : State :=
  let put (t : Nat) (l : List (Nat × Nat)) (s : State) : State :=
    { s with events := { s.events with limits := smPut s.events.limits k (t, l) } }
  match smFind s.events.limits k with
  | none => queueEvent code arg (detail n) (put (now s) [(now s, n)] s)
  | some (t, l) =>
    let l := (now s, n) :: l.filter (fun x => now s < x.1 + span)
    if now s < t + span then put t l s
    else queueEvent code arg (detail (l.map Prod.snd).sum) (put (now s) l s)

/-- Queue an event at most once in `span` ticks with the number of occurrences in the last `span` ticks as its detail. -/
def queueCounted (k span code arg : Nat) (s : State) : State := queueWindow k span code arg 1 id s

/-- Queue an event at most once in `span` ticks; `k` names the kind and the object it is limited for. -/
def queueLimited (k span code arg detail : Nat) (s : State) : State := queueWindow k span code arg 0 (fun _ => detail) s

/-- One second in ticks. -/
def sec1 : Nat := 122880000

/-! ### Channels, replies and tags (02 R35, R43, R48, R49) -/

def chan (s : State) (c : Chan) : Channel :=
  match c with
  | .operator => s.op
  | .custodian => s.cu

def onChan (c : Chan) (f : Channel → Channel) (s : State) : State :=
  match c with
  | .operator => { s with op := f s.op }
  | .custodian => { s with cu := f s.cu }

/-- A channel's number in arguments of events (02 R65). -/
def chanNo (c : Chan) : Nat := match c with | .operator => 0 | .custodian => 1

def tagBit (t : Nat) : BitVec 16 := BitVec.ofNat 16 (2 ^ t)

/-- A tag leaves flight. -/
def freeTag (c : Channel) (t : Nat) : Channel := { c with tags := c.tags &&& ~~~ tagBit t }

/-- Tags in flight (02 R40). -/
def tagsInFlight (c : Channel) : Nat := ((List.range 16).filter (fun i => c.tags.getLsbD i)).length

/-- Bytes in a reply FIFO of 4096 bytes (02 R42). -/
def replyLevel (c : Channel) : Nat := (c.replies.map List.length).sum

/-- Place a reply whole into the FIFO, or hold it in SEQ while it does not fit or an earlier one is held; `frees`
is the tag that leaves flight when it enters (02 R43, R49). -/
def placeReply (bytes : List Byte) (frees : Option Nat) (c : Channel) : Channel :=
  if c.held.isEmpty && replyLevel c + bytes.length ≤ 4096 then
    let c := { c with replies := c.replies ++ [bytes] }
    frees.elim c (freeTag c)
  else { c with held := c.held ++ [⟨bytes, frees⟩] }

/-- Status codes (02 R57). -/
def Status.code : Status → Nat
  | .ok => 0 | .accepted => 1 | .busyTags => 2 | .refusedCapacity => 3 | .badCrc => 4 | .badOpcode => 5
  | .badParam => 6 | .badState => 7 | .timeout => 8 | .needsCosign => 9 | .cosignRejected => 10 | .dupTag => 11
  | .planForbidden => 12 | .synthNotLocked => 13 | .aborted => 14 | .hwFault => 15 | .dropped => 16

/-- Send a reply of a command on its channel (02 R48). -/
def sendReply (h : Hdr) (op : Nat) (completion : Bool) (st : Status) (payload : List Byte) (frees : Bool)
    (s : State) : State :=
  onChan h.ch (placeReply (replyBytes op h.tag completion st.code payload) (if frees then some h.tag else none)) s

/-- The argument of CMD_FAILED and CMD_TIMEOUT (02 R65). -/
def cmdArg (h : Hdr) (op : Nat) : Nat := 256 * op + 16 * chanNo h.ch + h.tag

/-! ### Lists of numbers -/

/-- The set bits of a mask below `n`. -/
def maskBits (n m : Nat) : List Nat := (List.range n).filter (fun i => m.testBit i)

/-- Fold a state change over a list. -/
def each {β : Type} (l : List β) (f : β → State → State) (s : State) : State := l.foldl (fun s x => f x s) s

end Sys2Proof.Machine
end

