-- ==== Sys2Proof/Machine/Operands.lean ====
section
/-! DEFINITION. The operand forms of the host commands: opcode, class, parameter layout in both directions, and the
objects a command names (02 R51, R58). -/

namespace Sys2Proof.Machine

/-- An unsigned field of `n` bytes at an offset. -/
def fldAt (bs : List Byte) (off n : Nat) : Nat := leNat ((bs.drop off).take n)

/-- A signed field of `n` bytes at an offset. -/
def sfldAt (bs : List Byte) (off n : Nat) : Int := sint (8 * n) (fldAt bs off n)

/-- The bytes of a signed field. -/
def sBytes (n : Nat) (v : Int) : List Byte := leBytes n (uint (8 * n) v)

/-- Consecutive fields of `n` bytes. -/
def fldsAt (bs : List Byte) (off n count : Nat) : List Nat := (List.range count).map (fun i => fldAt bs (off + n * i) n)

/-- A layout of fixed length (02 R58). -/
def fixed (n : Nat) (bs : List Byte) (c : Instr) : Option Instr := if bs.length = n then some c else none

/-- The command of an opcode with its parameters; none: the length does not match the layout, and a reserved opcode
gives `badOpcode` (02 R58). -/
def decodeCmd (h : Hdr) (op : Nat) (b : List Byte) : Option Instr :=
  match op with
  | 0x00 => fixed 0 b (.nop h)
  | 0x01 => fixed 0 b (.getInfo h)
  | 0x02 => fixed 1 b (.reset h (fldAt b 0 1))
  | 0x03 => fixed 1 b (.getEvents h (fldAt b 0 1))
  | 0x04 => fixed 2 b (.setEventMask h (fldAt b 0 1) (fldAt b 1 1))
  | 0x05 => fixed 3 b (.getCounters h (fldAt b 0 2) (fldAt b 2 1))
  | 0x06 => fixed 0 b (.timeRead h)
  | 0x07 => fixed 9 b (.timeSetAlarm h (fldAt b 0 8) (fldAt b 8 1))
  | 0x08 => fixed 36 b (.fwPatchBegin h (fldAt b 0 4) (b.drop 4))
  | 0x09 => if 5 ≤ b.length ∧ b.length ≤ 1024 then some (.fwPatchData h (fldAt b 0 4) (b.drop 4)) else none
  | 0x0A => fixed 0 b (.fwPatchCommit h)
  | 0x10 => fixed 2 b (.paramGet h (fldAt b 0 2))
  | 0x11 => fixed 6 b (.paramSet h (fldAt b 0 2) (fldAt b 2 4))
  | 0x12 => let n := fldAt b 0 1
    if b.length = 1 + 6 * n ∧ 1 ≤ n ∧ n ≤ 64 then
      some (.paramSetMany h ((List.range n).map (fun i => (fldAt b (1 + 6 * i) 2, fldAt b (3 + 6 * i) 4)))) else none
  | 0x13 => fixed 5 b (.tableRead h (fldAt b 0 1) (fldAt b 1 2) (fldAt b 3 2))
  | 0x14 => if 5 ≤ b.length then
      some (.tableWrite h (fldAt b 0 1) (fldAt b 1 2) (fldAt b 3 2) (b.drop 5)) else none
  | 0x15 => fixed 1 b (.tableCommit h (fldAt b 0 1))
  | 0x20 => fixed 5 b (.rfTuneWindow h (fldAt b 0 1) (fldAt b 1 4))
  | 0x21 => fixed 1 b (.rfCalibrate h (fldAt b 0 1))
  | 0x22 => fixed 13 b (.rfScanStart h (fldAt b 0 4) (fldAt b 4 4) (fldAt b 8 4) (fldAt b 12 1))
  | 0x23 => fixed 0 b (.rfScanStop h)
  | 0x24 => fixed 3 b (.rfSetGain h (fldAt b 0 1) (fldAt b 1 1) (sfldAt b 2 1))
  | 0x25 => fixed 6 b (.rfGetSpectrum h (fldAt b 0 4) (fldAt b 4 2))
  | 0x26 => fixed 3 b (.rfCoordinate h (fldAt b 0 1) (fldAt b 1 1) (fldAt b 2 1))
  | 0x30 => fixed 11 b (.linkOpen h (fldAt b 0 1) (fldAt b 1 4) (fldAt b 5 1) (fldAt b 6 1) (fldAt b 7 2) (fldAt b 9 2))
  | 0x31 => fixed 1 b (.linkClose h (fldAt b 0 1))
  | 0x32 => fixed 13 b (.linkRetune h (fldAt b 0 1) (fldAt b 1 4) (fldAt b 5 8))
  | 0x33 => fixed 1 b (.linkStatus h (fldAt b 0 1))
  | 0x34 => let n := fldAt b 1 1
    if b.length = 2 + 4 * n ∧ n ≤ 8 then some (.linkSetAlt h (fldAt b 0 1) (fldsAt b 2 4 n)) else none
  | 0x35 => fixed 2 b (.linkPrivilege h (fldAt b 0 1) (fldAt b 1 1))
  | 0x40 => fixed 10 b (.carrierOpen h (fldAt b 0 1) (fldAt b 1 4) (fldAt b 5 1) (fldAt b 6 1) (fldAt b 7 2) (fldAt b 9 1))
  | 0x41 => fixed 1 b (.carrierClose h (fldAt b 0 1))
  | 0x42 => fixed 2 b (.carrierSetPower h (fldAt b 0 1) (fldAt b 1 1))
  | 0x43 => fixed 13 b (.carrierRetune h (fldAt b 0 1) (fldAt b 1 4) (fldAt b 5 8))
  | 0x44 => fixed 2 b (.txEnable h (fldAt b 0 2))
  | 0x45 => fixed 2 b (.txDisable h (fldAt b 0 2))
  | 0x50 => fixed 5 b (.clStart h (fldAt b 0 4) (sfldAt b 4 1))
  | 0x51 => fixed 0 b (.clStop h)
  | 0x52 => fixed 22 b (.sessionAdd h (fldAt b 0 1) (fldAt b 1 4) (fldAt b 5 1) (b.drop 6))
  | 0x53 => fixed 1 b (.sessionRemove h (fldAt b 0 1))
  | 0x54 => if b.length = 3 + fldAt b 1 2 ∧ 1 ≤ fldAt b 1 2 ∧ fldAt b 1 2 ≤ 64 then
      some (.sessionSend h (fldAt b 0 1) (b.drop 3)) else none
  | 0x55 => fixed 1 b (.sessionStatus h (fldAt b 0 1))
  | 0x56 => fixed 14 b (.clHop h (fldAt b 0 1) (fldAt b 1 1) (fldAt b 2 4) (fldAt b 6 8))
  | 0x60 => fixed 15 b (.portConfig h (fldAt b 0 1) (fldAt b 1 1) (fldAt b 2 1) (fldAt b 3 1) (fldAt b 4 1)
      (fldAt b 5 1) (fldAt b 6 4) (fldAt b 10 4) (fldAt b 14 1))
  | 0x61 => fixed 10 b (.portStart h (fldAt b 0 1) (fldAt b 1 1) (fldAt b 2 8))
  | 0x62 => fixed 1 b (.portStop h (fldAt b 0 1))
  | 0x63 => fixed 8 b (.routeSet h (fldAt b 0 2) (fldAt b 2 2) (fldAt b 4 2) (sfldAt b 6 2))
  | 0x64 => fixed 2 b (.routeClear h (fldAt b 0 2))
  | 0x65 => fixed 4 b (.mixSetGain h (fldAt b 0 1) (fldAt b 1 1) (sfldAt b 2 2))
  | 0x66 => fixed 11 b (.tapConfig h (fldAt b 0 2) (fldAt b 2 1) (fldAt b 3 4) (fldAt b 7 4))
  | 0x67 => fixed 6 b (.analogConfig h (fldAt b 0 1) (fldAt b 1 1) (sfldAt b 2 4))
  | 0x70 => let n := fldAt b 3 2
    if b.length = 5 + 4 * n ∧ 1 ≤ n ∧ n ≤ 254 then
      some (.progLoad h (fldAt b 0 1) (fldAt b 1 2) (fldsAt b 5 4 n)) else none
  | 0x71 => fixed 2 b (.progAdmit h (fldAt b 0 1) (fldAt b 1 1))
  | 0x72 => fixed 1 b (.progRetire h (fldAt b 0 1))
  | 0x73 => let n := fldAt b 4 2
    if b.length = 6 + 2 * n ∧ 1 ≤ n ∧ n ≤ 509 then
      some (.coefWrite h (fldAt b 0 1) (fldAt b 1 1) (fldAt b 2 2) ((fldsAt b 6 2 n).map (sint 16))) else none
  | 0x74 => fixed 9 b (.coefSwap h (fldAt b 0 1) (fldAt b 1 8))
  | 0x80 => fixed 9 b (.measConfig h (fldAt b 0 1) (fldAt b 1 1) (fldAt b 2 2) (fldAt b 4 1) (fldAt b 5 1)
      (fldAt b 6 1) (fldAt b 7 2))
  | 0x81 => fixed 2 b (.measNow h (fldAt b 0 1) (fldAt b 1 1))
  | 0x82 => fixed 9 b (.measStreamStart h (fldAt b 0 1) (fldAt b 1 4) (fldAt b 5 4))
  | 0x83 => fixed 1 b (.measStreamStop h (fldAt b 0 1))
  | 0x84 => fixed 4 b (.cdacSet h (fldAt b 0 1) (fldAt b 1 2) (fldAt b 3 1))
  | 0x85 => fixed 2 b (.cdacRange h (fldAt b 0 1) (fldAt b 1 1))
  | 0x90 => fixed 1 b (.powerStateRequest h (fldAt b 0 1))
  | 0x91 => fixed 0 b (.powerStatus h)
  | 0x92 => fixed 2 b (.domainHold h (fldAt b 0 1) (fldAt b 1 1))
  | 0xA0 => fixed 2 b (.budgetQuery h (fldAt b 0 1) (fldAt b 1 1))
  | 0xA1 => fixed 0 b (.marginReplan h)
  | 0xA2 => fixed 0 b (.ageingReport h)
  | 0xB0 => fixed 32 b (.cosignPropose h b)
  | 0xB1 => fixed 16 b (.cosignApprove h b)
  | 0xB2 => fixed 0 b (.cosignCancel h)
  | 0xB3 => fixed 0 b (.cosignStatus h)
  | 0xB4 => fixed 0 b (.nonceGet h)
  | 0xF0 => fixed 6 b (.rattleArm h (fldAt b 0 1) (fldAt b 1 1) (fldAt b 2 4))
  | 0xF1 => fixed 1 b (.rattleDisarm h (fldAt b 0 1))
  | 0xF2 => fixed 2 b (.testLoopback h (fldAt b 0 1) (fldAt b 1 1))
  | _ => some (.badOpcode h op)

/-- The opcode and the parameter bytes of a host command; none for an event row (02 R58). -/
def encodeCmd : Instr → Option (Hdr × Nat × List Byte)
  | .nop h => some (h, 0x00, [])
  | .getInfo h => some (h, 0x01, [])
  | .reset h k => some (h, 0x02, leBytes 1 k)
  | .getEvents h n => some (h, 0x03, leBytes 1 n)
  | .setEventMask h b m => some (h, 0x04, leBytes 1 b ++ leBytes 1 m)
  | .getCounters h p n => some (h, 0x05, leBytes 2 p ++ leBytes 1 n)
  | .timeRead h => some (h, 0x06, [])
  | .timeSetAlarm h t a => some (h, 0x07, leBytes 8 t ++ leBytes 1 a)
  | .fwPatchBegin h n d => some (h, 0x08, leBytes 4 n ++ d)
  | .fwPatchData h o d => some (h, 0x09, leBytes 4 o ++ d)
  | .fwPatchCommit h => some (h, 0x0A, [])
  | .paramGet h p => some (h, 0x10, leBytes 2 p)
  | .paramSet h p v => some (h, 0x11, leBytes 2 p ++ leBytes 4 v)
  | .paramSetMany h l => some (h, 0x12, leBytes 1 l.length ++ l.flatMap (fun p => leBytes 2 p.1 ++ leBytes 4 p.2))
  | .tableRead h t f c => some (h, 0x13, leBytes 1 t ++ leBytes 2 f ++ leBytes 2 c)
  | .tableWrite h t f c e => some (h, 0x14, leBytes 1 t ++ leBytes 2 f ++ leBytes 2 c ++ e)
  | .tableCommit h t => some (h, 0x15, leBytes 1 t)
  | .rfTuneWindow h p e => some (h, 0x20, leBytes 1 p ++ leBytes 4 e)
  | .rfCalibrate h i => some (h, 0x21, leBytes 1 i)
  | .rfScanStart h a b c n => some (h, 0x22, leBytes 4 a ++ leBytes 4 b ++ leBytes 4 c ++ leBytes 1 n)
  | .rfScanStop h => some (h, 0x23, [])
  | .rfSetGain h a m g => some (h, 0x24, leBytes 1 a ++ leBytes 1 m ++ sBytes 1 g)
  | .rfGetSpectrum h f n => some (h, 0x25, leBytes 4 f ++ leBytes 2 n)
  | .rfCoordinate h l c o => some (h, 0x26, leBytes 1 l ++ leBytes 1 c ++ leBytes 1 o)
  | .linkOpen h l f c m s a =>
    some (h, 0x30, leBytes 1 l ++ leBytes 4 f ++ leBytes 1 c ++ leBytes 1 m ++ leBytes 2 s ++ leBytes 2 a)
  | .linkClose h l => some (h, 0x31, leBytes 1 l)
  | .linkRetune h l f p => some (h, 0x32, leBytes 1 l ++ leBytes 4 f ++ leBytes 8 p)
  | .linkStatus h l => some (h, 0x33, leBytes 1 l)
  | .linkSetAlt h l fs => some (h, 0x34, leBytes 1 l ++ leBytes 1 fs.length ++ fs.flatMap (leBytes 4))
  | .linkPrivilege h l o => some (h, 0x35, leBytes 1 l ++ leBytes 1 o)
  | .carrierOpen h c f k st s e =>
    some (h, 0x40, leBytes 1 c ++ leBytes 4 f ++ leBytes 1 k ++ leBytes 1 st ++ leBytes 2 s ++ leBytes 1 e)
  | .carrierClose h c => some (h, 0x41, leBytes 1 c)
  | .carrierSetPower h c st => some (h, 0x42, leBytes 1 c ++ leBytes 1 st)
  | .carrierRetune h c f p => some (h, 0x43, leBytes 1 c ++ leBytes 4 f ++ leBytes 8 p)
  | .txEnable h m => some (h, 0x44, leBytes 2 m)
  | .txDisable h m => some (h, 0x45, leBytes 2 m)
  | .clStart h f p => some (h, 0x50, leBytes 4 f ++ sBytes 1 p)
  | .clStop h => some (h, 0x51, [])
  | .sessionAdd h s t f k => some (h, 0x52, leBytes 1 s ++ leBytes 4 t ++ leBytes 1 f ++ k)
  | .sessionRemove h s => some (h, 0x53, leBytes 1 s)
  | .sessionSend h s d => some (h, 0x54, leBytes 1 s ++ leBytes 2 d.length ++ d)
  | .sessionStatus h s => some (h, 0x55, leBytes 1 s)
  | .clHop h k i f p => some (h, 0x56, leBytes 1 k ++ leBytes 1 i ++ leBytes 4 f ++ leBytes 8 p)
  | .portConfig h p f r n ro sb im om d =>
    some (h, 0x60, leBytes 1 p ++ leBytes 1 f ++ leBytes 1 r ++ leBytes 1 n ++ leBytes 1 ro ++ leBytes 1 sb ++
      leBytes 4 im ++ leBytes 4 om ++ leBytes 1 d)
  | .portStart h m st p => some (h, 0x61, leBytes 1 m ++ leBytes 1 st ++ leBytes 8 p)
  | .portStop h m => some (h, 0x62, leBytes 1 m)
  | .routeSet h r a b g => some (h, 0x63, leBytes 2 r ++ leBytes 2 a ++ leBytes 2 b ++ sBytes 2 g)
  | .routeClear h r => some (h, 0x64, leBytes 2 r)
  | .mixSetGain h b c g => some (h, 0x65, leBytes 1 b ++ leBytes 1 c ++ sBytes 2 g)
  | .tapConfig h r p o l => some (h, 0x66, leBytes 2 r ++ leBytes 1 p ++ leBytes 4 o ++ leBytes 4 l)
  | .analogConfig h t f v => some (h, 0x67, leBytes 1 t ++ leBytes 1 f ++ sBytes 4 v)
  | .progLoad h r f w => some (h, 0x70, leBytes 1 r ++ leBytes 2 f ++ leBytes 2 w.length ++ w.flatMap (leBytes 4))
  | .progAdmit h r c => some (h, 0x71, leBytes 1 r ++ leBytes 1 c)
  | .progRetire h r => some (h, 0x72, leBytes 1 r)
  | .coefWrite h r b f w =>
    some (h, 0x73, leBytes 1 r ++ leBytes 1 b ++ leBytes 2 f ++ leBytes 2 w.length ++ w.flatMap (sBytes 2))
  | .coefSwap h r p => some (h, 0x74, leBytes 1 r ++ leBytes 8 p)
  | .measConfig h c ch r o n t d =>
    some (h, 0x80, leBytes 1 c ++ leBytes 1 ch ++ leBytes 2 r ++ leBytes 1 o ++ leBytes 1 n ++ leBytes 1 t ++ leBytes 2 d)
  | .measNow h c ch => some (h, 0x81, leBytes 1 c ++ leBytes 1 ch)
  | .measStreamStart h m o l => some (h, 0x82, leBytes 1 m ++ leBytes 4 o ++ leBytes 4 l)
  | .measStreamStop h m => some (h, 0x83, leBytes 1 m)
  | .cdacSet h c v u => some (h, 0x84, leBytes 1 c ++ leBytes 2 v ++ leBytes 1 u)
  | .cdacRange h c r => some (h, 0x85, leBytes 1 c ++ leBytes 1 r)
  | .powerStateRequest h t => some (h, 0x90, leBytes 1 t)
  | .powerStatus h => some (h, 0x91, [])
  | .domainHold h d o => some (h, 0x92, leBytes 1 d ++ leBytes 1 o)
  | .budgetQuery h r i => some (h, 0xA0, leBytes 1 r ++ leBytes 1 i)
  | .marginReplan h => some (h, 0xA1, [])
  | .ageingReport h => some (h, 0xA2, [])
  | .cosignPropose h d => some (h, 0xB0, d)
  | .cosignApprove h t => some (h, 0xB1, t)
  | .cosignCancel h => some (h, 0xB2, [])
  | .cosignStatus h => some (h, 0xB3, [])
  | .nonceGet h => some (h, 0xB4, [])
  | .rattleArm h p t v => some (h, 0xF0, leBytes 1 p ++ leBytes 1 t ++ leBytes 4 v)
  | .rattleDisarm h p => some (h, 0xF1, leBytes 1 p)
  | .testLoopback h k i => some (h, 0xF2, leBytes 1 k ++ leBytes 1 i)
  | .badOpcode h op => some (h, op, [])
  | .syncArmOneShot h => some (h, 0x11, leBytes 2 0x1013 ++ leBytes 4 1)
  | .syncArmMonitor h => some (h, 0x11, leBytes 2 0x1013 ++ leBytes 4 2)
  | .syncDisarm h => some (h, 0x11, leBytes 2 0x1013 ++ leBytes 4 0)
  | .txMsgSend h c n => some (h, 0x11, leBytes 2 (0x4047 + 0x40 * c) ++ leBytes 4 n)
  | .poweredHoursWrite h v => some (h, 0x11, leBytes 2 0xA022 ++ leBytes 4 v)
  | _ => none

/-- The class of an opcode: 1 A, 2 B, 3 C (02 R58). A reserved opcode returns one reply, as class A does. -/
def classOf (op : Nat) : Nat :=
  if [0x08, 0x09, 0x12, 0x14, 0x15, 0x20, 0x22, 0x30, 0x31, 0x32, 0x34, 0x35, 0x40, 0x41, 0x43, 0x44, 0x50, 0x52, 0x53,
      0x60, 0x61, 0x62, 0x63, 0x64, 0x65, 0x66, 0x67, 0x70, 0x71, 0x72, 0x73, 0x80, 0x82, 0x85, 0x92, 0xF0,
      0xF2].contains op then 2
  else if [0x0A, 0x21, 0x26, 0x54, 0x56, 0x81, 0x90, 0xA1].contains op then 3
  else 1

/-- An object of 02 R51. Windows 0 RX, 1 TX; `usesWindow` uses one without naming it. -/
inductive Obj where
  | link (n : Nat)
  | carrier (n : Nat)
  | session (n : Nat)
  | port (n : Nat)
  | route (n : Nat)
  | bus (n : Nat)
  | rod (n : Nat)
  | converter (n : Nat)
  | cdac (n : Nat)
  | table (n : Nat)
  | window (n : Nat)
  | usesWindow (n : Nat)
  deriving DecidableEq, Repr

/-- Whether two objects make a command wait for an earlier one (02 R51). -/
def Obj.conflicts (a b : Obj) : Bool :=
  match a, b with
  | .window i, .usesWindow j => i == j
  | .usesWindow i, .window j => i == j
  | .usesWindow _, .usesWindow _ => false
  | a, b => decide (a = b)

/-- The objects to which a parameter belongs (02 R51). -/
def pidObjects (pid : Nat) : List Obj :=
  let n := (canonPid pid).2
  if 0x3000 ≤ pid ∧ pid < 0x4000 then [.link n]
  else if 0x4040 ≤ pid ∧ pid < 0x4440 then [.carrier n]
  else if 0x6040 ≤ pid ∧ pid < 0x6100 then [.port n]
  else if 0x6180 ≤ pid ∧ pid < 0x61A0 then [.bus n]
  else if 0x7040 ≤ pid ∧ pid < 0x7140 then [.rod n]
  else if pid = 0x8008 ∨ pid = 0x8009 then [.converter 0]
  else if pid = 0x800A ∨ pid = 0x800B then [.converter 1]
  else if pid = 0x800C then [.converter 0, .converter 1]
  else if 0x8040 ≤ pid ∧ pid < 0x8060 then [.cdac n]
  else []

/-- The objects of a source and of a destination of a route (11 R328). -/
def endObjects (src dst : Nat) : List Obj :=
  (if src < 64 then [.link src]
   else if 0x100 ≤ src ∧ src < 0x1C0 then [.port ((src - 0x100) / 32)]
   else if 0x200 ≤ src ∧ src < 0x220 then [.bus (src - 0x200)]
   else if 0x300 ≤ src ∧ src < 0x400 then [.rod ((src - 0x300) / 4)] else []) ++
  (if 0x1000 ≤ dst ∧ dst < 0x1020 then [.carrier ((dst - 0x1000) / 2)]
   else if 0x1100 ≤ dst ∧ dst < 0x11C0 then [.port ((dst - 0x1100) / 32)]
   else if 0x1200 ≤ dst ∧ dst < 0x1220 then [.bus (dst - 0x1200)]
   else if 0x1300 ≤ dst ∧ dst < 0x1400 then [.rod ((dst - 0x1300) / 4)] else [])

/-- The session that a command names; 0xFFFF names none. -/
def sesObjects (n : Nat) : List Obj := if n = 0xFFFF then [] else [.session n]

/-- The objects a command names (02 R51). A parameter of an object, an endpoint of a route and a mask name those objects: DESIGN
CHOICE. -/
def objectsOf : Instr → List Obj
  | .paramGet _ p => pidObjects p
  | .paramSet _ p _ => pidObjects p
  | .paramSetMany _ l => l.flatMap (fun x => pidObjects x.1)
  | .getCounters _ f n => (List.range n).flatMap (fun i => pidObjects (f + i))
  | .txMsgSend _ c _ => [.carrier c]
  | .testLoopback _ k i => if k = 1 then [.port i] else []
  | .tableRead _ t _ _ => [.table t]
  | .tableWrite _ t _ _ _ => [.table t]
  | .tableCommit _ t => [.table t]
  | .rfTuneWindow _ p _ => [.window p]
  | .rfCalibrate _ _ => [.window 0, .window 1]
  | .rfScanStart _ _ _ _ _ => [.usesWindow 0]
  | .rfCoordinate _ _ _ _ => [.usesWindow 0, .usesWindow 1]
  | .linkOpen _ l _ _ _ n _ => [.link l, .usesWindow 0] ++ sesObjects n
  | .linkClose _ l => [.link l]
  | .linkRetune _ l _ _ => [.link l, .usesWindow 0]
  | .linkStatus _ l => [.link l]
  | .linkSetAlt _ l _ => [.link l, .usesWindow 0]
  | .linkPrivilege _ l _ => [.link l]
  | .carrierOpen _ c _ _ _ n _ => [.carrier c, .usesWindow 1] ++ sesObjects n
  | .carrierClose _ c => [.carrier c]
  | .carrierSetPower _ c _ => [.carrier c]
  | .carrierRetune _ c _ _ => [.carrier c, .usesWindow 1]
  | .txEnable _ m => (maskBits 16 m).map .carrier ++ [.usesWindow 1]
  | .txDisable _ m => (maskBits 16 m).map .carrier
  | .sessionAdd _ s _ _ _ => [.session s]
  | .sessionRemove _ s => [.session s]
  | .sessionSend _ s _ => [.session s]
  | .sessionStatus _ s => [.session s]
  | .clHop _ k i _ _ => if k = 0 then [.link i, .usesWindow 0] else if k = 1 then [.carrier i, .usesWindow 1] else []
  | .portConfig _ p _ _ _ _ _ _ _ _ => [.port p]
  | .portStart _ m _ _ => (maskBits 8 m).map .port
  | .portStop _ m => (maskBits 8 m).map .port
  | .routeSet _ r a b _ => .route r :: endObjects a b
  | .routeClear _ r => [.route r]
  | .mixSetGain _ b _ _ => [.bus b]
  | .tapConfig _ r _ _ _ => [.route r]
  | .progLoad _ r _ _ => [.rod r]
  | .progAdmit _ r _ => [.rod r]
  | .progRetire _ r => [.rod r]
  | .coefWrite _ r _ _ _ => [.rod r]
  | .coefSwap _ r _ => [.rod r]
  | .measConfig _ c _ _ _ _ _ _ => [.converter c]
  | .measNow _ c _ => [.converter c]
  | .measStreamStart _ m _ _ => (maskBits 8 m).map .converter
  | .measStreamStop _ m => (maskBits 8 m).map .converter
  | .cdacSet _ c _ _ => [.cdac c]
  | .cdacRange _ c _ => [.cdac c]
  | _ => []

end Sys2Proof.Machine
end

