-- ==== Sys2Proof/Machine/Cosign.lean ====
section
/-! DEFINITION. OTP slots, policy and keys in force, proposals, and the cosign check that every protected command
passes (16 R427 to R441, 02 R56). -/

namespace Sys2Proof.Machine

/-! ### OTP (16 R439, R440) -/

/-- A byte of the OTP: burnt in the field, or as the part left manufacture. -/
def otpAt (s : State) (a : Nat) : Byte := (smFind s.prot.otp a).elim (Config.otpByte a) (BitVec.ofNat 8)

/-- Consecutive OTP bytes. -/
def otpBytes (s : State) (a n : Nat) : List Byte := (List.range n).map (fun i => otpAt s (a + i))

/-- Slot kinds: 0 Operator key, 1 Custodian key, 2 policy. -/
def slotAddr (kind i : Nat) : Nat := if kind = 2 then 0x90 + 4 * i else 0x10 + 0x40 * kind + 16 * i
def slotLen (kind : Nat) : Nat := if kind = 2 then 4 else 16
def slotBytes (s : State) (kind i : Nat) : List Byte := otpBytes s (slotAddr kind i) (slotLen kind)
def slotCheck (s : State) (kind i : Nat) : Nat := leNat (otpBytes s (0x1C0 + 2 * (4 * kind + i)) 2)

/-- A slot is valid when it is not all zero and its check word is the CRC-16 of its bytes. -/
def slotValid (s : State) (kind i : Nat) : Bool :=
  (slotBytes s kind i).any (fun b => b != 0) && slotCheck s kind i == crc16 (slotBytes s kind i)

/-- A blank slot and its check word are all zero. DEDUCED. -/
def slotBlank (s : State) (kind i : Nat) : Bool := (slotBytes s kind i).all (fun b => b == 0) && slotCheck s kind i == 0

/-- The highest valid slot of a kind. -/
def slotInForce (s : State) (kind : Nat) : Option Nat := [3, 2, 1, 0].find? (slotValid s kind)

/-- The lowest blank slot above the highest that is not blank, which a burn uses. -/
def slotToBurn (s : State) (kind : Nat) : Option Nat :=
  match [3, 2, 1, 0].find? (fun i => !slotBlank s kind i) with
  | none => some 0
  | some i => if i < 3 then some (i + 1) else none

/-- The number of a role (16 R437): 1 Operator, 2 Custodian. -/
def roleNo (c : Chan) : Nat := chanNo c + 1

/-- The key of a role in force. -/
def keyOf (s : State) (c : Chan) : Option (List Byte) := (slotInForce s (chanNo c)).map (slotBytes s (chanNo c))

/-- The policy in force (16 R440). -/
def policy (s : State) : Nat := ((slotInForce s 2).map (fun i => leNat (slotBytes s 2 i))).getD 0x00030000

def labPart (s : State) : Bool := (otpAt s 4).getLsbD 0
def otpLocked (s : State) : Bool := (otpAt s 4).getLsbD 1

/-- Spoilt slots of all kinds. -/
def spoiltSlots (s : State) : Nat :=
  ([0, 1, 2].flatMap (fun k => [0, 1, 2, 3].filter (fun i => !slotBlank s k i && !slotValid s k i))).length

/-- Burn bytes. -/
def otpBurn (a : Nat) (bs : List Byte) (s : State) : State :=
  let m := (bs.zipIdx).foldl (fun m (p : Byte × Nat) => smPut m (a + p.2) p.1.toNat) s.prot.otp
  { s with prot := { s.prot with otp := m } }

/-! ### Proposals (16 R431 to R437) -/

/-- Thirty seconds in ticks. -/
def sec30 : Nat := 30 * 122880000

/-- The state of the proposal: 0 NONE, 1 PROPOSED, 2 APPROVED, 3 PATCHING (16 R437). -/
def protState (s : State) : Nat :=
  match s.prot.proposal with
  | none => 0
  | some p => if p.patch.isSome then 3 else if p.approved then 2 else 1

/-- Bytes 0 to 3 of a digest as the u32 of an event detail. -/
def digestWord (d : List Byte) : Nat := leNat (d.take 4)

def setProposal (p : Option Proposal) (s : State) : State := { s with prot := { s.prot with proposal := p } }

def alertCosign (s : State) : State := raiseAlert (fun f => { f with alertCosign := true }) s

/-- A proposal ends by expiry (16 R435, R438). -/
def expireProposal (s : State) : State :=
  match s.prot.proposal with
  | none => s
  | some p =>
    alertCosign (queueEvent 0xB004 (roleNo p.role) (protState s) (bump P.protExpiries (setProposal none s)))

/-- Expiry is judged at a command's start (16 R436). -/
def judgeExpiry (s : State) : State :=
  match s.prot.proposal with
  | some p => if (if p.patch.isSome then p.patchAt else p.made) + sec30 ≤ now s then expireProposal s else s
  | none => s

/-- A rejection: counted, and COSIGN_REJECT with its reason (16 R433, R434, R449). -/
def cosignReject (c : Chan) (reason : Nat) (s : State) : State :=
  queueEvent 0xB003 (roleNo c) reason (bump P.protRejects s)

/-- The canonical image of a command, to which TABLE_COMMIT appends its table (16 R430). -/
def canonicalImage (op : Nat) (params : List Byte) : List Byte :=
  [BitVec.ofNat 8 op, 0x20] ++ leBytes 2 params.length ++ params

/-- The cosign check of a protected command (02 R56, 16 R434): its status, the digest word of the approval it
consumed, and the state. -/
def cosignCheck (h : Hdr) (image : List Byte) (s : State) : Status × Option Nat × State :=
  if !h.cosign then (.needsCosign, none, s)
  else
    let s := judgeExpiry s
    match s.prot.proposal with
    | some p =>
      if p.approved && p.patch.isNone then
        if sha256 image = p.digest then (.ok, some (digestWord p.digest), setProposal none s)
        else (.cosignRejected, none, cosignReject h.ch 3 (alertCosign (setProposal none s)))
      else (.cosignRejected, none, cosignReject h.ch 5 s)
    | none => (.cosignRejected, none, cosignReject h.ch 5 s)

end Sys2Proof.Machine
end

