-- ==== Sys2Proof/Machine/Ledger.lean ====
section
/-! DEFINITION. The Reckoner's ledger: costs, budgets and pools, admission, placement on rods, release (03 R66 to R81,
10 R300). -/

namespace Sys2Proof.Machine

/-! ### Costs of the kinds of work (03 R72) -/

def noCost : Cost := { rod := none, cycles := 0, uses := [] }
def linkCycles (cls : Nat) : Nat := if cls = 0 then 120000 else if cls = 1 then 61000 else 41000
def linkUses : List Use := [⟨1, 0, 2⟩, ⟨3, 0, 1⟩, ⟨7, 0, 1024⟩]
def carrierCycles (cls : Nat) : Nat := if cls = 0 then 90000 else if cls = 1 then 46000 else 31000
def carrierUses : List Use := [⟨7, 0, 512⟩]
def busCycles (n : Nat) : Nat := if n = 0 then 0 else 600 + 30 * n
def busUses (n : Nat) : List Use := if n = 0 then [] else [⟨4, 0, 24⟩]

/-- Work kinds (03 R91): 9 stands for a scan, which has no event. -/
def wkLink : Nat := 1
def wkCarrier : Nat := 2
def wkBus : Nat := 3
def wkProgram : Nat := 4
def wkRoute : Nat := 5
def wkPort : Nat := 6
def wkTap : Nat := 7
def wkStream : Nat := 8
def wkScan : Nat := 9

/-! ### Prices and accounts -/

/-- T_c that the ledger uses: during a plan's transition the larger of the old and the new (03 R79). -/
def ledgerTc (s : State) : Nat :=
  max (parGet s P.rckCycleCert) (s.age.plan.elim 0 Plan.newTc)

/-- T_c at which admission costs (03 R78). -/
def admitTc (s : State) : Nat :=
  if parGet s P.rckAdmitPolicy = 1 then max (parGet s P.rckCycleLifetime) (ledgerTc s) else ledgerTc s

/-- The pips of a count of cycles, rounded once per item (03 R67). -/
def pips (tc cycles : Nat) : Nat := ceilDiv (cycles * tc) 1000

/-- T_c of a price: work admitted under the lifetime policy keeps its price (03 R78). -/
def priceTc (s : State) (p : Price) : Nat :=
  if p.lifetime then max (parGet s P.rckCycleLifetime) (ledgerTc s) else ledgerTc s

/-- The amount of a cost on a resource. -/
def costOn (tc : Nat) (c : Cost) (res idx : Nat) : Nat :=
  (if res = 0 ∧ c.rod = some idx then pips tc c.cycles else 0) +
    ((c.uses.filter (fun u => u.res == res && u.idx == idx)).map Use.amount).sum

/-- Rods reserved by firmware or holding an admitted program, the count of resource 8. -/
def rodsTaken (s : State) : Nat :=
  (s.rods.filter (fun p => p.2.phase != .free && p.2.phase != .loaded)).length

/-- The amount of a price on a resource. -/
def priceOn (s : State) (p : Price) (res idx : Nat) : Nat := costOn (priceTc s p) p.cost res idx

/-- The cost of a bus of `n` inputs on a rod. -/
def busCost (r : Option Nat) (n : Nat) : Cost := { rod := if n = 0 then none else r, cycles := busCycles n, uses := busUses n }

/-- The rod of an item. -/
def chargeRod (c : Charge) : Option Nat :=
  (c.new.cost.rod.or (c.waits.findSome? (fun w => w.price.cost.rod))).or c.old.cost.rod

/-- What the reservations on an item make of its price; those on a bus add up. -/
def asked (c : Charge) : List Price :=
  if c.work.kind = wkBus then
    (if c.waits.isEmpty then []
     else [⟨busCost (chargeRod c) (c.inputs + (c.waits.map Reserve.inputs).sum), c.waits.any (fun w => w.price.lifetime)⟩])
  else c.waits.map Reserve.price

/-- The committed amount of a resource: of each item the largest of the price in force, the one admitted and those reserved, and
the firmware overhead (03 R72, R75, R76). -/
def committed (s : State) (res idx : Nat) : Nat :=
  if res = 8 then rodsTaken s
  else (s.rck.charges.map (fun c =>
      (c.new :: asked c).foldl (fun m p => max m (priceOn s p res idx)) (priceOn s c.old res idx))).sum +
    (if res = 7 then 400000 else 0)

/-- Slots of a port as its configuration sets them (03 R69). -/
def portSlots (s : State) (p : Nat) : Nat :=
  if (port s p).phase = .unconfigured then 0 else if (port s p).cfg.rate = 0 then 32 else 16

/-- The budget or pool size of a resource at a T_c (03 R69); none: no such resource or index. -/
def budgetOf (s : State) (tc res idx : Nat) : Option Nat :=
  match res with
  | 0 => if idx < 64 then some 490000 else none
  | 1 => if idx = 0 then some 128 else none
  | 2 => if idx = 0 then some 16 else none
  | 3 => if idx = 0 then some 64 else none
  | 4 => if idx = 0 then some (40000 * 1100 / tc) else none
  | 5 => if idx < 6 then some (portSlots s idx) else none
  | 6 => if idx = 0 then some 64 else none
  | 7 => if idx = 0 then some (1600000 * 1100 / tc) else none
  | 8 => if idx = 0 then some 64 else none
  | _ => none

/-- Whether a resource is a budget, which carries headroom (03 R70). -/
def isBudget (res : Nat) : Bool := res == 0 || res == 4 || res == 7

/-- The admission limit: a budget less headroom, rounded down; a pool its size (03 R70). The slots of a port are
bounded by the masks that PORT_CONFIG accepts. -/
def limitOf (s : State) (res idx : Nat) : Nat :=
  let b := (budgetOf s (admitTc s) res idx).getD 0
  if res = 5 then 32 else if isBudget res then b * (1000 - parGet s P.rckHeadroom) / 1000 else b

/-- Every resource of the ledger with its index, in the order of 03 R69. -/
def resources : List (Nat × Nat) :=
  (List.range 64).map (fun r => (0, r)) ++ [(1, 0), (2, 0), (3, 0), (4, 0)] ++ (List.range 6).map (fun p => (5, p)) ++
    [(6, 0), (7, 0), (8, 0)]

/-! ### Asks -/

/-- Where an item's rod work goes: nowhere, on the rod the host names, or placed by firmware on a rod of a kind. -/
inductive RodNeed where
  | nowhere
  | named (r : Nat)
  | placed (kind : RodPhase)
  deriving DecidableEq, Repr

/-- One change that a command asks of the ledger; `inputs` are those that it adds to a bus. -/
structure Ask where
  work : WorkRef
  need : RodNeed
  cycles : Nat
  uses : List Use
  inputs : Nat := 0
  deriving DecidableEq, Repr

/-! ### Placement (03 R77, 10 R300) -/

/-- The code of a reserved rod's kind (10 R299). -/
def rodPhaseNo : RodPhase → Nat
  | .free => 0 | .loaded => 1 | .running => 2 | .link => 3 | .carrier => 4 | .bus => 5

/-- Whether PROG_LOAD, COEF_WRITE or PROG_ADMIT is running on a rod (10 R300). -/
def rodBusy (s : State) (r : Nat) : Bool :=
  s.running.any (fun q => match q.cmd with
    | .progLoad _ r' _ _ => r == r'
    | .coefWrite _ r' _ _ _ => r == r'
    | .progAdmit _ r' _ => r == r'
    | _ => false)

/-- The better of two rods for new work: more committed pips, then the higher number (03 R77). -/
def betterRod (s : State) (a b : Nat) : Nat :=
  let ca := committed s 0 a
  let cb := committed s 0 b
  if ca > cb || (ca == cb && a > b) then a else b

/-- The rod for new work of a kind: a reserved rod of the kind with room, else the highest FREE or LOADED rod; the
flag tells that the rod is newly reserved. -/
def placeRod (s : State) (kind : RodPhase) (cycles : Nat) : Option (Nat × Bool) :=
  let need := pips (admitTc s) cycles
  let room := (List.range 64).filter (fun r =>
    (rod s r).phase == kind && committed s 0 r + need ≤ limitOf s 0 r)
  match room with
  | r :: rs => some (rs.foldl (betterRod s) r, false)
  | [] => (((List.range 64).reverse.find? (fun r =>
      ((rod s r).phase == .free || (rod s r).phase == .loaded) && !rodBusy s r))).map (fun r => (r, true))

/-- Reserve a rod for firmware: ROD_RESERVED. Its program is lost when the command completes. -/
def reserveRod (r : Nat) (kind : RodPhase) (s : State) : State :=
  queueEvent 0x7001 r (rodPhaseNo kind) (onRod r (fun q => { q with phase := kind, was := q.phase }) s)

/-- An item of the ledger uses a rod. -/
def rodUsed (s : State) (r : Nat) : Bool :=
  s.rck.charges.any (fun c => c.old.cost.rod == some r || c.new.cost.rod == some r ||
    c.waits.any (fun w => w.price.cost.rod == some r))

/-- A rod is reserved for firmware. -/
def firmwareRod (q : Rod) : Bool := q.phase == .link || q.phase == .carrier || q.phase == .bus

/-- A reserved rod on which no charge is left returns as FREE, with every program word NOP: ROD_RELEASED. -/
def releaseRods (s : State) : State :=
  each (List.range 64) (fun r s =>
    let q := rod s r
    if firmwareRod q && !rodUsed s r then
      queueEvent 0x7002 r (rodPhaseNo q.phase) (onRod r (fun _ => Rod.reset) s)
    else s) s

/-! ### Admission and release (03 R74 to R76) -/

/-- The charge of an item. -/
def chargeOf (s : State) (w : WorkRef) : Option Charge := s.rck.charges.find? (fun c => c.work == w)

def setCharges (cs : List Charge) (s : State) : State := { s with rck := { s.rck with charges := cs } }

/-- Replace or add a charge. -/
def putCharge (c : Charge) (s : State) : State :=
  setCharges (s.rck.charges.filter (fun d => d.work != c.work) ++ [c]) s

/-- The rod of an ask: the rod its work has already, the named rod, or a placed one; false: no rod is free. -/
def askRod (a : Ask) (s : State) : Option Nat × Bool × State :=
  match (chargeOf s a.work).bind chargeRod with
  | some r => (some r, true, s)
  | none =>
    match a.need with
    | .nowhere => (none, true, s)
    | .named r => (some r, true, s)
    | .placed k =>
      match placeRod s k a.cycles with
      | some (r, true) => (some r, true, reserveRod r k s)
      | some (r, false) => (some r, true, s)
      | none => (none, false, s)

/-- No cost. -/
def noPrice : Price := ⟨noCost, false⟩

/-- An item that has no cost and no reservation. -/
def emptyCharge (w : WorkRef) : Charge := ⟨w, noPrice, noPrice, 0, []⟩

/-- A charge without the reservation of a command. -/
def withoutKey (key : Nat) (c : Charge) : List Reserve := c.waits.filter (fun w => w.key != key)

/-- Enter one ask in the ledger as a reservation of its command, at the price of the admission policy; false: no rod. -/
def enterAsk (key : Nat) (x : State × Bool) (a : Ask) : State × Bool :=
  let (r, found, s) := if a.cycles = 0 then (none, true, x.1) else askRod a x.1
  let price : Price := ⟨{ rod := r, cycles := a.cycles, uses := a.uses }, parGet s P.rckAdmitPolicy == 1⟩
  let c := (chargeOf s a.work).getD (emptyCharge a.work)
  (putCharge { c with waits := withoutKey key c ++ [⟨key, a.inputs, price⟩] } s, x.2 && found)

/-- A refusal: counted, and the first resource that failed (03 R74). -/
def refuse (res idx : Nat) (s : State) : State :=
  parSet P.rckLastRefusal (256 * res + idx) (bump P.rckRefusals s)

/-- Admission of the asks of one command: reserved if no resource whose cost rises exceeds its limit (03 R74). -/
def admitFor (key : Nat) (asks : List Ask) (s : State) : Status × State :=
  let (t, found) := asks.foldl (enterAsk key) (s, true)
  match resources.find? (fun r => committed t r.1 r.2 > committed s r.1 r.2 && committed t r.1 r.2 > limitOf s r.1 r.2) with
  | some (res, idx) => (.refusedCapacity, refuse res idx s)
  | none => if found then (.ok, t) else (.refusedCapacity, refuse 8 0 s)

/-- A charge whose reservation by a command is admitted. -/
def admitCharge (key : Nat) (c : Charge) : Charge :=
  match c.waits.find? (fun w => w.key == key) with
  | none => c
  | some w =>
    let n := c.inputs + w.inputs
    { c with
      new := if c.work.kind = wkBus then (if w.inputs = 0 then c.new else ⟨busCost (chargeRod c) n, w.price.lifetime⟩) else w.price
      inputs := n, waits := withoutKey key c }

/-- A command holds a reservation on an item. -/
def holdsWait (key : Nat) (c : Charge) : Bool := c.waits.any (fun w => w.key == key)

/-- The reservations of a command are admitted: they begin at the next boundary, and a rod newly taken loses its program. -/
def commitFor (key : Nat) (mine : WorkRef → Bool) (s : State) : State :=
  let cs := s.rck.charges.filter (fun c => mine c.work && holdsWait key c)
  let s := setCharges (s.rck.charges.map (fun c => if mine c.work then admitCharge key c else c)) s
  each cs (fun c s =>
    match chargeRod c with
    | some r => if firmwareRod (rod s r) then onRod r (fun q => { Rod.reset with phase := q.phase }) s else s
    | none => s) s

/-- The reservations of a command are released at once (03 R75); a rod that only they had taken is again what it was. -/
def dropFor (key : Nat) (mine : WorkRef → Bool) (s : State) : State :=
  let rods := (s.rck.charges.filter (fun c => mine c.work && holdsWait key c)).filterMap chargeRod
  let cs := s.rck.charges.map (fun c => if mine c.work then { c with waits := withoutKey key c } else c)
  let s := setCharges (cs.filter (fun c => c != emptyCharge c.work)) s
  each rods (fun r s =>
    if firmwareRod (rod s r) && !rodUsed s r then
      queueEvent 0x7002 r (rodPhaseNo (rod s r).phase) (onRod r (fun q => { q with phase := q.was }) s)
    else s) s

/-- Admission, its completion and its release, of a command that is alone in asking for its items. -/
def admitWork (asks : List Ask) (s : State) : Status × State := admitFor 0 asks s
def commitWork (ws : List WorkRef) (s : State) : State := commitFor 0 ws.contains s
def dropWork (ws : List WorkRef) (s : State) : State := dropFor 0 ws.contains s

/-- Work ends: its cost is released at the boundary from which it stops (03 R76). -/
def endWork (w : WorkRef) (s : State) : State :=
  match chargeOf s w with
  | some c => putCharge { c with new := noPrice, inputs := 0 } s
  | none => s

/-- The ledger at a boundary: admitted costs take over, ended work leaves, rods without work are released. -/
def boundaryLedger (s : State) : State :=
  let cs := s.rck.charges.map (fun c => { c with old := c.new })
  releaseRods (setCharges (cs.filter (fun c => c != emptyCharge c.work)) s)

/-- Resources whose committed cost exceeds their budget (03 R81). -/
def overcommitted (s : State) : List (Nat × Nat) :=
  resources.filter (fun r => isBudget r.1 && committed s r.1 r.2 > (budgetOf s (ledgerTc s) r.1 r.2).getD 0)

/-- Budgets whose committed cost stands above the limit at the T_c of the ledger (03 R80). -/
def aboveLimit (s : State) : List (Nat × Nat) :=
  resources.filter (fun r => isBudget r.1 &&
    decide (((budgetOf s (ledgerTc s) r.1 r.2).getD 0) * (1000 - parGet s P.rckHeadroom) / 1000 < committed s r.1 r.2))

/-- Resources reported above their limit or budget are forgotten once they stand below it, so that a later crossing is
reported again (03 R80, R81). -/
def forgetBelow (s : State) : State :=
  let keep (now : State → List (Nat × Nat)) (l : List (Nat × Nat)) : List (Nat × Nat) :=
    if l.isEmpty then l else l.filter (now s).contains
  { s with rck := { s.rck with overLimit := keep aboveLimit s.rck.overLimit
                               overBudget := keep overcommitted s.rck.overBudget } }

end Sys2Proof.Machine
end

