-- ==== Sys2Proof/Machine/Harness.lean ====
section
/-! DEFINITION. How a host command runs: tag checks, start order, its own checks, cosign, domain wakes, start and
completion replies (02 R49 to R56, 04 R107, 15 R409, 18 R469). -/

namespace Sys2Proof.Machine

/-- What one host command does, in the parts that the protocol separates. Every function leaves tags and replies to
the protocol. -/
structure Prog where
  /-- Every check of its own at the start, in the spec's order, with the ledger reservation; on a refusal the state
  returned keeps the counters only. -/
  check : State → Status × State := fun s => (.ok, s)
  /-- The domains it needs (02 R54). -/
  needs : State → List Nat := fun _ => []
  /-- The bytes that TABLE_COMMIT adds to its canonical image; none: it is not protected (16 R428, R430). -/
  guard : State → Option (List Byte) := fun _ => none
  /-- Its start reply waits for a lock instant (04 R107). -/
  late : State → Bool := fun _ => false
  /-- Its work begins; what it waits for (none: it completes at once) and the value it keeps. -/
  begin : State → Option Wait × Nat × State := fun s => (none, 0, s)
  /-- What follows the lock instant that `begin` waited for. -/
  resume : Nat → State → Option Wait × Nat × State := fun a s => (none, a, s)
  /-- Its changes, applied in one step at completion (02 R53): status, payload, state. -/
  apply : Nat → State → Status × List Byte × State := fun _ s => (.ok, [], s)
  /-- Undo of the work it has begun, when it ends with another status (02 R53). -/
  undo : Nat → State → State := fun _ s => s
  /-- Release of what its check reserved, when it ends with another status (02 R53, 03 R75). -/
  drop : State → State := fun s => s

/-- A class A command without waits: checks, then reply payload and effect. -/
def Prog.direct (check : State → Status) (apply : State → List Byte × State) (needs : List Nat := []) : Prog :=
  { check := fun s => (check s, s), needs := fun _ => needs, apply := fun _ s => let (p, t) := apply s; (.ok, p, t) }

/-- The first failing check of a list, in order; `ok` when none fails. -/
def firstFail : List (Bool × Status) → Status
  | [] => .ok
  | (b, st) :: l => if b then st else firstFail l

/-! ### Ends of commands -/

/-- A command that has left `running` ends with a status (02 R49, R52, 16 R434). -/
def finish (r : Running) (st : Status) (payload : List Byte) (s : State) : State :=
  let s := match st, r.cosigned with
    | .ok, some d => queueEvent 0xB006 (256 * r.op + r.hdr.tag) d (bump P.protApplied s)
    | _, _ => s
  if r.cls = 1 || !r.accepted then sendReply r.hdr r.op false st payload true s
  else if r.hdr.roc then sendReply r.hdr r.op true st payload true s
  else
    let s := onChan r.hdr.ch (fun c => freeTag c r.hdr.tag) s
    if st = .ok then s else queueEvent 0x0001 (cmdArg r.hdr r.op) st.code s

/-- Apply the changes of a command and end it; with a status other than OK it changes nothing (02 R53). -/
def complete (p : Prog) (r : Running) (s : State) : State :=
  let (st, pl, t) := p.apply r.aux s
  finish r st pl (if st = .ok then t else p.drop (p.undo r.aux t))

/-- A command has begun its work: it neither stalls on a wake nor is held from its start. -/
def begun (r : Running) : Bool :=
  match r.wait with
  | .domainWake _ => false
  | .delayStart => false
  | _ => true

/-- What a command reserved and began is undone. -/
def undone (p : Prog) (r : Running) (s : State) : State := p.drop (if begun r then p.undo r.aux s else s)

/-- A command ends without its changes. -/
def failCmd (p : Prog) (r : Running) (st : Status) (pl : List Byte) (s : State) : State :=
  finish r st pl (undone p r s)

def isSame (r q : Running) : Bool := r.hdr.ch == q.hdr.ch && r.hdr.tag == q.hdr.tag

/-- Take a command out of `running`. -/
def stopRunning (r : Running) (s : State) : State := { s with running := s.running.filter (fun q => !isSame r q) }

/-- Put a command into `running`, or replace it there. -/
def putRunning (r : Running) (s : State) : State := { stopRunning r s with running := (stopRunning r s).running ++ [r] }

/-! ### REPLY_DELAY (18 R468, R469) -/

/-- Whether REPLY_DELAY acts on a channel. -/
def replyDelayed (s : State) (c : Chan) : Bool :=
  match smFind s.rattle.armed 3 with
  | some p => !p.starting && (p.target == 2 || p.target == chanNo c)
  | none => false

/-- An injection of a perturbation: counted, and reported at most once per second (18 R469, R470). -/
def injected (n : Nat) (s : State) : State :=
  match smFind s.rattle.armed n with
  | none => s
  | some p =>
    queueCounted (0xF003 * 65536 + n) sec1 0xF003 (n + 256 * p.target) (bump (P.tstInjections (n - 1)) s)

/-- A command is held: the first of a period counts as the period's injection (18 R469). -/
def replyHeld (s : State) : State :=
  match smFind s.rattle.armed 3 with
  | some p => if p.left = 0 then injected 3 { s with rattle := { s.rattle with armed := smPut s.rattle.armed 3 { p with left := 1 } } }
    else s
  | none => s

/-- Rattle never delays its own commands (18 R468). -/
def isRattleOp (op : Nat) : Bool := op == 0xF0 || op == 0xF1

/-! ### Starting a command -/

/-- The rails a domain needs, by number in the rails table (19 R481). -/
def domRails (d : Nat) : List Nat :=
  if d = Dom.rfa || d = Dom.txd || d = Dom.clr then [5] else if d = Dom.ckg then [6]
  else if d = Dom.ana then [6, 7, 8] else []

def railsUp (s : State) (d : Nat) : Bool := (domRails d).all (fun r => s.supply.up.getLsbD r)

/-- The start reply ACCEPTED of a class B or C command, once (02 R52). -/
def accept (r : Running) (s : State) : Running × State :=
  if r.cls = 1 || r.accepted then (r, s)
  else ({ r with accepted := true }, sendReply r.hdr r.op false .accepted [] false s)

/-- A command goes on to its next wait, or completes. A wait for a lock instant keeps the start reply back (04 R107);
a class B or C command is held by REPLY_DELAY after its work, before it completes (18 R469). -/
def proceed (p : Prog) (r : Running) (w : Option Wait) (s : State) : State :=
  match w with
  | some (.lock id) => putRunning { r with wait := .lock id } s
  | some w =>
    let (r, s) := accept r s
    putRunning { r with wait := w } s
  | none =>
    let (r, s) := accept r s
    if r.cls ≠ 1 && replyDelayed s r.hdr.ch && !isRattleOp r.op then
      putRunning { r with wait := .replyDelay } (replyHeld s)
    else complete p r (stopRunning r s)

/-- The work of a command whose domains run. -/
def beginWork (p : Prog) (r : Running) (s : State) : State :=
  let (w, aux, s) := p.begin s
  proceed p { r with aux := aux } w s

/-- The lock instant a command waited for has come (04 R107). -/
def resumeWork (p : Prog) (r : Running) (s : State) : State :=
  let (r, s) := accept r s
  let (w, aux, s) := p.resume r.aux s
  proceed p { r with aux := aux } w s

/-- The work of a command is done; REPLY_DELAY may hold a class B or C command before it completes. -/
def workDone (p : Prog) (r : Running) (s : State) : State :=
  proceed p r none s

/-- The wake of a domain on demand (15 R409). -/
def wakeDomain (d : Nat) (s : State) : State :=
  if domOn s d || s.power.coming.contains d then s
  else bump P.pwrDomainWakes { s with power := { s.power with coming := s.power.coming ++ [d], comingAt := smPut s.power.comingAt d (now s) } }

/-- After the checks: a domain whose rails are down ends the command, a domain that is off stalls it (02 R54,
19 R481). -/
def needDomains (p : Prog) (r : Running) (s : State) : State :=
  if (p.needs s).all (railsUp s) then
    match (p.needs s).filter (fun d => !domOn s d) with
    | [] => beginWork p r s
    | d :: ds =>
      let (r, s) := if p.late s then (r, s) else accept r s
      putRunning { r with wait := .domainWake d } (each (d :: ds) wakeDomain s)
  else
    let (r, s) := accept r s
    failCmd p r .hwFault [] s

/-- The status of the command's own checks and of its domains: fields and lengths first, then a domain that the power
state excludes (02 R54), then the rest. -/
def ownChecks (p : Prog) (s : State) : Status × State :=
  let (st, t) := p.check s
  if st = .badParam then (st, t)
  else if (p.needs s).all (domAllowed s.power.state) then (st, t) else (.badState, s)

/-- Checks, cosign, start reply, work (02 R52, R56). -/
def runCmd (p : Prog) (r : Running) (params : List Byte) (s : State) : State :=
  let (st, t) := ownChecks p s
  if st ≠ .ok then finish r st [] t
  else
    let (st, d, t) := match p.guard s with
      | none => (Status.ok, none, t)
      | some extra =>
        match cosignCheck r.hdr (canonicalImage r.op params ++ extra) s with
        | (.ok, d, u) => (.ok, d, { t with prot := u.prot })
        | (st, d, u) => (st, d, u)
    if st ≠ .ok then finish r st [] t
    else
      needDomains p { r with cosigned := d } t

/-- A packet starts execution: its tag enters flight (02 R49). REPLY_DELAY holds a class A command from its start. -/
def launch (p : Prog) (cmd : Instr) (h : Hdr) (op : Nat) (params : List Byte) (s : State) : State :=
  let s := bump P.sysCmdsExecuted (onChan h.ch (fun c => { c with tags := c.tags ||| tagBit h.tag }) s)
  let r : Running := { hdr := h, op := op, cmd := cmd, cls := classOf op, wait := .delayStart, accepted := false,
                       cosigned := none, aux := 0 }
  if r.cls = 1 && replyDelayed s h.ch && !isRattleOp op then putRunning r (replyHeld s)
  else runCmd p r params s

/-- Whether a command must wait before starting: for an object, for the class C command that runs, or, a
POWER_STATE_REQUEST, for a margin plan (02 R51, 17 R460). -/
def mustWait (cmd : Instr) (op : Nat) (s : State) : Bool :=
  s.running.any (fun r => (objectsOf r.cmd).any (fun a => (objectsOf cmd).any (fun b => Obj.conflicts b a))) ||
    (classOf op == 3 && s.running.any (fun r => r.cls == 3)) || (op == 0x90 && s.age.plan.isSome)

/-- The tag checks of a packet with a correct CRC (02 R49): the refusal, if any. -/
def tagCheck (h : Hdr) (s : State) : Option Status :=
  if tagsInFlight (chan s h.ch) ≥ 16 then some .busyTags
  else if (chan s h.ch).tags.getLsbD h.tag then some .dupTag else none

/-- A packet refused by its tag: a reply that consumes no tag (02 R49). -/
def refuseTag (h : Hdr) (op : Nat) (st : Status) (s : State) : State :=
  sendReply h op false st [] false
    (bump (if st = .busyTags then P.sysBusyTagsCount else P.sysDupTagCount) s)

/-- Bytes of a channel's command FIFO in use: the packet in assembly and the packets that wait (02 R42). -/
def cmdLevel (s : State) (c : Chan) : Nat :=
  (chan s c).asm.length + ((s.waiting.filter (fun a => a.hdr.ch == c)).map Arrived.size).sum

/-- A channel enters discard mode (02 R42): cause 2 FIFO overflow, 3 length above 1024. -/
def enterDiscard (c : Chan) (cause : Nat) (s : State) : State :=
  queueEvent 0x0003 (chanNo c) cause (bump P.sysPktDiscarded
    (onChan c (fun k => { k with asm := [], discard := true, intDiscard := true }) s))

/-- A whole host command arrives at the front of nothing that waits: it is checked and started, or waits (02 R49,
R51). While SEQ does not run, and in discard mode, its bytes have no effect (02 R38, R42). -/
def submit (p : Prog) (cmd : Instr) (s : State) : State :=
  match encodeCmd cmd with
  | none => s
  | some (h, op, params) =>
    if !s.seq.running || (chan s h.ch).discard then s
    else if cmdLevel s h.ch + 6 + params.length > 2048 then enterDiscard h.ch 2 s
    else if s.waiting.isEmpty then
      match tagCheck h s with
      | some st => refuseTag h op st s
      | none =>
        if mustWait cmd op s then { s with waiting := [⟨h, op, params, some cmd, 6 + params.length⟩] }
        else launch p cmd h op params s
    else { s with waiting := s.waiting ++ [⟨h, op, params, some cmd, 6 + params.length⟩] }

/-! ### Waits that an instant ends -/

/-- The commands that wait for something. -/
def waitingFor (w : Wait) (s : State) : List Running := s.running.filter (fun r => r.wait == w)

/-- Whether a command of an opcode is running. -/
def runningOp (op : Nat) (s : State) : Bool := s.running.any (fun r => r.op == op)

end Sys2Proof.Machine
end

