-- ==== Sys2Proof/Machine/Router.lean ====
section
/-! DEFINITION. The router: endpoints, latency values, gains, ramps, route, bus and tap commands (11 R328 to R338). -/

namespace Sys2Proof.Machine

/-! ### Endpoints (11 R328) -/

/-- Router sources. -/
inductive Src where
  | link (n : Nat)
  | portIn (p k : Nat)
  | bus (b : Nat)
  | rodOut (r k : Nat)
  | mic (i : Nat)
  deriving DecidableEq, Repr

/-- Router destinations. -/
inductive Dst where
  | carrier (c side : Nat)
  | portOut (p k : Nat)
  | bus (b : Nat)
  | rodIn (r k : Nat)
  | localOut (i : Nat)
  deriving DecidableEq, Repr

/-- The source of an ID; none: reserved. -/
def srcOf (i : Nat) : Option Src :=
  if i < 64 then some (.link i)
  else if 0x100 ≤ i ∧ i < 0x1C0 then some (.portIn ((i - 0x100) / 32) (i % 32))
  else if 0x200 ≤ i ∧ i < 0x220 then some (.bus (i - 0x200))
  else if 0x300 ≤ i ∧ i < 0x400 then some (.rodOut ((i - 0x300) / 4) (i % 4))
  else if 0x400 ≤ i ∧ i < 0x404 then some (.mic (i - 0x400))
  else none

/-- The destination of an ID; none: reserved. -/
def dstOf (i : Nat) : Option Dst :=
  if 0x1000 ≤ i ∧ i < 0x1020 then some (.carrier ((i - 0x1000) / 2) (i % 2))
  else if 0x1100 ≤ i ∧ i < 0x11C0 then some (.portOut ((i - 0x1100) / 32) (i % 32))
  else if 0x1200 ≤ i ∧ i < 0x1220 then some (.bus (i - 0x1200))
  else if 0x1300 ≤ i ∧ i < 0x1400 then some (.rodIn ((i - 0x1300) / 4) (i % 4))
  else if 0x1400 ≤ i ∧ i < 0x1405 then some (.localOut (i - 0x1400))
  else none

/-- Whether a destination takes any number of routes. -/
def manyRoutes (d : Nat) : Bool := match dstOf d with | some (.bus _) => true | _ => false

/-! ### Latency (11 R328, R329), in samples at 48 kHz -/

/-- The latency of a class: 1.0, 1.5, 2.0 ms. -/
def classSamples (cls : Nat) : Nat := 48 + 24 * cls

/-- The latency value of a source into a destination; none: its class is not yet set. The 0.31 ms and 0.81 ms of a local input, 14.88
and 38.88 samples, are taken as 15 and 39: DESIGN CHOICE. -/
def srcSamples (s : State) (a : Src) (d : Dst) : Option Nat :=
  match a with
  | .link n => if (link s n).isOpen then some (classSamples (link s n).cls) else none
  | .portIn _ _ => some 24
  | .bus b => some (classSamples (bus s b).cls)
  | .rodOut r _ => if (rod s r).phase = .running then some (classSamples (rod s r).cls) else none
  | .mic _ => match d with
    | .portOut _ _ => some 15
    | .localOut _ => some 15
    | _ => some 39

/-- The limit of a destination; none: it has none, or its class is not yet set. -/
def dstSamples (s : State) (d : Dst) : Option Nat :=
  match d with
  | .carrier c _ => if (carrier s c).phase = .closed then none else some (classSamples (carrier s c).cls - 24)
  | .portOut _ _ => none
  | .bus b => some (classSamples (bus s b).cls)
  | .rodIn r _ => if (rod s r).phase = .running then some (classSamples (rod s r).cls - 24) else none
  | .localOut _ => none

/-- Whether the latency of a source fits its destination. -/
def latencyFits (s : State) (src dst : Nat) : Bool :=
  match srcOf src, dstOf dst with
  | some a, some d => match srcSamples s a d, dstSamples s d with
    | some v, some l => decide (v ≤ l)
    | _, _ => true
  | _, _ => true

/-- The delay of a route, samples: its destination receives it at the limit. -/
def routeDelay (s : State) (src dst : Nat) : Nat :=
  match srcOf src, dstOf dst with
  | some a, some d => match srcSamples s a d, dstSamples s d with
    | some v, some l => l - v
    | _, _ => 0
  | _, _ => 0

/-- Routes in use or fading, in order. -/
def liveRoutes (s : State) : List (Nat × Route) := s.audio.routes.filter (fun p => p.2.inUse || p.2.fading)

/-- Whether every route in use fits in a state where an object has the class it requests (11 R329); a misfit counts
`AUD.LATENCY_REFUSALS`. -/
def routesFit (s : State) : Bool := (liveRoutes s).all (fun p => latencyFits s p.2.src p.2.dst)

/-! ### Gains (11 R330) -/

/-- The greatest `a` below 2^46 with a / 2^44 at most 10^(g / 200). -/
def gainFloor (g : Int) : Nat :=
  ((List.range 46).reverse).foldl (fun a i =>
    let b := a + 2 ^ i
    if (if 0 ≤ g then decide (b ^ 200 ≤ 10 ^ g.toNat * 2 ^ 8800) else decide (b ^ 200 * 10 ^ (-g).toNat ≤ 2 ^ 8800))
    then b else a) 0

/-- The linear gain of a code in 0.1 dB, held to 24 significant bits; 0x8000 is off. -/
def linGain (g : Int) : Rat :=
  if g = -32768 then 0
  else if g = 0 then 1
  else
    let a := gainFloor g
    let k := a.log2 - 23
    ((((a / 2 ^ k) + a / 2 ^ (k - 1) % 2) * 2 ^ k : Nat) : Rat) / ((2 ^ 44 : Nat) : Rat)

/-- A gain code in range. -/
def gainCodeOk (g : Int) : Bool := decide ((-1200 ≤ g ∧ g ≤ 120) ∨ g = -32768)

/-- Round half up. -/
def ratRound (x : Rat) : Int := (x + 1 / 2).floor

/-- A sample times a gain, rounded half up and saturated to 24 bits, and whether it saturated. -/
def scaleSample (g : Rat) (x : Int) : Int × Bool :=
  let y := ratRound (g * x)
  let z := clampI (-8388608) 8388607 y
  (z, z != y)

/-! ### Ramps (11 R334, R335) -/

/-- The gain of sample `i` of the present period. -/
def Ramp.gainAt (r : Ramp) (i : Nat) : Rat :=
  if r.phase = 2 ∧ r.beginAt ≤ i then
    let j := r.m + (i - r.beginAt)
    if j < 48 then r.g0 + (r.target - r.g0) * ((j + 1 : Nat) : Rat) / 48 else r.target
  else r.cur

/-- A ramp at the end of a period. -/
def Ramp.advance (r : Ramp) : Ramp :=
  if r.phase = 2 then
    let m := r.m + (24 - r.beginAt)
    if m < 48 then { r with m := m, beginAt := 0, cur := r.gainAt 23 }
    else { r with m := 0, beginAt := 0, cur := r.target, phase := 0 }
  else r

/-- A changed target takes effect at a boundary: a search begins, or with `AUD.ZC_ENABLE` 0 the ramp. -/
def Ramp.start (t : Nat) (wait : Bool) (r : Ramp) : Ramp :=
  match r.next with
  | none => r
  | some g =>
    let r := { r with next := none, edge := none }
    if g = r.cur && r.phase == 0 then { r with target := g }
    else { r with target := g, g0 := r.cur, m := 0, beginAt := 0, since := t, phase := if wait then 1 else 2 }

/-- The ramp begins at a sample of the present period. -/
def Ramp.fire (sample : Nat) (r : Ramp) : Ramp :=
  if r.phase = 1 then { r with phase := 2, g0 := r.cur, m := 0, beginAt := min sample 23 } else r

/-- Whether a ramp comes to its target within the present period. -/
def Ramp.endsNow (r : Ramp) : Bool := r.phase == 0 && r.next.isNone || r.phase == 2 && decide (48 ≤ r.m + (24 - r.beginAt))

/-- Scale a block by a ramp: samples, and whether any saturated. -/
def rampBlock (r : Ramp) (x : List Int) : List Int × Bool :=
  let ys := (List.range 24).map (fun i => scaleSample (r.gainAt i) (x.getD i 0))
  (ys.map Prod.fst, ys.any Prod.snd)

/-! ### Costs (03 R72) -/

def is96 (s : State) (p : Nat) : Bool := (port s p).phase != .unconfigured && (port s p).cfg.rate == 1

/-- The router moves of a route. -/
def routeUses (s : State) (src dst : Nat) : List Use :=
  let a := match srcOf src with | some (.portIn p _) => is96 s p | _ => false
  let b := match dstOf dst with | some (.portOut p _) => is96 s p | _ => false
  [⟨4, 0, if a || b then 48 else 24⟩]

def routeAsk (s : State) (n src dst : Nat) : Ask :=
  { work := ⟨wkRoute, n⟩, need := .nowhere, cycles := 0, uses := routeUses s src dst }

/-- The number that names the commands of a route in the ledger, and that of a commit of `ROUTE`. -/
def routeKey (n : Nat) : Nat := n + 1
def commitKey : Nat := 513

/-- The bus that a destination feeds. -/
def busOfDst (d : Nat) : Option Nat := match dstOf d with | some (.bus b) => some b | _ => none

/-- Routes that cost a bus an input. -/
def busInputs (s : State) (b : Nat) : Nat := ((liveRoutes s).filter (fun p => busOfDst p.2.dst == some b)).length

/-- A command adds `n` inputs to a bus. -/
def busAsk (b n : Nat) : Ask :=
  { work := ⟨wkBus, b⟩, need := .placed .bus, cycles := busCycles n, uses := busUses n, inputs := n }

/-- A bus takes the cost of its present inputs; reservations on it stay. -/
def recostBus (b : Nat) (s : State) : State :=
  let n := busInputs s b
  if n = 0 then endWork ⟨wkBus, b⟩ s
  else match chargeOf s ⟨wkBus, b⟩ with
    | some c => putCharge { c with new := { c.new with cost := busCost (chargeRod c) n }, inputs := n } s
    | none => s

/-! ### ROUTE_SET and ROUTE_CLEAR (11 R330, R331) -/

/-- Entries of the table in force as the host sees them. -/
def Route.entry (r : Route) : RouteEntry := { src := r.src, dst := r.dst, gain := r.gain, inUse := r.inUse }

def RouteEntry.reset : RouteEntry := { src := 0, dst := 0, gain := 0, inUse := false }

/-- Make a change in the pending copy of `ROUTE` when one exists (11 R332). -/
def mirrorRoute (n : Nat) (e : RouteEntry) (s : State) : State :=
  onAudio (fun a => { a with routesPending := a.routesPending.map (fun m => smSet RouteEntry.reset m n e) }) s

/-- Count a latency refusal (11 R329, R330). -/
def latencyRefusal (s : State) : Status × State := (.refusedCapacity, bump P.audLatencyRefusals s)

/-- The field checks of a route. -/
def routeFieldsOk (src dst : Nat) (gain : Int) : Bool :=
  (srcOf src).isSome && (dstOf dst).isSome && gainCodeOk gain &&
    !((match srcOf src with | some (.bus _) => true | _ => false) && manyRoutes dst)

/-- Whether a destination that takes one route has another route in use. -/
def dstTaken (s : State) (n dst : Nat) : Bool :=
  !manyRoutes dst && s.audio.routes.any (fun p => p.1 != n && p.2.inUse && p.2.dst == dst)

/-- The asks of a route: itself, and the bus it feeds if it is a new input. -/
def routeAsks (s : State) (n src dst : Nat) : List Ask :=
  routeAsk s n src dst :: (match busOfDst dst with
    | some b =>
      let r := route s n
      let held := (r.inUse || r.fading) && busOfDst r.dst == some b
      [busAsk b (if held then 0 else 1)]
    | none => [])

/-- Put a route in use, or change its gain. -/
def setRoute (n src dst : Nat) (gain : Int) (s : State) : State :=
  let r := route s n
  let fresh := !(r.inUse && r.active)
  onRoute n (fun r =>
    if fresh then { Route.reset with src := src, dst := dst, gain := gain, inUse := true,
                                     ramp := { Ramp.at 0 with next := some (linGain gain) } }
    else { r with gain := gain, ramp := { r.ramp with next := some (linGain gain) } }) s

def progRouteSet (n src dst : Nat) (gain : Int) : Prog :=
  { check := fun s =>
      let r := route s n
      match firstFail [
        (decide (n > 511) || !routeFieldsOk src dst gain, .badParam),
        (r.fading || (r.inUse && (r.src != src || r.dst != dst)), .badState),
        (dstTaken s n dst, .badState)] with
      | .ok => if !latencyFits s src dst then latencyRefusal s else admitFor (routeKey n) (routeAsks s n src dst) s
      | st => (st, s)
    needs := fun _ => if (busOfDst dst).isSome then [Dom.aud, Dom.abc] else [Dom.aud]
    apply := fun _ s =>
      (.ok, [], mirrorRoute n ⟨src, dst, gain, true⟩ (setRoute n src dst gain (commitFor (routeKey n) (fun _ => true) s)))
    drop := dropFor (routeKey n) (fun _ => true) }

def execRouteSet (h : Hdr) (route source dest : Nat) (gain : Int) (s : State) : Host.Outcome State Fault Refusal :=
  .next (submit (progRouteSet route source dest gain) (.routeSet h route source dest gain) s)

/-! ### Taps (11 R337, R338) -/

/-- The tap of a route. -/
def tapOf (s : State) (n : Nat) : Option Nat :=
  (List.range 16).find? (fun t => (tap s t).length != 0 && (tap s t).route == n)

/-- A tap ends: TAP_REMOVED; its buffer keeps its contents and its cost is released. -/
def removeTap (n : Nat) (s : State) : State :=
  match tapOf s n with
  | none => s
  | some t => queueEvent 0x6009 t n (endWork ⟨wkTap, t⟩ (onTap t (fun _ => Tap.reset) s))

/-- Whether two buffers overlap. -/
def overlaps (a la b lb : Nat) : Bool := decide (a < b + lb ∧ b < a + la)

/-- Whether a buffer overlaps a tap other than that of route `n`, or a stream unless `n` is 512. -/
def bufferTaken (s : State) (n off len : Nat) : Bool :=
  s.audio.taps.any (fun p => p.2.length != 0 && p.2.route != n && overlaps off len p.2.start p.2.length) ||
    s.inst.stream.any (fun x => overlaps off len x.start x.length)

/-- The slot a tap of a route takes: its own, the one that its command has reserved, or the first that is neither in use nor
reserved. -/
def tapSlot (s : State) (n : Nat) : Option Nat :=
  let waits (t : Nat) : List Reserve := (chargeOf s ⟨wkTap, t⟩).elim [] Charge.waits
  match tapOf s n with
  | some t => some t
  | none => ((List.range 16).find? (fun t => (waits t).any (fun w => w.key == routeKey n))).or
      ((List.range 16).find? (fun t => (tap s t).length == 0 && (waits t).isEmpty))

def tapUses (packing : Nat) : List Use := [⟨4, 0, 24⟩, ⟨7, 0, 24 * packing⟩]

def tapAsk (t packing : Nat) : Ask := { work := ⟨wkTap, t⟩, need := .nowhere, cycles := 0, uses := tapUses packing }

def tapCheck (n packing off len : Nat) (s : State) : Status × State :=
  let r := route s n
  match firstFail [
    (decide (n > 511 ∨ (packing ≠ 3 ∧ packing ≠ 4)), .badParam),
    (decide (off % 4 ≠ 0), .badParam),
    (decide (len ≠ 0 ∧ (len % (24 * packing) ≠ 0 ∨ len < 48 * packing ∨ off + len > 0x40000)), .badParam),
    (decide (len ≠ 0) && bufferTaken s n off len, .badParam),
    (!r.inUse || r.fading, .badState),
    (decide (len ≠ 0) && (tapSlot s n).isNone, .refusedCapacity)] with
  | .ok => match tapSlot s n with
    | some t => if len = 0 then (.ok, s) else admitFor (routeKey n) [tapAsk t packing] s
    | none => (.ok, s)
  | st => (st, s)

def progTapConfig (n packing off len : Nat) : Prog :=
  { check := tapCheck n packing off len
    needs := fun _ => [Dom.aud, Dom.mem]
    apply := fun _ s =>
      if len = 0 then (.ok, [], removeTap n s)
      else match tapSlot s n with
        | none => (.refusedCapacity, [], s)
        | some t => (.ok, [], commitFor (routeKey n) (fun _ => true) (onTap t (fun _ => ⟨n, packing, off, len, off⟩) s))
    drop := dropFor (routeKey n) (fun _ => true) }

def execTapConfig (h : Hdr) (route packing offset length : Nat) (s : State) : Host.Outcome State Fault Refusal :=
  .next (submit (progTapConfig route packing offset length) (.tapConfig h route packing offset length) s)

/-- A route begins to fade out; one that never ran is removed at the next boundary without a fade. -/
def fadeRoute (n : Nat) (s : State) : State :=
  let live := (chargeOf s ⟨wkRoute, n⟩).isSome
  removeTap n (onRoute n (fun r => { r with inUse := false, fading := true, ended := !live,
                                            ramp := { r.ramp with next := some 0 } }) s)

def progRouteClear (n : Nat) : Prog :=
  { check := fun s => (firstFail [(decide (n > 511), .badParam), (!(route s n).inUse, .badState)], s)
    needs := fun _ => [Dom.aud]
    apply := fun _ s =>
      let r := route s n
      (.ok, [], mirrorRoute n ⟨r.src, r.dst, r.gain, false⟩ (fadeRoute n s)) }

def execRouteClear (h : Hdr) (route : Nat) (s : State) : Host.Outcome State Fault Refusal :=
  .next (submit (progRouteClear route) (.routeClear h route) s)

/-! ### TABLE_COMMIT of ROUTE (11 R332) -/

/-- The routes that a commit sets: IN_USE and not ACTIVE, or with other fields. -/
def commitSets (m : SMap RouteEntry) (s : State) : List (Nat × RouteEntry) :=
  m.filter (fun p => p.2.inUse && (!(route s p.1).active || (route s p.1).entry != p.2))

/-- The routes that a commit clears. -/
def commitClears (m : SMap RouteEntry) (s : State) : List Nat :=
  ((s.audio.routes.filter (fun p => p.2.inUse)).map Prod.fst).filter (fun n => !(smGet RouteEntry.reset m n).inUse)

/-- The table in force after a commit, for the checks against the committed result. -/
def committedRoutes (m : SMap RouteEntry) (s : State) : State :=
  each (commitClears m s) (fun n => onRoute n (fun r => { r with inUse := false, fading := r.active }))
    (each (commitSets m s) (fun p => onRoute p.1 (fun r =>
      { r with src := p.2.src, dst := p.2.dst, gain := p.2.gain, inUse := true })) s)

/-- The buses that a commit feeds, each with the inputs that it adds to it. -/
def commitBuses (m : SMap RouteEntry) (s : State) : List (Nat × Nat) :=
  let t := committedRoutes m s
  ((List.range 32).filter (fun b => (commitSets m s).any (fun p => busOfDst p.2.dst == some b))).map
    (fun b => (b, busInputs t b - busInputs s b))

/-- The first failing check of a route commit, or the reservation. -/
def routeCommitCheck (s : State) : Status × State :=
  match s.audio.routesPending with
  | none => (.ok, s)
  | some m =>
    let t := committedRoutes m s
    let sets := commitSets m s
    let one (p : Nat × RouteEntry) : Status := firstFail [
      (!routeFieldsOk p.2.src p.2.dst p.2.gain, .badParam),
      ((route s p.1).fading, .badState),
      (dstTaken t p.1 p.2.dst, .badState),
      (!latencyFits t p.2.src p.2.dst, .refusedCapacity)]
    match sets.find? (fun p => one p != .ok) with
    | some p => match one p with
      | .refusedCapacity => latencyRefusal s
      | st => (st, s)
    | none => admitFor commitKey (sets.map (fun p => routeAsk s p.1 p.2.src p.2.dst) ++
        (commitBuses m s).map (fun b => busAsk b.1 b.2)) s

/-- A route commit applied. A bus that a route has left costs less from the next boundary (03 R76). -/
def applyRouteCommit (s : State) : State :=
  match s.audio.routesPending with
  | none => s
  | some m =>
    let sets := commitSets m s
    let clears := commitClears m s
    let s := commitFor commitKey (fun _ => true) s
    let s := each clears fadeRoute s
    let s := each sets (fun p s =>
      let r := route s p.1
      if r.inUse && r.active && (r.src != p.2.src || r.dst != p.2.dst) then
        setRoute p.1 p.2.src p.2.dst p.2.gain (removeTap p.1 (onRoute p.1 (fun _ => Route.reset) s))
      else setRoute p.1 p.2.src p.2.dst p.2.gain s) s
    each (List.range 32) recostBus (onAudio (fun a => { a with routesPending := none }) s)

/-! ### MIX_SET_GAIN (11 R333) -/

def progMixSetGain (b cls : Nat) (gain : Int) : Prog :=
  { check := fun s => (firstFail [
      (decide (b > 31 ∨ cls > 2) || !gainCodeOk gain, .badParam),
      (cls != (bus s b).cls && (liveRoutes s).any (fun p => busOfDst p.2.dst == some b || srcOf p.2.src == some (.bus b)),
        .badState)], s)
    needs := fun _ => [Dom.aud]
    apply := fun _ s =>
      (.ok, [], onBus b (fun x => { x with cls := cls, gain := gain, ramp := { x.ramp with next := some (linGain gain) } }) s) }

def execMixSetGain (h : Hdr) (bus cls : Nat) (gain : Int) (s : State) : Host.Outcome State Fault Refusal :=
  .next (submit (progMixSetGain bus cls gain) (.mixSetGain h bus cls gain) s)

end Sys2Proof.Machine
end

