-- ==== Sys2Proof/Machine/AnalogCommands.lean ====
section
/-! DEFINITION. Local analog audio: ANALOG_CONFIG, the start and stop sequences of its objects, jack sense (12 R341 to
R359). -/

namespace Sys2Proof.Machine

/-! ### Settings -/

/-- The range of a field of a target; none: not listed (12 R341). -/
def anaRange (t f : Nat) : Option (Nat × Nat) :=
  if t ≤ 3 then (match f with | 0 => some (0, 3) | 1 => some (0, 2) | 2 => some (0, 2) | 3 => some (0, 120) | _ => none)
  else if t ≤ 5 then (if f = 0 then some (0, 3) else none)
  else if t ≤ 8 then (match f with | 0 => some (0, 2) | 1 => some (0, 60) | 2 => some (0, 1)
                                   | 3 => if t = 8 then some (1, 3) else none | _ => none)
  else if t = 9 then (match f with | 0 => some (0, 1) | 1 => some (0, 1) | 2 => some (10, 250) | _ => none)
  else none

/-- The parameter field that shows a setting (12 R365). -/
def anaKey (t f : Nat) : Nat :=
  if t ≤ 3 then (match f with | 0 => P.audMic1Cfg t | 1 => P.audMic1Cfg2 t | 2 => P.audMic1Cfg4 t | _ => P.audMic1Cfg8 t)
  else if t = 4 then P.audMicbiasCfg
  else if t = 5 then P.audMicbiasCfg2
  else if t = 6 ∨ t = 7 then
    (match f with | 0 => P.audHp1Cfg (t - 6) | 1 => P.audHp1Cfg8 (t - 6) | _ => P.audHp1Cfg16 (t - 6))
  else if t = 8 then (match f with | 0 => P.audSpkCfg | 1 => P.audSpkCfg8 | 2 => P.audSpkCfg16 | _ => P.audSpkCfg2)
  else (match f with | 0 => P.audJackState | 1 => P.audJackState1 | _ => P.audJackState8)

def anaSet (s : State) (t f : Nat) : Nat := parGet s (anaKey t f)

/-! ### Sequences (12 R345 to R355) -/

/-- Whether an object is to run by its settings and the jacks (12 R351, R354). -/
def anaWanted (s : State) (t : Nat) : Bool :=
  let m := anaSet s t 0
  if t ≤ 5 then m != 0
  else if t ≤ 7 then m == 1 || (m == 2 && (if t = 6 then s.ana.jack1 else s.ana.jack2))
  else
    let w := anaSet s 8 3
    m == 1 || (m == 2 && !((w.testBit 0 && s.ana.jack1) || (w.testBit 1 && s.ana.jack2)))

/-- Ticks of a time in milliseconds. -/
def msTicks (ms : Nat) : Nat := ms * 122880

/-- The settling time of an input (12 R345), ms. -/
def settleMs (s : State) (i : Nat) : Nat := match anaSet s i 1 with | 0 => 5 | 1 => 25 | _ => 10

/-- The level of a bias output's setting, mV (12 R341). -/
def biasSetting (v : Nat) : Nat := match v with | 0 => 0 | 1 => 2000 | 2 => 2500 | _ => 2800

/-- The length of the start table of an output, ticks: a headphone output, the speaker (12 R351, R354). -/
def outLen (t : Nat) : Nat := if t = 8 then msTicks 21 else msTicks 3

/-- How far an output has come in its start table; the level of a bias output, which ramps over 10 ms, in mV (12 R347, R355). -/
def anaPos (s : State) (t : Nat) : Nat :=
  let o := ana s t
  let x := now s - o.since
  if t ≤ 5 then
    if o.phase = 2 then o.goal
    else if o.phase = 0 then 0
    else (o.pos * (msTicks 10 - x) + o.goal * min x (msTicks 10)) / msTicks 10
  else if o.phase = 1 then min (outLen t) (o.pos + x)
  else if o.phase = 2 then outLen t
  else if o.phase = 3 then o.pos - x
  else 0

/-- The length of a sequence that begins or turns round now. A bias output's ends with the last fade of the inputs that name it (12 R345
to R348, R351, R352, R354, R355). -/
def anaTime (s : State) (t : Nat) (up : Bool) : Nat :=
  if t ≤ 3 then (if up then msTicks (settleMs s t + 1) else msTicks 1)
  else if t ≤ 5 then
    msTicks (if (List.range 4).any (fun i => anaSet s i 2 + 3 == t && (ana s i).phase != 0) then 31 else 10)
  else if up then outLen t - anaPos s t
  else anaPos s t - (if t = 8 then 0 else msTicks 2)

/-- A sequence towards a state begins or turns round. -/
def anaSequence (t : Nat) (up : Bool) (s : State) : State :=
  onAna t (fun o => { o with phase := if up then 1 else 3, up := up, since := now s, pos := anaPos s t
                             goal := if up then biasSetting (anaSet s t 0) else 0, endAt := now s + anaTime s t up }) s

/-- Start or stop an object whose wanted state has changed; the speaker in FAULT, or clamped until its restart, stays. -/
def reviseAna (t : Nat) (s : State) : State :=
  let o := ana s t
  if t = 8 ∧ s.ana.spkRestart then s
  else if anaWanted s t then (if o.phase = 0 ∨ o.phase = 3 then anaSequence t true s else s)
  else if o.phase = 1 ∨ o.phase = 2 then anaSequence t false s
  else s

/-- Every output that follows a jack acts at the same instant (12 R358). -/
def reviseJacks (s : State) : State := each [6, 7, 8] reviseAna s

/-- An object restarts from its settings, as though they had just been commanded (12 R361, R362). -/
def restartAna (s : State) : State :=
  let s := { s with ana := { s.ana with objs := [], jack1 := false, jack2 := false, spkFaults := [], spkRestart := false, outs := []
                                        jack1At := now s, jack2At := now s } }
  each (List.range 9) reviseAna s

/-- The linear gain that an output takes (12 R350): its attenuation, or silence when muted. -/
def outGain (s : State) (t : Nat) : Rat := if anaSet s t 2 = 1 then 0 else linGain (-10 * (anaSet s t 1 : Int))

/-- A gain change is to ramp from the next boundary: an output to its new gain; an input takes a digital gain that is the
inverse of its PGA step, to ramp to unity (12 R342, R344). -/
def anaGain (t : Nat) (old : Nat) (s : State) : State :=
  if t ≤ 3 then
    let r := linGain (5 * ((old : Int) - anaSet s t 3))
    onAna t (fun o => { o with ramp := { o.ramp with next := some (r * o.ramp.next.getD 1) } }) s
  else onAna t (fun o => { o with ramp := { o.ramp with next := some (outGain s t) } }) s

/-- A pending gain change of an object begins its search at a boundary; an input keeps the inverse step as its target
until the crossing. -/
def anaRampStart (t time : Nat) (wait : Bool) (o : AnaObj) : AnaObj :=
  if t ≤ 3 then
    match o.ramp.next with
    | none => o
    | some r =>
      let p := if o.ramp.phase = 1 then o.ramp.target * r else r
      if wait then { o with ramp := { o.ramp with next := none, target := p, phase := 1, since := time } }
      else { o with ramp := { o.ramp with next := none, cur := o.ramp.cur * p, g0 := o.ramp.cur * p, target := 1, phase := 2,
                                          m := 0, beginAt := 0 } }
  else { o with ramp := o.ramp.start time wait }

/-- The crossing of an object's channel. -/
def anaRampFire (t sample : Nat) (o : AnaObj) : AnaObj :=
  if o.ramp.phase ≠ 1 then o
  else if t ≤ 3 then
    let g := o.ramp.cur * o.ramp.target
    { o with ramp := { o.ramp with cur := g, g0 := g, target := 1, phase := 2, m := 0, beginAt := min sample 23 } }
  else { o with ramp := o.ramp.fire sample }

/-! ### ANALOG_CONFIG -/

/-- Whether a field may start or stop an object, or restarts an input. -/
def startsSequence (t f : Nat) : Bool :=
  (t ≤ 3 && f ≤ 1) || t == 4 || t == 5 || (6 ≤ t && t ≤ 8 && (f == 0 || f == 3))

/-- A setting of that kind is written and its sequence begins; true: a sequence runs. -/
def anaBegin (t f v : Nat) (s : State) : Bool × State :=
  let old := anaSet s t f
  let s := parSet (anaKey t f) v s
  let s := if t = 8 ∧ f = 0 ∧ (ana s 8).phase = 4 then
      onAna 8 (fun o => { o with phase := 0 }) { s with ana := { s.ana with spkFaults := [] } } else s
  let o := ana s t
  let s :=
    if t ≤ 5 ∧ old ≠ v ∧ anaWanted s t ∧ (o.phase = 1 ∨ o.phase = 2) then anaSequence t true s
    else reviseAna t s
  let p := (ana s t).phase
  ((p == 1 || p == 3) && (ana s t).since == now s, s)

def progAnalogConfig (t f : Nat) (v : Int) : Prog :=
  { check := fun s => (if (match anaRange t f with | some (a, b) => decide ((a : Int) ≤ v ∧ v ≤ b) | none => false)
      then .ok else .badParam, s)
    needs := fun _ => [Dom.ana]
    begin := fun s =>
      let old := anaSet s t f
      if startsSequence t f then
        let (runs, s) := anaBegin t f v.toNat s
        (some (if runs then .analogSeq t else .boundary), old, s)
      else (some .boundary, old, s)
    apply := fun old s =>
      if startsSequence t f then (.ok, [], s)
      else
        let s := parSet (anaKey t f) v.toNat s
        (.ok, [], if t ≤ 3 ∧ f = 3 then anaGain t old s else if 6 ≤ t ∧ t ≤ 8 then anaGain t old s else s)
    undo := fun old s => if startsSequence t f then reviseAna t (parSet (anaKey t f) old s) else s }

def execAnalogConfig (h : Hdr) (target field : Nat) (value : Int) (s : State) : Host.Outcome State Fault Refusal :=
  .next (submit (progAnalogConfig target field value) (.analogConfig h target field value) s)

/-! ### What an input delivers (12 R345, R348) -/

/-- The bias output that an input names, when it is in a ramp. -/
def biasRamp (s : State) (i : Nat) : Option AnaObj :=
  let b := anaSet s i 2
  if b = 0 then none
  else let o := ana s (3 + b); if o.phase = 1 ∨ o.phase = 3 then some o else none

/-- An input is settled and delivers audio. -/
def micSettled (s : State) (i : Nat) : Bool := (ana s i).phase == 2 && (biasRamp s i).isNone

/-- The block of an input that enters the router, from its ADC block; `d` numbers free fade samples. -/
def micBlock (s : State) (i d : Nat) (x : List Int) : List Int :=
  let o := ana s i
  let settle := msTicks (settleMs s i)
  let y := (rampBlock o.ramp x).1
  let fade := (List.range 24).map (fun k => Config.fadeSample d k (y.getD k 0))
  let zero := List.replicate 24 0
  match o.phase, biasRamp s i with
  | 2, none => y
  | 2, some b => if now s < b.since + msTicks 30 then zero else fade
  | 1, none => if now s < o.since + settle then zero else fade
  | 3, none => fade
  | _, _ => zero

end Sys2Proof.Machine
end

