-- ==== Sys2Proof/Machine/Muran.lean ====
section
/-! DEFINITION. The Muran air interface: symbols, frames, CRC, scrambling, the Tally codec, superblocks and the frame
cipher (06 R159 to R191). -/

namespace Sys2Proof.Machine

/-! ### Symbols (06 R162 to R166) -/

/-- The bits of a decided symbol: two in 4-GFSK, one in range mode (06 R162). -/
def symbolBits (range : Bool) (a : Int) : List Bool :=
  if range then [decide (a < 0)]
  else if a = 3 then [false, true] else if a = 1 then [false, false] else if a = -1 then [true, false] else [true, true]

/-- The symbol values of bits in 4-GFSK (06 R162). -/
def bitSymbols : List Bool → List Int
  | a :: b :: l => (if a then (if b then -3 else -1) else (if b then 3 else 1)) :: bitSymbols l
  | _ => []

/-- The sync word of an uplink, normal or range (06 R166). -/
def uplinkSync (range : Bool) : List Int :=
  if range then [1, 1, -1, 1, -1, -1, -1, 1] else [3, 3, -3, 3, -3, -3, -3, 3]

/-- A pilot block of an uplink (06 R166). -/
def uplinkPilot (range : Bool) : List Int := if range then [1, -1] else [3, -3]

/-- The known value of a frame symbol of an uplink: sync word or pilot; none: data (06 R164). -/
def knownSymbol (range : Bool) (n : Nat) : Option Int :=
  if n < 8 then (uplinkSync range)[n]?
  else if (n - 8) % 28 = 26 then some (if range then 1 else 3)
  else if (n - 8) % 28 = 27 then some (if range then -1 else -3)
  else none

/-- The downlink sync word and pilot block (06 R166). -/
def downlinkSync : List Int := [3, 3, 3, -3, -3, 3, -3, -3, 3, -3, 3, 3, -3, 3, -3, -3]
def downlinkPilot : List Int := [3, -3, -3, 3]

/-- The 240 symbols of a downlink frame from its 192 data symbols (06 R165). -/
def downlinkSymbols (data : List Int) : List Int :=
  downlinkSync ++ (List.range 8).flatMap (fun j => (data.drop (24 * j)).take 24 ++ downlinkPilot)

/-- The preamble of an uplink, normal or range, and of a downlink (06 R166). -/
def uplinkPreamble (range : Bool) : List Int := (List.replicate 16 (uplinkPilot range)).flatten
def downlinkPreamble : List Int := (List.replicate 32 [3, -3]).flatten

/-! ### Waveform (06 R163); times in symbols -/

/-- The unit of the fixed-point sums of the pulse. -/
def pulseUnit : Int := 1000000000000000000000000

/-- π² / (2 ln 2), whose root is T / (σ √2), and that root over √π, in units of `pulseUnit`. -/
def gaussSquare : Int := 7119414662493752716930337
def gaussSlope : Int := 1505383695678524963639577

/-- Terms `k`, `k + 1`, … of a series in the powers of `x`, each term divided by `weight`. -/
def gaussSeries (weight : Nat → Int) (x : Int) : Nat → Nat → Int → Int
  | 0, _, _ => 0
  | n + 1, k, term => term / weight k + gaussSeries weight x n (k + 1) (-(term * x) / (pulseUnit * ((k : Int) + 1)))

/-- The Gaussian, truncated to ±1.5 symbols, from its middle to `t`, within 10^-18. -/
def gaussArea (t : Rat) : Rat :=
  let u := max (-(3 / 2)) (min (3 / 2) t)
  gaussSeries (fun k => 2 * (k : Int) + 1) (u * u * gaussSquare).floor 80 0 (u * gaussSlope).floor / pulseUnit

/-- The integral of `gaussArea` from 0. -/
def gaussIntegral (t : Rat) : Rat :=
  let u := min (3 / 2) |t|
  u * gaussSeries (fun k => (2 * (k : Int) + 1) * (2 * (k : Int) + 2)) (u * u * gaussSquare).floor 80 0 (u * gaussSlope).floor /
    pulseUnit + (|t| - u) * gaussArea (3 / 2)

/-- The frequency pulse p, and its integral from before the pulse. -/
def pulse (t : Rat) : Rat := gaussArea t - gaussArea (t - 1)
def pulseIntegral (t : Rat) : Rat := gaussIntegral t - gaussIntegral (t - 1) + gaussArea (3 / 2)

/-- Σ a_k × f(t - k) over the symbols of a transmission. -/
def symbolSum (f : Rat → Rat) (a : List Int) (t : Rat) : Rat :=
  (a.zipIdx.map (fun x => (x.1 : Rat) * f (t - (x.2 : Nat)))).sum

/-- The frequency offset of a transmission in deviation units f_d, and its phase in cycles for f_d × T of `h`. -/
def freqOffset : List Int → Rat → Rat := symbolSum pulse
def phaseCycles (h : Rat) (a : List Int) (t : Rat) : Rat := h * symbolSum pulseIntegral a t

/-- The ideal discriminator value halfway between the second and the third of four symbols (07 R207): no other reaches there. -/
def halfSymbolIdeal (a b c d : Int) : Rat := freqOffset [a, b, c, d] 2

/-! ### Scrambler (06 R175) -/

/-- One step: the output and the next state. -/
def scrStep (st : BitVec 15) : Bool × BitVec 15 :=
  let o := st.getLsbD 14 != st.getLsbD 13
  (o, (st <<< 1) ||| (if o then 1 else 0))

/-- XOR bits with the scrambler's outputs. -/
def scramble : BitVec 15 → List Bool → List Bool
  | _, [] => []
  | st, b :: l => let (o, st') := scrStep st; (b != o) :: scramble st' l

/-- The seed of a frame. -/
def scrSeed (seq airId : Nat) : BitVec 15 := BitVec.ofNat 15 (0x4000 + seq * 0x400 + airId)

/-! ### Tally codec (06 R177 to R180) -/

/-- A block format. -/
structure Tally where
  anchorBits : Nat
  scale : Nat
  maxE : Nat
  predBits : Nat
  codes : Nat
  codeBits : Nat

def tallyNormal : Tally := ⟨17, 128, 19, 2, 24, 6⟩
def tallyRange : Tally := ⟨10, 16384, 21, 1, 12, 4⟩

/-- The prediction from the last two samples. -/
def tallyPred (p : Nat) (h1 h2 : Int) : Int :=
  if p = 0 then 0 else if p = 1 then h1 else if p = 2 then 2 * h1 - h2 else h1 + (h1 - h2) / 2

def clamp24 (y : Int) : Int := clampI (-8388608) 8388607 y

/-- Samples from codes. -/
def tallyRun (p e : Nat) : List Int → Int → Int → List Int
  | [], _, _ => []
  | c :: cs, h1, h2 => let y := clamp24 (tallyPred p h1 h2 + c * 2 ^ e); y :: tallyRun p e cs y h1

/-- Fields of equal width, most significant bit first, as signed numbers. -/
def signedFields (w : Nat) : Nat → List Bool → List Int
  | 0, _ => []
  | n + 1, l => sint w (bitsNat (l.take w)) :: signedFields w n (l.drop w)

/-- The decoder; none: INVALID (06 R178). -/
def tallyDecode (t : Tally) (b : List Bool) : Option (List Int) :=
  let a := sint t.anchorBits (bitsNat (b.take t.anchorBits))
  let b := b.drop t.anchorBits
  let e := bitsNat (b.take 5)
  let p := bitsNat ((b.drop 5).take t.predBits)
  if e > t.maxE then none
  else some (tallyRun p e (signedFields t.codeBits t.codes (b.drop (5 + t.predBits))) (a * t.scale) (a * t.scale))

/-- One trial of the encoder; none: a code does not fit. -/
def tallyTry (t : Tally) (p e : Nat) : List Int → Int → Int → Option (List Int)
  | [], _, _ => some []
  | x :: xs, h1, h2 =>
    let pred := tallyPred p h1 h2
    let c := (2 * (x - pred) + 2 ^ e) / 2 ^ (e + 1)
    let top : Int := 2 ^ (t.codeBits - 1)
    if c < -top ∨ top ≤ c then none
    else (tallyTry t p e xs (clamp24 (pred + c * 2 ^ e)) h1).map (fun cs => c :: cs)

/-- The choice of the encoder: smallest E, then smallest P (06 R180). -/
def tallyChoose (t : Tally) (x : List Int) (h : Int) : Nat × Nat × List Int :=
  let trials := (List.range (t.maxE + 1)).flatMap (fun e => (List.range (2 ^ t.predBits)).map (fun p => (p, e)))
  match trials.findSome? (fun q => (tallyTry t q.1 q.2 x h h).map (fun cs => (q.1, q.2, cs))) with
  | some r => r
  | none => (0, 0, List.replicate t.codes 0)

/-- The encoder: the block's bits and the last decoded sample (06 R180). -/
def tallyEncode (t : Tally) (x : List Int) (r : Int) : List Bool × Int :=
  let top : Int := 2 ^ (t.anchorBits - 1)
  let a := clampI (-top) (top - 1) ((2 * r + t.scale) / (2 * t.scale))
  let (p, e, cs) := tallyChoose t x (a * t.scale)
  (natBits t.anchorBits (uint t.anchorBits a) ++ natBits 5 e ++ natBits t.predBits p ++
    cs.flatMap (fun c => natBits t.codeBits (uint t.codeBits c)),
   (tallyRun p e cs (a * t.scale) (a * t.scale)).getLastD (a * t.scale))

/-- The silent block (06 R171). -/
def silentBlock (t : Tally) : List Bool := List.replicate (t.anchorBits + 5 + t.predBits + t.codes * t.codeBits) false

/-! ### Frame cipher (06 R188 to R190) -/

/-- Counter block `i` of a frame (06 R189). -/
def frameCounter (dir mode airId period epoch i : Nat) : List Byte :=
  [BitVec.ofNat 8 dir, BitVec.ofNat 8 mode] ++ leBytes 2 airId ++ leBytes 6 period ++ leBytes 4 epoch ++
    [BitVec.ofNat 8 i, 0]

/-- Audio bits XORed with the key stream (06 R190). -/
def frameCrypt (key : List Byte) (dir mode airId period epoch : Nat) (audio : List Bool) : List Bool :=
  let ks := bitsOf ((List.range (ceilDiv audio.length 128)).flatMap (fun i =>
    aes128 key (frameCounter dir mode airId period epoch i)))
  List.zipWith (fun a b => a != b) audio ks

/-! ### Frames (06 R164 to R176) -/

/-- The fields of a received uplink frame whose CRC passed. -/
structure UpFrame where
  airId : Nat
  fc : Nat
  md : Nat
  audio : List Bool
  deriving DecidableEq, Repr

/-- Data bits of an uplink frame after symbol decisions: descrambled with the seed of the received header, and checked
(06 R175, R176); none: the CRC fails. -/
def uplinkParse (range : Bool) (bs : List Bool) : Option UpFrame :=
  let len := if range then 104 else 208
  let airId := bitsNat (bs.take 10)
  let seq := bitsNat ((bs.drop 10).take 4)
  let b := bs.take 16 ++ scramble (scrSeed seq airId) ((bs.drop 16).take (len - 16))
  if crcBits (b.take (len - 16)) = bitsNat ((b.drop (len - 16)).take 16) then
    some { airId := airId, fc := 16 * bitsNat ((b.drop 14).take 2) + seq, md := bitsNat ((b.drop 16).take 8),
           audio := (b.drop 24).take (len - 40) }
  else none

/-- The data bits of a downlink frame (06 R167, R174, R175): header, flags, metadata, audio, CRC; `badCrc` inverts the
CRC (18 R469). -/
def downlinkBits (airId fc flags md : Nat) (audio : List Bool) (badCrc : Bool) : List Bool :=
  let head := natBits 10 airId ++ natBits 4 (fc % 16) ++ natBits 2 (fc / 16) ++ natBits 8 flags ++ natBits 8 md ++ audio
  let crc := if badCrc then 65535 - crcBits head else crcBits head
  let all := head ++ natBits 16 crc
  all.take 24 ++ scramble (scrSeed (fc % 16) airId) (all.drop 24)

/-! ### Superblocks (06 R183 to R187) -/

/-- Whether an uplink superblock is accepted: its CRC, most significant byte first, and its type (06 R184). -/
def superblockOk (sb : List Byte) : Bool :=
  sb.length == 32 && crc16 (sb.take 30) == beNat (sb.drop 30) && sb.head? == some 0x01

/-- The message fragment of a superblock: first, last, index, payload (06 R185). -/
def sbFragment (sb : List Byte) : Bool × Bool × Nat × List Byte :=
  let c := (sb.getD 21 0).toNat
  (c.testBit 7, c.testBit 6, bits c 5 3, (sb.drop 22).take (c % 8))

/-- A superblock of a carrier (06 R186): transmitter ID, name, flags, message control, payload. -/
def downlinkSuperblock (txId : Nat) (name : List Byte) (flags ctrl : Nat) (payload : List Byte) : List Byte :=
  let b := [0x02#8] ++ beBytes 4 txId ++ (name.take 12 ++ List.replicate (12 - name.length) 0) ++
    [BitVec.ofNat 8 flags, 0, 0, 0, BitVec.ofNat 8 ctrl] ++ (payload ++ List.replicate (7 - payload.length) 0) ++ [0]
  b ++ beBytes 2 (crc16 b)

end Sys2Proof.Machine
end

