-- ==== Sys2Proof/Machine/Lane.lean ====
section
/-! DEFINITION. The arithmetic of a demodulator lane: equaliser, loops, diversity, levels, link quality, concealment
(07 R201 to R215). Discriminator samples are in units of 1/4096, equaliser outputs in units of 2^-24. -/

namespace Sys2Proof.Machine

/-! ### Equaliser (07 R209) -/

/-- One in the units of the equaliser's output. -/
def y1 : Int := 16777216

/-- The nearest symbol value, ties to the value nearer zero; at exactly 0 the choice is free. -/
def slice (range : Bool) (fr n : Nat) (y : Int) : Int :=
  if y = 0 then (if Config.zeroTie fr n then -1 else 1)
  else if range then (if 0 < y then 1 else -1)
  else if 2 * y1 < y then 3 else if 0 < y then 1 else if -(2 * y1) ≤ y then -1 else -3

/-- Discriminator sample `i`, from a list that starts at index -4. -/
def zAt (z : List Int) (i : Int) : Int := z.getD (i + 4).toNat 0

/-- The eight samples that symbol `n` uses: z[2n + 4 - k]. -/
def zWindow (z : List Int) (n : Nat) : List Int := (List.range 8).map (fun k => zAt z (2 * (n : Int) + 4 - (k : Nat)))

/-- Sum of products. -/
def dot (a b : List Int) : Int := (List.zipWith (· * ·) a b).sum

/-- The output y[n]. -/
def dfeOut (t : Taps) (zs : List Int) : Int := dot t.w zs - dot t.b (t.d.take 4) * 4096

/-- `⌊num / 2^sh + 1/2⌋`. -/
def rhu (num : Int) (sh : Nat) : Int := (2 * num + 2 ^ sh) / 2 ^ (sh + 1)

/-- The tap update of one symbol, when |e| is at most 1.5 (07 R209). -/
def dfeAdapt (mf mb : Nat) (t : Taps) (zs : List Int) (e : Int) : Taps :=
  if |2 * e| ≤ 3 * y1 then
    { t with w := List.zipWith (fun w z => clampI (-16384) 16384 (w + rhu (e * z) (24 + mf))) t.w zs
             b := List.zipWith (fun b d => clampI (-8192) 8192 (b + rhu (-(e * d)) (12 + mb))) t.b
               (t.d.take 4 ++ List.replicate (4 - t.d.length) 0) }
  else t

/-- What the equaliser gives for one symbol: output and decision. -/
structure Sym where
  y : Int
  d : Int
  deriving DecidableEq, Repr

/-- How a frame is equalised: mode, shifts, freeze, whether the aerial is selected. -/
structure EqCfg where
  range : Bool
  mf : Nat
  mb : Nat
  freeze : Bool
  selected : Bool
  /-- Number of the frame for free values. -/
  fr : Nat

/-- Equalise symbols `n`, `n + 1`, …: the tap set of every aerial adapts over sync word and pilots, that of the selected
aerial over data symbols too (07 R206). -/
def equalise (c : EqCfg) (z : List Int) : Nat → Nat → Taps → Taps × List Sym
  | 0, _, t => (t, [])
  | k + 1, n, t =>
    let zs := zWindow z n
    let y := dfeOut t zs
    let known := knownSymbol c.range n
    let d := known.getD (slice c.range c.fr n y)
    let t' := if c.freeze || !(known.isSome || c.selected) then t else dfeAdapt c.mf c.mb t zs (d * y1 - y)
    let (u, l) := equalise c z k (n + 1) { t' with d := (d :: t.d).take 4 }
    (u, ⟨y, d⟩ :: l)

/-- Sum of squared errors over symbols. -/
def errSum (l : List Sym) : Int := (l.map (fun s => (s.y - s.d * y1) ^ 2)).sum

/-- Whether aerial quality q of error sum `o` exceeds that of `c` by more than `h` quarter dB (07 R205). -/
def qualityExceeds (o c : Int) (h : Nat) : Bool := decide (o ^ 40 * 10 ^ h < c ^ 40)

/-- The aerial for a frame from the sync-word errors of A and B (07 R205): mode, hysteresis, present aerial. -/
def chooseAerial (mode hyst cur : Nat) (ea eb : Int) : Nat :=
  if mode = 1 then 0 else if mode = 2 then 1
  else if cur = 0 then (if qualityExceeds eb ea hyst then 1 else 0)
  else if qualityExceeds ea eb hyst then 0 else 1

/-- E_k of a decoded frame: 104 data and 8 pilot symbols (07 R214). -/
def frameError (range : Bool) (l : List Sym) : Rat :=
  (errSum (l.drop 8) : Rat) / ((y1 : Rat) ^ 2 * (112 * (if range then 1 else 5)))

/-- Sum over known symbols of a block of y - p. -/
def biasSum (l : List Sym) : Int := (l.map (fun s => s.y - s.d * y1)).sum

/-- Symbol indexes of the five blocks of known symbols. -/
def pilotStarts : List Nat := [34, 62, 90, 118]

/-- The deviation unit of an uplink, Hz (06 R159). -/
def devUnit (range : Bool) : Nat := if range then 60000 else 30000

/-- The frequency loop over the sync word and the pilot blocks (07 R207): change of Δf in Hz. -/
def freqStep (range : Bool) (sf : Nat) (l : List Sym) : Rat :=
  let fd : Rat := devUnit range
  let e (ss : List Sym) : Rat := fd * ((biasSum ss : Rat) / ((y1 : Rat) * ss.length))
  (e (l.take 8) + (pilotStarts.map (fun n => e ((l.drop n).take 2))).sum) / 2 ^ sf

/-- e_τ of the loop at the transition between known symbols `n` and `n + 1` (07 R207), in symbols. -/
def timeError (z : List Int) (sym : Nat → Int) (n : Nat) : Rat :=
  ((zAt z (2 * (n : Int) + 1) : Rat) / 4096 - halfSymbolIdeal (sym (n - 1)) (sym n) (sym (n + 1)) (sym (n + 2))) /
    ((sym n - sym (n + 1) : Int) : Rat)

/-- The timing loop at the sync word and at the transitions of the pilot blocks (07 R207): change of τ in symbols. The manual names
no transition of the sync word: it is that between its last two symbols, DESIGN CHOICE. -/
def timeStep (st : Nat) (z : List Int) (l : List Sym) : Rat :=
  ((6 :: pilotStarts).map (timeError z (fun i => (l.getD i ⟨0, 0⟩).d))).sum / 2 ^ st

/-- e_f and e_τ over a preamble, summed over its pairs of symbols (07 R207), each of which is taken as a pilot block: DESIGN CHOICE.
Halfway between alternating symbols the ideal value is 0. -/
def preambleErrors (range : Bool) (z : List Int) (l : List Sym) : Rat × Rat :=
  let pairs : List (Nat × List Sym) := (List.range (l.length / 2)).map (fun i => (2 * i, (l.drop (2 * i)).take 2))
  ((pairs.map (fun p => (devUnit range : Rat) * ((biasSum p.2 : Rat) / (2 * y1)))).sum,
   (pairs.map (fun p => (zAt z (2 * (p.1 : Int) + 1) : Rat) / (4096 * (((l.getD p.1 ⟨0, 0⟩).d - (l.getD (p.1 + 1) ⟨0, 0⟩).d : Int) : Rat)))).sum)

/-! ### Detection (07 R196) -/

/-- Whether the normalised correlation of a window with a pattern, once an offset of `hz` is removed, reaches `num / den`. -/
def correlates (num den : Nat) (range : Bool) (pat : List Int) (hz : Int) (z : List Int) : Bool :=
  let v := (List.range pat.length).map (fun i => z.getD (2 * i) 0 * (devUnit range : Int) - 4096 * hz)
  let c := dot v pat
  decide (0 < c ∧ (num : Int) ^ 2 * (dot v v * dot pat pat) ≤ (den : Int) ^ 2 * c ^ 2)

/-- The stronger of the aerials on which a detector fires, A when they are equal: DESIGN CHOICE. -/
def firing (test : List Int → Bool) (a b : Window) : Option Window :=
  if test b.z && (!test a.z || decide (a.power < b.power)) then some b else if test a.z then some a else none

/-- The 16 symbols that the preamble detector looks for. -/
def preamblePattern (range : Bool) : List Int := (uplinkPreamble range).take 16

/-- The mean discriminator output of a preamble window as Δf, within ±15 kHz, in Hz: an estimate beyond is held at the limit, DEDUCED. -/
def preambleOffset (range : Bool) (z : List Int) : Rat :=
  max (-15000) (min 15000 ((devUnit range : Rat) * ((List.range 16).map (fun i => z.getD (2 * i) 0)).sum / (16 * 4096)))

/-- The mean of the timing errors at the 15 transitions of a preamble window, in symbols. -/
def preambleTiming (range : Bool) (z : List Int) : Rat :=
  let p (i : Nat) : Int := (preamblePattern range).getD i 0
  ((List.range 15).map (fun i =>
    ((z.getD (2 * i + 1) 0 : Rat) / 4096 - preambleOffset range z / (devUnit range : Rat)) / ((p i - p (i + 1) : Int) : Rat))).sum / 15

/-- The preamble detector: Δf and τ of a detection. -/
def preambleFires (range : Bool) (a b : Window) : Option (Rat × Rat) :=
  (firing (correlates 3 4 range (preamblePattern range) 0) a b).map (fun w => (preambleOffset range w.z, preambleTiming range w.z))

/-- The frequency of a bin of the sync detector, Hz. -/
def binOffset (bin : Nat) : Int := 3000 * (bin : Int) - 15000

/-- The sync detector in a frequency bin. -/
def syncFires (range : Bool) (bin : Nat) (a b : Window) : Bool :=
  decide (bin ≤ 10) && (firing (correlates 17 20 range (uplinkSync range) (binOffset bin)) a b).isSome

/-! ### Levels (07 R201, R209, R214) -/

/-- Whether a power reaches another by `half` halves of a dB (07 R201). -/
def reaches (p q half : Nat) : Bool := decide (q ^ 20 * 10 ^ half ≤ p ^ 20)

/-- Set bits from the top while a test, monotone in the number, holds. -/
def searchUp (test : Nat → Bool) : List Nat → Nat → Nat
  | [], v => v
  | b :: bs, v => searchUp test bs (if test (v + b) then v + b else v)

/-- A power in units of 10^-21 W as 0.25 dBm, nearest (07 R214, 02 R58). -/
def rssiOf (p : Option Rat) : Int :=
  match p with
  | none => -32768
  | some r =>
    let n := r.num.toNat
    let k := searchUp (fun k => decide (10 ^ (2 * k - 1) * r.den ^ 80 ≤ n ^ 80)) [1024, 512, 256, 128, 64, 32, 16, 8, 4, 2, 1] 0
    (k : Int) - 720

/-- Smoothing of a level by an eighth (07 R209). -/
def smooth (m : Option Rat) (x : Nat) : Option Rat :=
  match m with
  | none => some x
  | some m => some (m + ((x : Rat) - m) / 8)

/-- Whether LQ of a mean M is at least `n` (07 R214): K is 7 in range mode. -/
def lqAtLeast (m : Rat) (range : Bool) (n : Nat) : Bool :=
  let a := m.num.toNat ^ 510 * 10 ^ (4 * n - 2 + 51 * (if range then 1 else 8))
  decide (a < m.den ^ 510) || (decide (a = m.den ^ 510) && Config.halfUp 6 m.num m.den)

/-- `LINK.LQ` from M; 0 with no mean (07 R214). -/
def lqOf (m : Option Rat) (range : Bool) : Nat :=
  match m with
  | none => 0
  | some m => searchUp (lqAtLeast m range) [128, 64, 32, 16, 8, 4, 2, 1] 0

/-- `LINK.EVM` from M, 0.1 %; 1000 with no mean (07 R214). -/
def evmOf (m : Option Rat) : Nat :=
  match m with
  | none => 1000
  | some m =>
    let r := isqrt (4000000 * m.num.toNat / m.den)
    min 1000 (if r % 2 = 1 ∧ r * r * m.den = 4000000 * m.num.toNat ∧ Config.halfUp 7 m.num m.den = false then r / 2 else (r + 1) / 2)

/-- The running mean with E of one due frame (07 R214). -/
def meanStep (m : Option Rat) (e : Rat) : Option Rat := m.map (fun m => m + (e - m) / 16)

/-! ### Concealment (07 R215) -/

/-- The sample `i` places before the newest of a history of 480, newest last. -/
def backAt (h : List Int) (i : Nat) : Int := h.getD (479 - i) 0

/-- Correlation at a lag, its energies' product. -/
def lagSums (h : List Int) (lag : Nat) : Int × Int :=
  let a := (List.range 96).map (backAt h)
  let b := (List.range 96).map (fun i => backAt h (i + lag))
  (dot a b, dot a a * dot b b)

/-- Whether a correlation (num, den squared) is above a best one: both positive, compared by squares. -/
def corrAbove (x best : Int × Int) : Bool := decide (0 < x.2 ∧ 0 < x.1 ∧ best.1 ^ 2 * x.2 < x.1 ^ 2 * best.2)

/-- The lag of a run: the first of the greatest correlations above 0.4, else 480. -/
def concealLag (h : List Int) : Nat :=
  ((List.range 337).foldl (fun (q : Nat × (Int × Int)) i =>
    let x := lagSums h (48 + i)
    if corrAbove x q.2 then (48 + i, x) else q) (480, (4, 100))).1

/-- The prepared concealment of one period (07 R215): `k` samples concealed so far, fade `f` periods. -/
def concealBlock (c : Conceal) (f : Nat) : List Int :=
  (List.range 24).map (fun n =>
    let left := (24 * f : Int) - ((c.k + n : Nat) : Int)
    if left ≤ 0 then 0 else nearest 1 (left * c.frozen.getD (480 - c.lag + (c.k + n) % c.lag) 0) (24 * f))

/-- The start of a run from a history. -/
def concealStart (h : List Int) : Conceal :=
  let h := List.replicate (480 - h.length) 0 ++ h
  { lag := concealLag h, k := 0, frozen := h }

/-- The cross-fade of the first decoded frame after a run (07 R215). -/
def crossFade (x c : List Int) : List Int :=
  (List.range 24).map (fun (n : Nat) => nearest 2 ((((n + 1 : Nat) : Int)) * x.getD n 0 + (23 - (n : Int)) * c.getD n 0) 24)

end Sys2Proof.Machine
end

