-- ==== Sys2Proof/Machine/ClockOuts.lean ====
section
/-! DEFINITION. The clock outputs CLKOUT0 to CLKOUT2, MCLK0 and MCLK1, SYNC_OUT, and the correction of the reference loop
(04 R98 to R103, R115 to R122). -/

namespace Sys2Proof.Machine

/-- CKG is off, outside a reset and the boot that follows it: an entry has switched it off and no wake has begun (04 R122, 15 R407). -/
def ckgOff (s : State) : Bool :=
  !domOn s Dom.ckg && s.supply.resetHeld.isNone && !s.supply.booting && !s.power.waking

/-- Every clock output is held static: in a reset that is held, from a reset until the main PLL locks, and from a loss of
main-PLL lock until CKG has restarted (04 R98, R122). -/
def outsMuted (s : State) : Bool :=
  s.supply.resetHeld.isSome || restarting s Dom.ckg || (s.supply.booting && !s.clk.pllLocked)

/-- The clock that the configuration of an output gives it: 0 to 2 CLKOUT, 3 and 4 MCLK, divided from the 3932.16 MHz VCO to
12.288, 24.576 or 49.152 MHz (04 R119, R121); none: disabled. -/
def outClock (s : State) (n : Nat) : Option ClkDrive :=
  if n < 3 then
    if parGet s (P.clkOut0Cfg n) = 0 then none
    else if parGet s (P.clkOut0Cfg3 n) = 1 then some .crystal else some (.vco (parGet s (P.clkOut0Cfg16 n)))
  else
    let en := if n = 3 then P.clkMclkCfg else P.clkMclkCfg1
    let f := if n = 3 then P.clkMclkCfg2 else P.clkMclkCfg4
    if parGet s en = 0 then none else some (.vco (320 / 2 ^ parGet s f))

/-- Whether the source of a clock runs: the main VCO once its PLL is locked, the crystal once it is qualified (04 R120). -/
def sourceRuns (s : State) : ClkDrive → Bool
  | .vco _ => s.clk.pllLocked
  | .crystal => s.clk.xtalQual
  | _ => false

/-- What an output is to carry, a change apart. -/
def outWanted (s : State) (n : Nat) : ClkDrive :=
  if ckgOff s then .hiZ
  else if outsMuted s then .static
  else match outClock s n with
    | some c => if sourceRuns s c then c else .static
    | none => .static

/-- A clock, as against a static level. -/
def ClkDrive.runs : ClkDrive → Bool
  | .vco _ => true
  | .crystal => true
  | _ => false

/-- Every output follows what holds it, starts it or stops it. An output that changes from one clock to another is static until
the next period boundary, which is at least one new cycle (04 R120): DESIGN CHOICE. -/
def refreshOuts (s : State) : State :=
  let now (n : Nat) : ClkDrive := s.clk.outs.getD n .static
  let changing (n : Nat) : Bool := (now n).runs && (outWanted s n).runs && now n != outWanted s n
  let wait := (List.range 5).filter (fun n => (outWanted s n).runs && (s.clk.outWait.contains n || changing n))
  { s with clk := { s.clk with
      outWait := wait
      outs := (List.range 5).map (fun n => if wait.contains n then .static else outWanted s n)
      syncOut := if ckgOff s then .hiZ else .static
      syncEdge := if ckgOff s || outsMuted s || parGet s P.clkSyncRole == 0 then none else s.clk.syncEdge } }

/-- What holds the outputs has changed, if it does. -/
def outsFor (d : Nat) (s : State) : State := if d = Dom.ckg then refreshOuts s else s

/-- At a period boundary the outputs that passed through the static state start. -/
def restartOuts (s : State) : State := refreshOuts { s with clk := { s.clk with outWait := [] } }

/-- The level of a clock `v` cycles of its source after phase zero: high for the first half of each cycle (04 R119). -/
def clockHigh (d v : Nat) : Bool := decide (2 * (v % d) < d)

/-- The levels of the balls of an output, P and N, `v` cycles of its source after phase zero; none: high impedance. Format 2 is
paired CMOS in phase; the other formats drive N as the complement, and a single-ended output's second level is that of no ball. At
rest a single-ended ball is low, a differential pair low and high (04 R119, R120). -/
def outLevels (s : State) (n v : Nat) : Option (Bool × Bool) :=
  let same := decide (2 ≤ n) || parGet s (P.clkOut0Cfg1 n) == 2
  let pair (x : Bool) : Option (Bool × Bool) := some (x, if same then x else !x)
  match s.clk.outs.getD n .static with
  | .hiZ => none
  | .static => if decide (2 ≤ n) || decide (2 ≤ parGet s (P.clkOut0Cfg1 n)) then some (false, false) else some (false, true)
  | .vco d => pair (clockHigh d v)
  | .crystal => pair (clockHigh 2 v)

/-- Main VCO cycles in a period. -/
def periodVco : Nat := 32 * periodLen

/-- The primary drives a rising edge 1024 VCO cycles before its boundary `p` (04 R116, R118). -/
def primaryEdge (p : Nat) (s : State) : State :=
  { s with clk := { s.clk with syncEdge := some ((p * periodVco : Nat) - 1024 : Int) } }

/-- A follower repeats the SYNC_IN edge whose sync instant is `t` 32 VCO cycles after it came: the edge came CLK.SYNC_COMP
cycles before its sync instant (04 R115, R116). -/
def followerEdge (t : Int) (s : State) : State :=
  { s with clk := { s.clk with syncEdge := some (t - parGet s P.clkSyncComp + 32) } }

/-- What the primary's SYNC_OUT does at a boundary: the edge of an armed one-shot at its period, while monitoring that of every
boundary whose number is a multiple of 20 (04 R116, R118). -/
def syncTick (s : State) : State :=
  let p := period s
  let due := (parGet s P.clkSyncArm == 1 && p == parGet s P.clkSyncPeriodLo + 2 ^ 32 * parGet s P.clkSyncPeriodHi) ||
    (parGet s P.clkSyncArm == 2 && p % 20 == 0)
  if parGet s P.clkSyncRole = 1 ∧ due ∧ !outsMuted s then primaryEdge p s else s

/-! ### The reference loop (04 R99 to R103) -/

def onClk (f : Clocks → Clocks) (s : State) : State := { s with clk := f s.clk }

def refMode (s : State) : Nat := parGet s P.clkRefMode

/-- A correction in units of 0.001 ppm; a half unit is dropped: DESIGN CHOICE. -/
def refOffset (s : State) : Int := s.clk.refCorr.tdiv 2

/-- A correction that the loop moves towards by at most `n` half units, within ±100 ppm (04 R100). -/
def slewTo (n goal c : Int) : Int := clampI (-200000) 200000 (clampI (c - n) (c + n) goal)

/-- What a period does to the correction: five half units at most, 5 ppm per second; tracking and locked it follows the loop,
in the return to the crystal it goes to zero, in holdover it is frozen (04 R100, R101, R103). A reference that appears while none
is tracked is being qualified, and one that disappears before it has qualified no longer is. -/
def refTick (env : PeriodEnv) (s : State) : State :=
  onClk (fun k =>
    let k := if k.refState = 0 ∧ refMode s ≠ 0 ∧ env.refSeen then { k with refState := 1 }
      else if k.refState = 1 ∧ !env.refSeen then { k with refState := if k.refCorr = 0 then 0 else 5 } else k
    { k with refCorr := match k.refState with
      | 2 => slewTo 5 (2 * env.refPull) k.refCorr
      | 3 => slewTo 5 (2 * env.refPull) k.refCorr
      | 5 => slewTo 5 0 k.refCorr
      | _ => k.refCorr }) s

/-- The clocks at a period boundary. -/
def clockTick (env : PeriodEnv) (s : State) : State := syncTick (restartOuts (refTick env s))

end Sys2Proof.Machine
end

