-- ==== Sys2Proof/Machine/Spectrum.lean ====
section
/-! DEFINITION. Synthesiser settings, the windows, the spectrum plan and frequency coordination (04 R104 to R107,
05 R129 to R155, 08 R228). -/

namespace Sys2Proof.Machine

/-! ### Synthesisers (04 R104 to R112) -/

def locked (s : State) (id : Nat) : Bool := (synth s id).phase == .locked

/-- The output divider (04 R105); the command synthesiser divides by 2. -/
def loDivider (id f : Nat) : Nat := if id = 3 then 2 else ceilDiv 3600000000 f

/-- The 24-bit fraction word nearest to the wanted VCO frequency, integer part included (04 R105). -/
def loWord (id f : Nat) : Nat := (2 * (f * loDivider id f) * 2 ^ 24 + 122880000) / (2 * 122880000)

/-- The remaining LO error in mHz, nearest integer (04 R105). -/
def loError (id f : Nat) : Int :=
  let d := loDivider id f
  nearest 4 ((((loWord id f * 122880000 : Nat) : Int) - ((f * d * 2 ^ 24 : Nat) : Int)) * 1000) (d * 2 ^ 24)

/-- The domain that holds a synthesiser. -/
def synthDomain (id : Nat) : Nat := if id = 3 then Dom.clr else Dom.rfa

/-- A lock request at a frequency: the band search begins, after a full calibration when one is due or runs (04 R106, R107,
R112). -/
def startLock (id f : Nat) (s : State) : State :=
  let w := loWord id f
  let s := onSynth id (fun y => { y with phase := if y.calDue || y.phase == .calibrating then .calibrating else .searching, freq := f,
                                         divider := loDivider id f, int := w / 2 ^ 24, frac := w % 2 ^ 24 }) s
  if id = 1 then parSet P.clkRxLoFreq f (parSet P.clkRxLoError (uint 32 (loError 1 f)) s)
  else if id = 2 then parSet P.clkTxLoFreq f (parSet P.clkTxLoError (uint 32 (loError 2 f)) s)
  else s

/-- A synthesiser is muted and stopped. -/
def stopSynth (id : Nat) (s : State) : State := onSynth id (fun y => { y with phase := .off }) s

/-- A synthesiser without a frequency: muted, stopped, its LO frequency and error as after reset. -/
def dropLo (id : Nat) (s : State) : State :=
  let s := onSynth id (fun y => { y with phase := .off, freq := 0 }) s
  if id = 1 then parSet P.clkRxLoFreq 0 (parSet P.clkRxLoError 0 s)
  else if id = 2 then parSet P.clkTxLoFreq 0 (parSet P.clkTxLoError 0 s)
  else s

/-- Relock at the tuned window, or stop if no window was tuned (05 R129, 08 R227). -/
def relockWindow (id : Nat) (s : State) : State :=
  let e := parGet s (if id = 1 then P.rfrRxWindowEdge else P.txWindowEdge)
  if e = 0 then dropLo id s else startLock id (if id = 1 then e - 8000000 else e - 6000000) s

/-- A command that needs an LO at its window waits for its lock instant (04 R107). -/
def needLock (id : Nat) (s : State) : Option Wait × Nat × State :=
  if locked s id then (none, 0, s)
  else if (synth s id).phase = .off then (some (.lock id), 0, relockWindow id s) else (some (.lock id), 0, s)

/-! ### Windows -/

/-- The RX window's lower edge E, 0 untuned (05 R129). -/
def rxEdge (s : State) : Nat := parGet s P.rfrRxWindowEdge

/-- The TX window's lower edge E_T, 0 untuned (08 R227). -/
def txEdge (s : State) : Nat := parGet s P.txWindowEdge

/-- The distance of two frequencies. -/
def dist (a b : Nat) : Nat := if a ≤ b then b - a else a - b

/-- A link frequency inside the window (05 R130). -/
def insideWindow (e f : Nat) : Bool :=
  decide (e + 200000 ≤ f) && decide (f ≤ e + 95800000) && decide (200000 ≤ dist f (e + 53440000))

/-- A frequency within the window, both edges included (04 R114). -/
def withinRx (e f : Nat) : Bool := decide (e ≤ f) && decide (f ≤ e + 96000000)

/-- The 32-bit NCO word of the lanes of a link at a frequency: the link frequency minus the RX LO frequency, corrected by
`CLK.RX_LO_ERROR`, in steps of 122.88 MHz / 2^32 (05 R141). -/
def laneWord (s : State) (f : Nat) : BitVec 32 :=
  let mhz : Int := 1000 * ((f : Int) - s.clk.rx.freq) - parInt s 32 P.clkRxLoError
  BitVec.ofInt 32 ((2 * mhz * 2 ^ 32 + 122880000000) / (2 * 122880000000))

/-- Open links, in order. -/
def openLinks (s : State) : List (Nat × Link) := s.links.filter (fun p => p.2.isOpen)

/-- Open carriers, in order. -/
def openCarriers (s : State) : List (Nat × Carrier) := s.carriers.filter (fun p => p.2.phase != .closed)

/-- Whether a carrier is enabled or HELD: from its start boundary m to the end of its ramp (08 R244, R251). -/
def carrierEnabled (c : Carrier) : Bool := c.phase == .on || c.phase == .stopping || c.phase == .held

/-- A carrier frequency accepted under 08 R228; `own` is the carrier itself, whose frequencies do not count. -/
def carrierFreqOk (s : State) (own f : Nat) : Bool :=
  let e := txEdge s
  decide (e + 250000 ≤ f) && decide (f ≤ e + 47750000) &&
    (openCarriers s).all (fun p => p.1 == own ||
      (decide (500000 ≤ dist f p.2.freq) && (p.2.retune.all (fun r => decide (500000 ≤ dist f r.target)))))

/-! ### SPECTRUM_PLAN (05 R147 to R153) -/

/-- Permission bits of a bin in force: bit 0 UPLINK_OK, bit 1 DOWNLINK_OK; bins 4077 to 4095 read 0 (05 R148). -/
def permOf (m : SMap Nat) (b : Nat) : Nat := if b < 4077 then smGet 0 m b else 0

/-- The bins that a band f ± half touches; none: it leaves the plan. A band whose upper edge lies exactly on a bin boundary touches
the bin above, whose lowest frequency the edge is: DESIGN CHOICE. -/
def bandBins (f half : Nat) : Option (List Nat) :=
  if f < 470000000 + half then none
  else
    let lo := (f - half - 470000000) / 130000
    let hi := (f + half - 470000000) / 130000
    if hi < 4096 then some ((List.range (hi + 1 - lo)).map (fun i => lo + i)) else none

/-- Half of the occupied band of a link or a carrier (05 R143). -/
def halfBandOf (carrier : Bool) : Nat := if carrier then 250000 else 125000

/-- A frequency permitted by a permission map (05 R152). -/
def permitted (m : SMap Nat) (carrier : Bool) (f : Nat) : Bool :=
  match bandBins f (halfBandOf carrier) with
  | none => false
  | some bs => bs.all (fun b => (permOf m b).testBit (b2n carrier))

/-- Ticks of the minutes of AGE, in periods. -/
def minutePeriods : Nat := 120000

/-- AGE of a bin: minutes of powered time since its last write, at most 254; 255 never measured (05 R147). -/
def planAge (s : State) (m : PlanBin) : Nat :=
  match m.written with
  | none => 255
  | some t => min 254 ((s.rf.ageTicks - t) / minutePeriods)

/-- The entry of a bin as TABLE_READ gives it (05 R147). -/
def planEntry (s : State) (b : Nat) : Nat :=
  let m := smGet PlanBin.reset s.rf.bins b
  m.peak + 256 * m.mean + 65536 * permOf s.rf.perm b + 16777216 * planAge s m

/-- The frequencies that a plan must not forbid (05 R151): open links and carriers and their pending targets. -/
def planUsers (s : State) : List (Bool × Nat) :=
  (openLinks s).flatMap (fun p => (false, p.2.freq) :: (p.2.hop.toList ++ p.2.hopping.toList).map (fun h => (false, h.target))) ++
    (openCarriers s).flatMap (fun p => (true, p.2.freq) :: p.2.retune.toList.map (fun h => (true, h.target)))

/-- RF_GET_SPECTRUM of one bin (05 R153), as an s16 in 0.25 dBm. -/
def spectrumLevel (s : State) (b : Nat) : Int :=
  let m := smGet PlanBin.reset s.rf.bins b
  if b ≥ 4077 ∨ m.peak = 0 then -32768 else -600 + 2 * (m.peak : Int)

/-! ### RF_COORDINATE (05 R154 to R156) -/

/-- What a coordination search works with. -/
structure Coord where
  options : Nat
  e : Nat
  et : Nat
  raster : Nat
  limit : Int
  spLink : Nat
  spCarrier : Nat
  spMixed : Nat
  im3 : Nat
  im2 : Nat
  image : Nat

/-- The numbers of a search from the parameters in force. -/
def coordOf (s : State) (options : Nat) : Coord :=
  { options := options, e := rxEdge s, et := txEdge s, raster := parGet s P.rfrCoordRaster,
    limit := parInt s 16 P.rfrCoordOccLimit, spLink := parGet s P.rfrCoordSpacingLink,
    spCarrier := parGet s P.rfrCoordSpacingCarrier, spMixed := parGet s P.rfrCoordSpacingMixed,
    im3 := parGet s P.rfrCoordIm3Guard, im2 := parGet s P.rfrCoordIm2Guard, image := parGet s P.rfrCoordImageGuard }

/-- The image partner of a link frequency (05 R131). -/
def imagePartner (e f : Nat) : Int := 2 * (e : Int) + 106880000 - f

/-- Occupancy of a bin in 0.25 dBm, `PEAK` or with option [3] `MEAN`; none: never measured. -/
def occupancy (s : State) (options b : Nat) : Option Int :=
  let m := smGet PlanBin.reset s.rf.bins b
  let v := if options.testBit 3 then m.mean else m.peak
  if m.peak = 0 then none else some (-600 + 2 * (v : Int))

/-- The occupancy test: bins never measured pass unless option [2] is set. -/
def occupancyOk (s : State) (k : Coord) (carrier : Bool) (c : Nat) : Bool :=
  match bandBins c (halfBandOf carrier) with
  | none => false
  | some bs => bs.all (fun b => match occupancy s k.options b with
    | some l => decide (l ≤ k.limit)
    | none => !k.options.testBit 2)

/-- The spacing test. -/
def spacingOk (k : Coord) (set : List (Bool × Nat)) (carrier : Bool) (c : Nat) : Bool :=
  set.all (fun m => decide ((if m.1 = carrier then (if carrier then k.spCarrier else k.spLink) else k.spMixed) ≤ dist c m.2))

/-- No product lies less than a guard from a frequency. -/
def clear (guard : Nat) (p : Int) (f : Nat) : Bool := decide ((guard : Int) ≤ |p - f|)

/-- Third-order products 2a - b, and with three tones a + b - d, formed from `set` with `c`: those with `c` stay clear
of every member, those without stay clear of `c`. -/
def im3Ok (k : Coord) (set : List Nat) (c : Nat) : Bool :=
  let all := c :: set
  let ok (p : Int) : Bool := all.all (clear k.im3 p)
  set.all (fun a => ok (2 * a - c) && ok (2 * c - a) &&
    set.all (fun b => a == b || clear k.im3 (2 * (a : Int) - b) c)) &&
  (!k.options.testBit 0 || set.all (fun a => set.all (fun b => a == b ||
    (ok ((a : Int) + b - c) && ok ((c : Int) + a - b) &&
      set.all (fun d => d == a || d == b || clear k.im3 ((a : Int) + b - d) c)))))

/-- Second-order products a + b and |a - b|. -/
def im2Ok (k : Coord) (set : List Nat) (c : Nat) : Bool :=
  !k.options.testBit 1 ||
    (let all := c :: set
     set.all (fun a => all.all (clear k.im2 ((a : Int) + c)) && all.all (clear k.im2 (dist a c)) &&
       set.all (fun b => a == b || (clear k.im2 ((a : Int) + b) c && clear k.im2 (dist a b) c))))

/-- The image test of a link candidate. -/
def imageOk (k : Coord) (set : List (Bool × Nat)) (c : Nat) : Bool :=
  !k.options.testBit 4 ||
    set.all (fun m => m.1 || (clear k.image (imagePartner k.e m.2) c && clear k.image (imagePartner k.e c) m.2))

/-- Every test of a candidate (05 R155). -/
def candidateOk (s : State) (k : Coord) (set : List (Bool × Nat)) (carrier : Bool) (c : Nat) : Bool :=
  (if carrier then carrierFreqOk s 16 c else insideWindow k.e c) && permitted s.rf.perm carrier c &&
    occupancyOk s k carrier c && spacingOk k set carrier c && im3Ok k (set.map Prod.snd) c &&
    im2Ok k (set.map Prod.snd) c && (carrier || imageOk k set c)

/-- The first candidate on the raster, in rising order, that passes. -/
def firstCandidate (s : State) (k : Coord) (set : List (Bool × Nat)) (carrier : Bool) : Option Nat :=
  let base := if carrier then k.et else k.e + 200000
  let span := if carrier then 47750000 else 95600000
  ((List.range (span / max k.raster 1 + 1)).map (fun i => base + k.raster * i)).find? (candidateOk s k set carrier)

/-- Place `n` entries of a kind; an entry that cannot be placed reads 0. -/
def placeMany (s : State) (k : Coord) (carrier : Bool) : Nat → List (Bool × Nat) → List (Bool × Nat) × List Nat
  | 0, set => (set, [])
  | n + 1, set =>
    match firstCandidate s k set carrier with
    | some f => let (set', fs) := placeMany s k carrier n (set ++ [(carrier, f)]); (set', f :: fs)
    | none => let (set', fs) := placeMany s k carrier n set; (set', 0 :: fs)

/-- The emitters at the start: open links and running carriers. -/
def emitters (s : State) : List (Bool × Nat) :=
  (openLinks s).map (fun p => (false, p.2.freq)) ++
    ((openCarriers s).filter (fun p => carrierEnabled p.2)).map (fun p => (true, p.2.freq))

/-- The reply of RF_COORDINATE: carriers first, then links (05 R156). -/
def coordinate (s : State) (links carriers options : Nat) : List Nat :=
  let k := coordOf s options
  let (set, cs) := placeMany s k true carriers (emitters s)
  cs ++ (placeMany s k false links set).2

end Sys2Proof.Machine
end

