-- ==== Sys2Proof/Machine/RfCommands.lean ====
section
/-! DEFINITION. The RF commands: windows, calibration, scan, gain, spectrum, coordination (05, 08 R227, 04 R112). -/

namespace Sys2Proof.Machine

/-! ### RF_TUNE_WINDOW (05 R129, 08 R227) -/

/-- The checks of RF_TUNE_WINDOW. -/
def tuneCheck (path edge : Nat) (s : State) : Status :=
  firstFail [
    (decide (path > 1), .badParam),
    (decide (path = 0 ∧ ¬(470000000 ≤ edge ∧ edge ≤ 904000000)), .badParam),
    (decide (path = 1 ∧ ¬(470000000 ≤ edge ∧ edge ≤ 952000000)), .badParam),
    (path == 0 && ((openLinks s).length != 0 || s.rf.scan.isSome), .badState),
    (path == 1 && (openCarriers s).length != 0, .badState)]

/-- Background calibration runs in fast mode for a time (05 R133). -/
def fastMode (span : Nat) (s : State) : State :=
  { s with rf := { s.rf with imageCal := 1, fastUntil := max s.rf.fastUntil (now s + span) } }

/-- The link that the calibration source measures now: that of the first record with a measurement to make (05 R135,
R139). One record at a time: DESIGN CHOICE. -/
def measured (s : State) : Option Nat := (s.rf.priv.find? (fun r => r.measuring)).bind PrivRec.link

/-- A change of the records under which the tone goes on for the link measured before, begins for another, or ends. -/
def withTone (f : State → State) (s : State) : State :=
  let t := f s
  if measured t = measured s then t
  else { t with rf := { t.rf with toneAt := if (measured t).isSome then some (now t) else none } }

/-- TX quadrature calibration begins: PA_MUTE_N stays low (08 R227). -/
def startQcal (s : State) : State := { s with tx := { s.tx with qcal := true } }

/-- A quadrature calibration has been made: its temperature is recorded (08 R229). -/
def qcalRecord (s : State) : State :=
  parSet P.txQcalTemp (uint 16 s.clk.dieTemp) { s with tx := { s.tx with staleSent := false } }

/-- RF_TUNE_WINDOW: moves the LO, completes at the lock instant, path 1 after quadrature calibration. -/
def progRfTuneWindow (path edge : Nat) : Prog :=
  { check := fun s => (tuneCheck path edge s, s)
    needs := fun _ => if path = 1 then [Dom.rfa, Dom.txd] else [Dom.rfa]
    late := fun _ => true
    begin := fun s =>
      if path = 0 then (some (.lock 1), 0, startLock 1 (edge - 8000000) s)
      else (some (.lock 2), 0, startLock 2 (edge - 6000000) s)
    resume := fun a s => if path = 0 then (none, a, s) else (some .qcal, a, startQcal s)
    apply := fun _ s =>
      if path = 0 then
        (.ok, [], parSet P.rfrRxWindowEdge edge
          (if rxEdge s = edge then s else fastMode (sec1 / 5) s))
      else (.ok, [], parSet P.txWindowEdge edge (qcalRecord s))
    undo := fun _ s => relockWindow (if path = 0 then 1 else 2) { s with tx := { s.tx with qcal := false } } }

def execRfTuneWindow (h : Hdr) (path edge : Nat) (s : State) : Host.Outcome State Fault Refusal :=
  .next (submit (progRfTuneWindow path edge) (.rfTuneWindow h path edge) s)

/-! ### RF_CALIBRATE (04 R111, R112, 05 R139, 08 R229) -/

/-- Full calibration of the radio synthesisers: outputs muted, then each relocks (04 R112). -/
def startFullCal (s : State) : State :=
  each [1, 2, 3] (fun id s => onSynth id (fun y =>
    { y with phase := .calibrating, inCal := true, calDue := false, calWas := y.calDue, trim := false }) s) s

/-- The image work of RF_CALIBRATE begins: fast mode, and every valid record is measured again (05 R139). -/
def startImageWork (s : State) : State :=
  withTone (fun s => { s with rf := { s.rf with priv := s.rf.priv.map (fun r => { r with measuring := r.valid }) } })
    (fastMode (sec1 / 20) s)

/-- Work of RF_CALIBRATE still to end: bit 0 synthesisers, bit 1 image, bit 2 quadrature. -/
def calPending (items : Nat) (s : State) : Nat :=
  b2n (items.testBit 0 && (s.clk.rx.inCal || s.clk.tx.inCal || s.clk.cmd.inCal)) + 2 * b2n (items.testBit 1) +
    4 * b2n (items.testBit 2)

/-- A calibration is counted and its temperature recorded (04 R111). -/
def recordCal (s : State) : State :=
  parSet P.clkCalTemp (uint 16 s.clk.dieTemp) (bump P.clkCalCount { s with clk := { s.clk with calRef := some s.clk.dieTemp } })

/-- Synthesisers as an event mask by ID. -/
def synthMask : Nat := 14

/-- The calibration data of a synthesiser returns to that before RF_CALIBRATE, a full calibration that was due is due again, and
it relocks; one without a frequency, or in a domain that is off, stays off (04 R112). -/
def calUndone (id : Nat) (s : State) : State :=
  let y := synth s id
  let s := onSynth id (fun y => { y with inCal := false, calWas := false }) s
  let s := if y.freq = 0 ∨ !domOn s (synthDomain id) then stopSynth id s
    else startLock id y.freq (onSynth id (fun y => { y with calDue := false, phase := .off }) s)
  onSynth id (fun z => { z with calDue := y.calWas }) s

/-- RF_CALIBRATE: the synthesisers first, then image and quadrature work. With no RX window tuned, bit 1 starts the fast mode and
measures no record: DESIGN CHOICE. -/
def progRfCalibrate (items : Nat) : Prog :=
  { check := fun s => (firstFail [
      (s.supply.brown, .badState),
      (items.testBit 2 && (openCarriers s).any (fun p => carrierEnabled p.2), .badState)], s)
    needs := fun _ => if items.testBit 2 then [Dom.rfa, Dom.txd] else [Dom.rfa]
    begin := fun s =>
      let s := if items.testBit 0 then startFullCal s else s
      let wait := items.testBit 0 && s.clk.rx.inCal
      let s := if items.testBit 1 && !wait then startImageWork s else s
      let s := if items.testBit 2 && !(items.testBit 0 && s.clk.tx.inCal) then startQcal s else s
      let left := calPending items s
      (if left = 0 then none else some .calibrate, left, s)
    apply := fun _ s =>
      let s := if items.testBit 0 then
          queueEvent 0x1007 synthMask 1 (recordCal s)
        else s
      let s := if items.testBit 2 then
          qcalRecord s else s
      (.ok, [], s)
    undo := fun _ s =>
      let s := { s with tx := { s.tx with qcal := false }
                        rf := { s.rf with priv := s.rf.priv.map (fun r => { r with measuring := false }), toneAt := none } }
      if items.testBit 0 then each [1, 2, 3] calUndone s else s }

def execRfCalibrate (h : Hdr) (items : Nat) (s : State) : Host.Outcome State Fault Refusal :=
  .next (submit (progRfCalibrate items) (.rfCalibrate h items) s)

/-! ### Scan (04 R113, R114, 05 R144 to R146) -/

/-- The RX LO is free in SCAN state, or in ACTIVE with no link open (04 R114). -/
def loFree (s : State) : Bool := s.power.state == 2 || (openLinks s).isEmpty

/-- The window that the RX LO's present frequency gives. -/
def loEdge (s : State) : Nat := s.clk.rx.freq + 8000000

/-- The lane frequencies of the dwell at F: 16 lanes, those above the stop frequency idle (04 R113). -/
def dwellFreqs (f step stop : Nat) : List Nat := ((List.range 16).map (fun k => f + step * k)).filter (fun g => g ≤ stop)

/-- Where the RX LO must stand for the dwell at F; none: it need not move (04 R114). -/
def dwellMove (sc : Scan) (s : State) : Option Nat :=
  if !loFree s || (dwellFreqs sc.f sc.step sc.stop).all (withinRx (loEdge s)) then none
  else some (min sc.f 904000000)

/-- The item of a new scan: another one while the charge of a scan stands, so that its lanes come on top (05 R144). -/
def scanWork (s : State) : WorkRef := ⟨wkScan, b2n (chargeOf s ⟨wkScan, 0⟩).isSome⟩

/-- The lanes of a scan. -/
def scanAsk (s : State) : Ask := { work := scanWork s, need := .nowhere, cycles := 0, uses := [⟨2, 0, 16⟩] }

/-- A scan as it begins. -/
def freshScan (start stop step passes : Nat) (s : State) : Scan :=
  { start := start, stop := stop, step := step, passes := passes, done := 0, f := start, loFree := loFree s, began := now s,
    seen := [], pass := [], total := [] }

/-- The checks of RF_SCAN_START (05 R144, 04 R113); scan lanes last (03 R72). -/
def scanCheck (start stop step passes : Nat) (s : State) : Status × State :=
  match firstFail [
    (decide (¬(470000000 ≤ start ∧ start < stop ∧ stop ≤ 1000000000)), .badParam),
    (decide (¬(10000 ≤ step ∧ step ≤ 200000 ∧ step % 1000 = 0)), .badParam),
    (decide (passes > 255), .badParam),
    (parGet s P.clkRampProfile == 1 && rxEdge s == 0, .badState),
    (parGet s P.clkRampProfile == 1 && !(withinRx (rxEdge s) start && withinRx (rxEdge s) stop), .badParam),
    (!loFree s && (rxEdge s == 0 || decide (stop < rxEdge s ∨ rxEdge s + 96000000 < start)), .badState)] with
  | .ok => admitWork [scanAsk s] s
  | st => (st, s)

/-- RF_SCAN_START: completes at the start of its first dwell. -/
def progRfScanStart (start stop step passes : Nat) : Prog :=
  { check := scanCheck start stop step passes
    needs := fun _ => [Dom.rfa, Dom.chz]
    late := fun s => !locked s 1
    begin := fun s =>
      let sc := freshScan start stop step passes s
      if parGet s P.clkRampProfile = 1 then needLock 1 s
      else match dwellMove sc s with
        | some e => (some (.lock 1), 0, startLock 1 (e - 8000000) s)
        | none => needLock 1 s
    apply := fun _ s =>
      (.ok, [], parSet P.rfrScanPasses 0 (commitWork [⟨wkScan, 0⟩]
        { s with rf := { s.rf with scan := some (freshScan start stop step passes s)
                                   scanReturn := decide (loEdge s ≠ rxEdge s) } }))
    undo := fun _ s => relockWindow 1 s
    drop := dropWork [⟨wkScan, 0⟩] }

def execRfScanStart (h : Hdr) (start stop step passes : Nat) (s : State) : Host.Outcome State Fault Refusal :=
  .next (submit (progRfScanStart start stop step passes) (.rfScanStart h start stop step passes) s)

/-- A scan ends, by its last pass or a stop: SCAN_DONE, lanes released, the RX LO returns (05 R144, R146). -/
def endScan (s : State) : State :=
  match s.rf.scan with
  | none => s
  | some sc =>
    let back := s.rf.scanReturn
    let s := { s with rf := { s.rf with scan := none, scanReturn := false } }
    let s := endWork ⟨wkScan, 0⟩ (queueEvent 0x2003 sc.done sc.total.length (bump P.rfrScansDone s))
    if back then relockWindow 1 s else s

/-- RF_SCAN_STOP: a pass cut short is discarded. With no scan running it does nothing: DESIGN CHOICE. -/
def progRfScanStop : Prog := .direct (fun _ => .ok) (fun s => ([], endScan s))

def execRfScanStop (h : Hdr) (s : State) : Host.Outcome State Fault Refusal :=
  .next (submit progRfScanStop (.rfScanStop h) s)

/-! ### RF_SET_GAIN (05 R125 to R127) -/

/-- A chain set to a mode; a fixed gain takes effect at the next period boundary (05 R127). -/
def setChain (mode : Nat) (gain : Int) (c : Chain) : Chain :=
  if mode = 1 then { c with fixed := true, step := gain - c.gain } else { c with fixed := false, quiet := 0 }

def progRfSetGain (aerial mode : Nat) (gain : Int) : Prog :=
  .direct (fun _ => firstFail [
      (decide (aerial > 2 ∨ mode > 1), .badParam),
      (decide (mode = 1 ∧ ¬(-6 ≤ gain ∧ gain ≤ 30 ∧ gain % 3 = 0)), .badParam)])
    (fun s => ([], { s with rf := { s.rf with
      a := if aerial = 0 ∨ aerial = 2 then setChain mode gain s.rf.a else s.rf.a
      b := if aerial = 1 ∨ aerial = 2 then setChain mode gain s.rf.b else s.rf.b } })) [Dom.rfa]

def execRfSetGain (h : Hdr) (aerial mode : Nat) (gain : Int) (s : State) : Host.Outcome State Fault Refusal :=
  .next (submit (progRfSetGain aerial mode gain) (.rfSetGain h aerial mode gain) s)

/-! ### RF_GET_SPECTRUM (05 R153) -/

def progRfGetSpectrum (start nbins : Nat) : Prog :=
  .direct (fun _ => if 470000000 ≤ start ∧ 1 ≤ nbins ∧ nbins ≤ 1024 ∧ (start - 470000000) / 130000 + nbins ≤ 4096
      then .ok else .badParam)
    (fun s => ((List.range nbins).flatMap (fun i => sBytes 2 (spectrumLevel s ((start - 470000000) / 130000 + i))), s))

def execRfGetSpectrum (h : Hdr) (start nbins : Nat) (s : State) : Host.Outcome State Fault Refusal :=
  .next (submit (progRfGetSpectrum start nbins) (.rfGetSpectrum h start nbins) s)

/-! ### RF_COORDINATE (05 R154 to R156) -/

def progRfCoordinate (links carriers options : Nat) : Prog :=
  { check := fun s => (firstFail [
      (decide (links > 64 ∨ carriers > 16 ∨ (links = 0 ∧ carriers = 0)), .badParam),
      (decide (links > 0 ∧ rxEdge s = 0), .badState),
      (decide (carriers > 0 ∧ txEdge s = 0), .badState)], s)
    apply := fun _ s =>
      let out := coordinate s links carriers options
      (.ok, out.flatMap (leBytes 4),
        queueEvent 0x2007 (out.filter (fun f => f != 0)).length (links + carriers) s) }

def execRfCoordinate (h : Hdr) (links carriers options : Nat) (s : State) : Host.Outcome State Fault Refusal :=
  .next (submit (progRfCoordinate links carriers options) (.rfCoordinate h links carriers options) s)

end Sys2Proof.Machine
end

