-- ==== Sys2Proof/Machine/LinkCommands.lean ====
section
/-! DEFINITION. The link commands (07 R194, R195, R218, R222, 05 R135, R136). -/

namespace Sys2Proof.Machine

/-! ### What the host reads of a link (07 R192, R208, R214) -/

/-- A tracker of a lane. -/
def trk (l : Link) (k : Nat) : Tracker := if k = 0 then l.t0 else l.t1

def onTrk (k : Nat) (f : Tracker → Tracker) (l : Link) : Link :=
  if k = 0 then { l with t0 := f l.t0 } else { l with t1 := f l.t1 }

/-- The ACTIVE tracker. -/
def activeTrk (l : Link) : Option Nat :=
  if l.t0.phase = .active then some 0 else if l.t1.phase = .active then some 1 else none

/-- A tracker that holds a candidate. -/
def candidate (t : Tracker) : Bool := t.phase == .pre || t.phase == .verify

/-- A capture candidate is being verified while a tracker is ACTIVE (07 R202). -/
def capturing (l : Link) : Bool := (activeTrk l).isSome && (candidate l.t0 || candidate l.t1)

/-- `LINK.STATE` (07 R192). -/
def laneState (l : Link) : Nat :=
  if !l.isOpen || l.starting then 0
  else if l.hopping.isSome then 5
  else if (activeTrk l).isSome then (if l.lastOk && !capturing l then 3 else 4)
  else if candidate l.t0 || candidate l.t1 then 2
  else 1

/-- The lane is in SEARCH or VERIFY, or closed: no quality is reported. -/
def laneBlind (l : Link) : Bool := decide (laneState l < 3)

def linkLqNow (l : Link) : Nat := if laneBlind l then 0 else lqOf l.mean l.range
def linkEvmNow (l : Link) : Nat := if laneBlind l then 1000 else evmOf l.mean

/-- The payload of LINK_STATUS (02 R58). -/
def linkStatusBytes (l : Link) : List Byte :=
  leBytes 1 (laneState l) ++ leBytes 1 (linkLqNow l) ++ sBytes 2 (rssiOf l.rssiA) ++ sBytes 2 (rssiOf l.rssiB) ++
    sBytes 4 l.fOff ++ sBytes 2 l.tOff ++ leBytes 2 (linkEvmNow l) ++ leBytes 1 l.aerial

def progLinkStatus (n : Nat) : Prog :=
  .direct (fun _ => if n ≤ 63 then .ok else .badParam) (fun s => (linkStatusBytes (link s n), s))

def execLinkStatus (h : Hdr) (link : Nat) (s : State) : Host.Outcome State Fault Refusal :=
  .next (submit (progLinkStatus link) (.linkStatus h link) s)

/-! ### PRIV_CAL records (05 R135 to R140) -/

/-- The record of a link. -/
def privOf (s : State) (n : Nat) : Option Nat := (List.range 8).find? (fun i => (s.rf.priv.getD i PrivRec.reset).link == some n)

def onPriv (i : Nat) (f : PrivRec → PrivRec) (s : State) : State :=
  { s with rf := { s.rf with priv := s.rf.priv.modify i f } }

/-- Free the record of a link. -/
def freePriv (n : Nat) (s : State) : State :=
  match privOf s n with
  | some i => withTone (onPriv i (fun _ => PrivRec.reset)) s
  | none => s

/-- The lanes of a link are tuned: their NCO, and the mirror paths of a privileged link (05 R135, R141). -/
def tuneLanes (n : Nat) (s : State) : State :=
  let w := laneWord s (link s n).freq
  onLink n (fun l => { l with nco := w, mirror := if (privOf s n).isSome then some (-w) else none }) s

/-- The frequency of the tone for a link: its image partner (05 R131). -/
def toneOf (s : State) (n : Nat) : Int := imagePartner (rxEdge s) (link s n).freq

/-- A link other than the measured one that lies within 200 kHz of the tone is concealed (05 R135). -/
def toneHits (s : State) (n : Nat) : Bool :=
  match measured s with
  | some m => m != n && decide (|toneOf s m - (link s n).freq| ≤ 200000)
  | none => false

/-! ### LINK_OPEN (07 R194) -/

/-- A session number that names an entry. -/
def sesOf (x : Nat) : Option Nat := if x = 0xFFFF then none else some x

/-- The link as LINK_OPEN starts it. -/
def freshLink (hz cls mode ses air : Nat) : Link :=
  { Link.reset with isOpen := true, starting := true, freq := hz, cls := cls, range := mode == 1, session := sesOf ses,
                    air := air }

/-- The cost of a link. -/
def linkAsk (n cls : Nat) : Ask := 
  { work := ⟨wkLink, n⟩, need := .placed .link, cycles := linkCycles cls, uses := linkUses }

/-- The checks of LINK_OPEN, in the order of its table. -/
def linkOpenCheck (n hz cls mode ses air : Nat) (s : State) : Status × State :=
  let p := ses != 0xFFFF
  match firstFail [
    (decide (n > 63), .badParam),
    ((link s n).isOpen, .badState),
    (rxEdge s == 0 || !([Dom.rfa, Dom.chz, Dom.dmd].all (domAllowed s.power.state)) ||
      (s.rf.scan.isSome && loFree s), .badState),
    (decide (cls > 2 ∨ mode > 1 ∨ air > 1023) || (p && decide (ses > 255)) || (p && (session s ses).phase == .free),
      .badParam),
    (p && ((session s ses).phase == .removing || (openLinks s).any (fun q => q.2.session == some ses)), .badState),
    (!insideWindow (rxEdge s) hz, .badParam),
    (!permitted s.rf.perm false hz, .planForbidden)] with
  | .ok =>
    if !routesFit (onLink n (fun _ => freshLink hz cls mode ses air) s) then latencyRefusal s
    else admitWork [linkAsk n cls] s
  | st => (st, s)

/-- The superblock and message fields of a link read as after POR (07 R194). -/
def clearLinkFields (n : Nat) (s : State) : State :=
  each ([P.linkHopTarget n, P.linkHopPeriodLo n, P.linkHopPeriodHi n, P.linkSbTxid n, P.linkSbStatus n, P.linkSbFlags n,
      P.linkSbFlags8 n, P.linkMsgLen n] ++ (List.range 3).map (P.linkSbName0 n) ++ (List.range 16).map (P.linkMsg0 n))
    (fun k => parSet k 0) s

def progLinkOpen (n hz cls mode ses air : Nat) : Prog :=
  { check := linkOpenCheck n hz cls mode ses air
    needs := fun _ => [Dom.rfa, Dom.chz, Dom.dmd, Dom.abc]
    late := fun s => !locked s 1
    begin := needLock 1
    apply := fun _ s =>
      (.ok, [], parSet (P.linkFreq n) hz (clearLinkFields n (tuneLanes n (onLink n (fun _ => freshLink hz cls mode ses air)
        (commitWork [⟨wkLink, n⟩] s)))))
    drop := dropWork [⟨wkLink, n⟩] }

def execLinkOpen (h : Hdr) (link hz cls mode session air : Nat) (s : State) : Host.Outcome State Fault Refusal :=
  .next (submit (progLinkOpen link hz cls mode session air) (.linkOpen h link hz cls mode session air) s)

/-! ### LINK_CLOSE (07 R195) -/

/-- From the boundary the lane is CLOSED, its costs are released, and its record is free. LINK.FREQ of a closed link reads 0: DESIGN
CHOICE. -/
def closeLink (n : Nat) (s : State) : State :=
  let s := each [P.linkFreq n, P.linkHopTarget n, P.linkHopPeriodLo n, P.linkHopPeriodHi n] (fun k => parSet k 0) s
  freePriv n (endWork ⟨wkLink, n⟩ (onLink n (fun _ => Link.reset) s))

def progLinkClose (n : Nat) : Prog :=
  { check := fun s => (firstFail [(decide (n > 63), .badParam), (!(link s n).isOpen, .badState)], s)
    begin := fun s => (some .boundary, 0, s)
    apply := fun _ s => (.ok, [], closeLink n s) }

def execLinkClose (h : Hdr) (link : Nat) (s : State) : Host.Outcome State Fault Refusal :=
  .next (submit (progLinkClose link) (.linkClose h link) s)

/-! ### Hops and retunes (07 R221, R222) -/

/-- The command link runs (09 R283). -/
def clRunning (s : State) : Bool := s.cl.phase == .running

/-- The first multiple of 20 that is at least a period. -/
def nextBeacon (p : Nat) : Nat := ceilDiv p 20 * 20

/-- Whether a retune of an object with a session is announced on the command link. -/
def announced (s : State) (ses : Option Nat) : Bool := ses.isSome && clRunning s

/-- A hop is set: `LINK.HOP_TARGET`, `LINK.HOP_PERIOD`, HOP_SCHEDULED. -/
def scheduleHop (n target p : Nat) (host : Bool) (s : State) : State :=
  let s := onLink n (fun l => { l with hop := some ⟨target, p, 0, announced s l.session, l.freq, 0⟩ }) s
  let s := parSet (P.linkHopTarget n) target (parSet (P.linkHopPeriodLo n) (p % 2 ^ 32) (parSet (P.linkHopPeriodHi n) (p / 2 ^ 32) s))
  queueEvent 0x3004 (n + 256 * b2n host) target s

/-- The pending hop fields read 0. -/
def clearHopFields (n : Nat) (s : State) : State :=
  each [P.linkHopTarget n, P.linkHopPeriodLo n, P.linkHopPeriodHi n] (fun k => parSet k 0) s

/-- The period that a retune uses: announced retunes keep the lead, others the start period plus 2. -/
def retunePeriod (s : State) (ann : Bool) (lead p : Nat) : Option Nat :=
  let p0 := period s
  if p = 0 then some (if ann then nextBeacon (p0 + lead) else p0 + 2)
  else if p < p0 + (if ann then lead else 2) ∨ p0 + 65535 < p then none
  else some p

def progLinkRetune (n hz p : Nat) : Prog :=
  let when_ (s : State) : Option Nat := retunePeriod s (announced s (link s n).session) (parNow s (P.linkHopLead n)) p
  { check := fun s => (firstFail [
      (decide (n > 63), .badParam),
      (!(link s n).isOpen || (link s n).hop.isSome, .badState),
      (!insideWindow (rxEdge s) hz || (when_ s).isNone, .badParam),
      (!permitted s.rf.perm false hz, .planForbidden)], s)
    needs := fun _ => [Dom.rfa, Dom.chz, Dom.dmd]
    begin := fun s => (none, (when_ s).getD 0, s)
    apply := fun a s => (.ok, leBytes 8 a, scheduleHop n hz a true s) }

def execLinkRetune (h : Hdr) (link hz period : Nat) (s : State) : Host.Outcome State Fault Refusal :=
  .next (submit (progLinkRetune link hz period) (.linkRetune h link hz period) s)

/-! ### LINK_SET_ALT (07 R218) -/

/-- The entries that take effect at the next boundary. -/
def altNow (s : State) : SMap Nat := s.rf.altNext.getD s.rf.alt

def progLinkSetAlt (n : Nat) (fs : List Nat) : Prog :=
  { check := fun s => (firstFail [
      (decide (n > 63), .badParam),
      (rxEdge s == 0, .badState),
      (fs.any (fun f => f != 0 && !insideWindow (rxEdge s) f), .badParam),
      (fs.any (fun f => f != 0 && !permitted s.rf.perm false f), .planForbidden)], s)
    apply := fun _ s =>
      let es := fs ++ List.replicate (8 - fs.length) 0
      (.ok, [], { s with rf := { s.rf with altNext := some (smSetList 0 (altNow s) (8 * n) es) } }) }

def execLinkSetAlt (h : Hdr) (link : Nat) (freqs : List Nat) (s : State) : Host.Outcome State Fault Refusal :=
  .next (submit (progLinkSetAlt link freqs) (.linkSetAlt h link freqs) s)

/-- The check of an `ALT_FREQ` commit: the non-zero entries of open links (07 R218). -/
def altCommitCheck (m : SMap Nat) (s : State) : Status :=
  let fs := (m.filter (fun e => (link s (e.1 / 8)).isOpen)).map Prod.snd
  firstFail [(fs.any (fun f => !insideWindow (rxEdge s) f), .badParam),
    (fs.any (fun f => !permitted s.rf.perm false f), .planForbidden)]

/-! ### LINK_PRIVILEGE (05 R135, R136) -/

/-- The record that a link takes: its own, or the lowest that is free. -/
def privSlot (s : State) (n : Nat) : Option Nat :=
  match privOf s n with
  | some i => some i
  | none => (List.range 8).find? (fun i => (s.rf.priv.getD i PrivRec.reset).link == none)

def progLinkPrivilege (n on : Nat) : Prog :=
  { check := fun s => (firstFail [
      (decide (n > 63 ∨ on > 1), .badParam),
      (!(link s n).isOpen, .badState),
      (on == 1 && (privSlot s n).isNone, .refusedCapacity)], s)
    needs := fun _ => [Dom.rfa, Dom.chz]
    begin := fun s =>
      if on = 0 then (none, 0, s)
      else match privSlot s n with
        | some i => (some (.privCal n), i,
            tuneLanes n (withTone (onPriv i (fun r => { r with link := some n, measuring := true })) s))
        | none => (none, 0, s)
    apply := fun _ s =>
      if on = 0 then (.ok, [], freePriv n (onLink n (fun l => { l with privNext := some false }) s))
      else (.ok, [], queueEvent 0x2004 n ((privOf s n).getD 0) s)
    undo := fun i s => if on = 0 then s
      else tuneLanes n (withTone (onPriv i (fun r => if r.valid then { r with measuring := false } else PrivRec.reset)) s) }

def execLinkPrivilege (h : Hdr) (link on : Nat) (s : State) : Host.Outcome State Fault Refusal :=
  .next (submit (progLinkPrivilege link on) (.linkPrivilege h link on) s)

end Sys2Proof.Machine
end

