-- ==== Sys2Proof/Machine/TxCommands.lean ====
section
/-! DEFINITION. The downlink commands: carriers, power steps, enabling and the PA pins (08 R230 to R246). -/

namespace Sys2Proof.Machine

/-! ### Levels (08 R237, R238), 0.01 dBm -/

/-- The ceiling step of a table. -/
def ceilingOf (t : Steps) : Nat := t.ceilings.headD 0

/-- L(s) + TRIM(s). -/
def stepLevel (t : Steps) (k : Nat) : Int := -4660 + 50 * (k : Int) + smGet 0 t.trim k

/-- The effective level of a step. -/
def effLevel (t : Steps) (k : Nat) : Int := min (stepLevel t k) (stepLevel t (ceilingOf t))

/-! ### PA pins (08 R244 to R247) -/

/-- Whether `PA_EN` is driven high, a rise that has come due included. -/
def paEnNow (s : State) : Bool := s.tx.paEn || s.tx.enAt.any (fun t => t ≤ now s)

/-- Whether `PA_MUTE_N` is driven high. It is held low through a quadrature calibration and the transmit loopback (08 R229, 18 R471). -/
def paMuteNow (s : State) : Bool := (s.tx.paMute || s.tx.muteAt.any (fun t => t ≤ now s)) && !s.tx.qcal && !s.rattle.txLoop

/-- The first boundary at least `us` microseconds after an instant. -/
def boundaryAfter (t us : Nat) : Nat := ceilDiv (t * 100 + us * 12288) (periodLen * 100)

/-- An instant `us` microseconds before a boundary. -/
def beforeBoundary (m us : Nat) : Nat := m * periodLen - ceilDiv (us * 12288) 100

/-- Some carrier radiates or ramps, or a start or resumption keeps the pins. -/
def paBusy (s : State) : Bool := (openCarriers s).any (fun p => carrierEnabled p.2)

/-- When no carrier radiates or ramps any longer, `PA_MUTE_N` falls, and `PA_EN` after `TX.PA_OFF_DELAY` (08 R246). -/
def paRelease (s : State) : State :=
  if (openCarriers s).any (fun p => p.2.phase == .on || p.2.phase == .stopping || p.2.phase == .starting) then s
  else
    let high := paEnNow s
    let held := (openCarriers s).any (fun p => p.2.phase == .held)
    { s with tx := { s.tx with paMute := false, muteAt := none, enAt := none, paEn := high, offDelay := high && !held
                               offSince := if s.tx.offDelay then s.tx.offSince else now s } }

/-! ### CARRIER_OPEN (08 R230) -/

def carrierAsk (c cls : Nat) : Ask := 
  { work := ⟨wkCarrier, c⟩, need := .placed .carrier, cycles := carrierCycles cls, uses := carrierUses }

/-- The carrier as CARRIER_OPEN starts it. -/
def freshCarrier (hz cls step ses enc : Nat) : Carrier :=
  { Carrier.reset with phase := .opened, starting := true, freq := hz, cls := cls, step := step, session := sesOf ses,
                       encrypt := enc == 1 }

def carrierOpenCheck (c hz cls step ses enc : Nat) (s : State) : Status × State :=
  let p := ses != 0xFFFF
  match firstFail [
    (decide (c > 15), .badParam),
    ((carrier s c).phase != .closed, .badState),
    (txEdge s == 0 || !domAllowed s.power.state Dom.txd, .badState),
    (decide (cls > 2 ∨ step > 63 ∨ enc > 1) || (p && decide (ses > 255)) || (p && (session s ses).phase == .free) ||
      (enc == 1 && !p), .badParam),
    (p && ((session s ses).phase == .removing || (openCarriers s).any (fun q => q.2.session == some ses)), .badState),
    (!carrierFreqOk s c hz, .badParam),
    (decide (step > ceilingOf s.tx.steps), .planForbidden),
    (!permitted s.rf.perm true hz, .planForbidden)] with
  | .ok =>
    if !routesFit (onCarrier c (fun _ => freshCarrier hz cls step ses enc) s) then latencyRefusal s
    else admitWork [carrierAsk c cls] s
  | st => (st, s)

def progCarrierOpen (c hz cls step ses enc : Nat) : Prog :=
  { check := carrierOpenCheck c hz cls step ses enc
    needs := fun _ => [Dom.rfa, Dom.txd, Dom.abc]
    late := fun s => !locked s 2
    begin := needLock 2
    apply := fun _ s =>
      (.ok, [], each [(P.txFreq c, hz), (P.txStep c, step), (P.txStep8 c, cls)] (fun x => parSet x.1 x.2)
        (onCarrier c (fun _ => freshCarrier hz cls step ses enc) (commitWork [⟨wkCarrier, c⟩] s)))
    drop := dropWork [⟨wkCarrier, c⟩] }

def execCarrierOpen (h : Hdr) (carrier hz cls step session encrypt : Nat) (s : State) : Host.Outcome State Fault Refusal :=
  .next (submit (progCarrierOpen carrier hz cls step session encrypt) (.carrierOpen h carrier hz cls step session encrypt) s)

/-! ### Stopping carriers (08 R234, R245) -/

/-- Radiating carriers of a mask finish the frame in progress and ramp down; a HELD carrier, which radiates nothing, is
stopped at once. -/
def rampDown (mask cause : Nat) (s : State) : State :=
  paRelease (each (maskBits 16 mask) (fun c s =>
    match (carrier s c).phase with
    | .on => onCarrier c (fun q => { q with phase := .stopping, stopCause := cause, m := period s }) s
    | .held => queueEvent 0x4002 c cause (onCarrier c (fun q => { q with phase := .opened }) s)
    | _ => s) s)

/-- The ramp of a carrier has ended; after a brown-hold cut with `SYS.TX_AUTO_RESUME` 1 it is HELD (08 R248). -/
def rampEnded (c : Nat) (s : State) : State :=
  let q := carrier s c
  let held := decide (q.stopCause = 3) && parGet s P.sysTxAutoResume == 1
  queueEvent 0x4002 c q.stopCause
    (onCarrier c (fun q => { q with phase := if held then .held else .opened, m := 0 }) s)

/-- What radiation needs: a declared lock of the TX LO, TXD running, no brown hold. -/
def mayRadiate (s : State) : Bool :=
  locked s 2 && domOn s Dom.txd && !restarting s Dom.txd && !unclocked s && !s.supply.brown

/-! ### What a carrier radiates (06 R172, R173, R176, 08 R236, R244, R245) -/

/-- `n` symbols of nothing, and the ramp of 8 symbols with a = 0. -/
def airOff (n : Nat) : List AirSym := List.replicate n .off
def airRamp : List AirSym := List.replicate 8 .ramp

/-- The period before a start or resumption boundary: ramp and preamble, which ends at the boundary. -/
def startAir : List AirSym := airOff 168 ++ airRamp ++ downlinkPreamble.map .sym

/-- The period n of a retune. -/
def retuneAir : List AirSym := airRamp ++ airOff 160 ++ airRamp ++ downlinkPreamble.map .sym

/-- The period after the last frame of a carrier. -/
def stopAir : List AirSym := airRamp ++ airOff 232

/-- A frame: its data bits as symbols, with sync word and pilot blocks. -/
def frameAir (frame : List Bool) : List AirSym := (downlinkSymbols (bitSymbols frame)).map .sym

/-- Whether the frame of a period is that of a retune, which is discarded (08 R236). -/
def retuneFrame (p : Nat) (q : Carrier) : Bool := q.retuning && q.retune.any (fun r => decide (p ≤ r.period))

/-- What a carrier radiates over the present period when nothing cuts it. -/
def airOf (s : State) (q : Carrier) : List AirSym :=
  if !domOn s Dom.txd || restarting s Dom.txd || unclocked s then airOff 240
  else match q.phase with
    | .on => if retuneFrame (period s) q then retuneAir else frameAir q.frame
    | .starting | .held =>
      if !mayRadiate s then airOff 240
      else if q.m = period s then (if retuneFrame (period s) q then airOff 240 else frameAir q.frame)
      else if q.m = period s + 1 then startAir else airOff 240
    | .stopping => if q.stopCause ≠ 3 ∧ q.m < period s then stopAir else airOff 240
    | .closed | .opened => airOff 240

/-- The downlink symbols of the present period that have begun. -/
def symbolsBegun (s : State) : Nat := min 240 (ceilDiv (now s - period s * periodLen) 256)

/-- A carrier goes over to other symbols in the middle of a period, after the symbol in progress. -/
def cutAir (after : List AirSym) (c : Nat) (s : State) : State :=
  let k := symbolsBegun s
  onCarrier c (fun q => { q with air := ((q.air ++ airOff 240).take k ++ after ++ airOff 240).take 240 }) s

/-- The ramp and preamble of carriers whose boundary is the next one. -/
def airStarts (cs : List Nat) (m : Nat) (s : State) : State :=
  if m = period s + 1 then each cs (fun c => onCarrier c (fun q => { q with air := startAir })) s else s

/-- The frequency offset of a carrier in Hz, `t` symbols after the boundary: a deviation unit is 60 kHz (06 R159, R163). -/
def carrierOffset (q : Carrier) (t : Rat) : Rat :=
  60000 * freqOffset (q.air.map (fun x => match x with | .sym a => a | _ => 0)) t

/-- The first boundary from `m` at which no retune of a carrier takes effect. -/
def clearOfRetunes (cs : List Nat) (s : State) : Nat → Nat → Nat
  | 0, m => m
  | k + 1, m => if cs.any (fun c => (carrier s c).retune.any (fun r => r.period == m)) then clearOfRetunes cs s k (m + 1) else m

/-- When what a HELD carrier waited for is over, its resumption boundary is set, and the instants at which the PA pins rise
for it; where `PA_EN` is low, as after the rollback of an entry, with the lead of a start (08 R244, R248, 15 R414). -/
def planResume (s : State) : State :=
  let held := ((openCarriers s).filter (fun p => p.2.phase == .held && p.2.m == 0)).map Prod.fst
  if held = [] || !mayRadiate s then s
  else
    let en := parGet s P.txPaEnLead + 150
    let un := parGet s P.txPaUnmuteLead + 150
    let up := paEnNow s
    let m := if up then boundaryAfter (now s) un else clearOfRetunes held s 17 (boundaryAfter (now s) en)
    let tx := { s.tx with
      paEn := up, enAt := if up then none else some (beforeBoundary m en), offDelay := false
      paMute := paMuteNow s, muteAt := if paMuteNow s then none else some (beforeBoundary m un) }
    airStarts held m (each held (fun c => onCarrier c (fun q => { q with m := m })) { s with tx := tx })

/-- A carrier that a command or an entry stopped is HELD until its new start boundary; one still ramping ends its ramp (15 R414). -/
def resumeCarrier (c : Nat) (s : State) : State :=
  let s := if (carrier s c).phase = .stopping then rampEnded c s else s
  if (carrier s c).phase = .opened then onCarrier c (fun q => { q with phase := .held, m := 0, stopCause := 6 }) s else s

/-- The carriers of a mask that a stop takes from the air, or that are HELD. -/
def toRamp (mask : Nat) (s : State) : Nat :=
  ((maskBits 16 mask).map (fun c => b2n ((carrier s c).phase == .on || (carrier s c).phase == .held) * 2 ^ c)).sum

/-- A stop that is undone: its carriers resume (02 R53). -/
def unramp (kept : Nat) (s : State) : State := planResume (each (maskBits 16 kept) resumeCarrier s)

/-- Carriers that a command stops are not for the rollback of an entry to resume. -/
def forgetStopped (mask : Nat) (s : State) : State :=
  { s with power := { s.power with entry := s.power.entry.map (fun e =>
      { e with carriers := e.carriers.filter (fun c => !mask.testBit c) }) } }

/-- Carriers of a mask that are ramping down. -/
def rampingOf (mask : Nat) (s : State) : Nat :=
  ((maskBits 16 mask).filter (fun c => (carrier s c).phase == .stopping)).foldl (fun m c => m + 2 ^ c) 0

def progTxDisable (mask : Nat) : Prog :=
  { check := fun s => (if mask = 0 then .badParam else .ok, s)
    begin := fun s =>
      let t := forgetStopped mask (rampDown mask 1 s)
      let m := rampingOf mask t
      (if m = 0 then none else some (.rampDown m), toRamp mask s, t)
    undo := unramp }

def execTxDisable (h : Hdr) (mask : Nat) (s : State) : Host.Outcome State Fault Refusal :=
  .next (submit (progTxDisable mask) (.txDisable h mask) s)

/-- A carrier closes from the next boundary; its costs are released there. -/
def closeCarrier (c : Nat) (s : State) : State :=
  endWork ⟨wkCarrier, c⟩ (each [P.txFreq c, P.txRetuneTarget c, P.txRetunePeriodLo c, P.txRetunePeriodHi c]
    (fun k => parSet k 0) (onCarrier c (fun _ => Carrier.reset) s))

/-- CARRIER_CLOSE: an enabled carrier is stopped first; a carrier that radiates nothing closes at the next boundary. -/
def progCarrierClose (c : Nat) : Prog :=
  { check := fun s => (firstFail [(decide (c > 15), .badParam), ((carrier s c).phase == .closed, .badState)], s)
    begin := fun s =>
      let t := forgetStopped (2 ^ c) (rampDown (2 ^ c) 2 s)
      (if (carrier t c).phase = .stopping then some (.rampDown (2 ^ c)) else some .boundary, toRamp (2 ^ c) s, t)
    apply := fun _ s => (.ok, [], closeCarrier c s)
    undo := unramp }

def execCarrierClose (h : Hdr) (carrier : Nat) (s : State) : Host.Outcome State Fault Refusal :=
  .next (submit (progCarrierClose carrier) (.carrierClose h carrier) s)

/-! ### CARRIER_SET_POWER (08 R240) -/

def progCarrierSetPower (c step : Nat) : Prog :=
  .direct (fun s => firstFail [
      (decide (c > 15 ∨ step > 63), .badParam),
      ((carrier s c).phase == .closed, .badState),
      (decide (step > ceilingOf s.tx.steps), .planForbidden)])
    (fun s => ([], onCarrier c (fun q => { q with stepNext := some step }) s)) [Dom.txd]

def execCarrierSetPower (h : Hdr) (carrier step : Nat) (s : State) : Host.Outcome State Fault Refusal :=
  .next (submit (progCarrierSetPower carrier step) (.carrierSetPower h carrier step) s)

/-! ### CARRIER_RETUNE (08 R235) -/

/-- A retune is set. -/
def scheduleRetune (c hz p : Nat) (s : State) : State :=
  each [(P.txRetuneTarget c, hz), (P.txRetunePeriodLo c, p % 2 ^ 32), (P.txRetunePeriodHi c, p / 2 ^ 32)]
    (fun x => parSet x.1 x.2)
    (onCarrier c (fun q => { q with retune := some ⟨hz, p, 0, announced s q.session, q.freq, 0⟩ }) s)

def carrierRetuneWhen (c p : Nat) (s : State) : Option Nat :=
  retunePeriod s (announced s (carrier s c).session) (parNow s (P.txHopLead c)) p

def carrierRetuneCheck (c hz p : Nat) (s : State) : Status :=
  firstFail [
    (decide (c > 15), .badParam),
    ((carrier s c).phase == .closed || (carrier s c).retune.isSome, .badState),
    (!carrierFreqOk s c hz || (carrierRetuneWhen c p s).isNone, .badParam),
    (!permitted s.rf.perm true hz, .planForbidden)]

def progCarrierRetune (c hz p : Nat) : Prog :=
  { check := fun s => (carrierRetuneCheck c hz p s, s)
    needs := fun _ => [Dom.txd]
    begin := fun s => (none, (carrierRetuneWhen c p s).getD 0, s)
    apply := fun a s => (.ok, leBytes 8 a, scheduleRetune c hz a s) }

def execCarrierRetune (h : Hdr) (carrier hz period : Nat) (s : State) : Host.Outcome State Fault Refusal :=
  .next (submit (progCarrierRetune carrier hz period) (.carrierRetune h carrier hz period) s)

/-! ### TX_ENABLE (08 R243, R244) -/

/-- The carriers of a mask that a TX_ENABLE starts. -/
def toStart (mask : Nat) (s : State) : List Nat := (maskBits 16 mask).filter (fun c => (carrier s c).phase == .opened)

/-- The start sequence begins: start boundary m, and the instants at which the PA pins rise. -/
def startSequence (mask : Nat) (s : State) : State :=
  let cs := toStart mask s
  if cs = [] then s
  else
    let en := parGet s P.txPaEnLead
    let un := parGet s P.txPaUnmuteLead
    let m := clearOfRetunes cs s 17 (boundaryAfter (now s) ((if paEnNow s then un else en) + 150))
    let tx := { s.tx with
      paEn := paEnNow s, paMute := paMuteNow s, offDelay := false
      enAt := if paEnNow s then none else some (beforeBoundary m (en + 150))
      muteAt := if paMuteNow s then none else some (beforeBoundary m (un + 150)) }
    airStarts cs m (each cs (fun c => onCarrier c (fun q => { q with phase := .starting, m := m })) { s with tx := tx })

/-- The wait for the start boundary. -/
def txStartWait (mask : Nat) (s : State) : Option Wait × Nat × State :=
  let t := startSequence mask s
  (if toStart mask s = [] then none else some .txStart, 0, t)

def progTxEnable (mask : Nat) : Prog :=
  { check := fun s => (firstFail [
      (mask == 0, .badParam),
      ((maskBits 16 mask).any (fun c => (carrier s c).phase == .closed), .badState),
      (txEdge s == 0 || !domAllowed s.power.state Dom.txd, .badState),
      (s.supply.brown || s.rattle.txLoop, .badState)], s)
    needs := fun _ => [Dom.rfa, Dom.txd]
    late := fun s => !locked s 2
    begin := fun s => if locked s 2 then txStartWait mask s else needLock 2 s
    resume := fun _ s => txStartWait mask s
    undo := fun _ s => paRelease (each (maskBits 16 mask) (fun c s =>
      if (carrier s c).phase = .starting then onCarrier c (fun q => { q with phase := .opened }) s else s) s) }

def execTxEnable (h : Hdr) (mask : Nat) (s : State) : Host.Outcome State Fault Refusal :=
  .next (submit (progTxEnable mask) (.txEnable h mask) s)

/-- Every TX_ENABLE that has not reached its boundary m ends with BAD_STATE (08 R243). -/
def failStarts (s : State) : State :=
  each (s.running.filter (fun r => r.op == 0x44 && r.wait != .replyDelay)) (fun r s => match r.cmd with
    | .txEnable _ m => failCmd (progTxEnable m) r .badState [] (stopRunning r s)
    | _ => s) s

end Sys2Proof.Machine
end

