-- ==== Sys2Proof/Machine/ClCommands.lean ====
section
/-! DEFINITION. The command-link and session commands (09 R265 to R279). -/

namespace Sys2Proof.Machine

/-! ### Sessions (09 R265 to R274) -/

/-- Policy extension 0 protects SESSION_ADD and SESSION_REMOVE (16 R428). -/
def sessionGuard (s : State) : Option (List Byte) := if (policy s).testBit 8 then some [] else none

/-- The open link that names a session. -/
def linkOfSession (s : State) (n : Nat) : Option Nat := ((openLinks s).find? (fun p => p.2.session == some n)).map Prod.fst

/-- The open carrier that names a session. -/
def carrierOfSession (s : State) (n : Nat) : Option Nat := ((openCarriers s).find? (fun p => p.2.session == some n)).map Prod.fst

def sessionNamed (s : State) (n : Nat) : Bool := (linkOfSession s n).isSome || (carrierOfSession s n).isSome

/-- The session that holds a transmitter ID. -/
def sessionOfTx (s : State) (tx : Nat) : Option Nat :=
  (s.sessions.find? (fun p => p.2.phase != .free && p.2.txId == tx)).map Prod.fst

/-- The boundary of a key change asked for in the present period (09 R272). -/
def keyBoundary (s : State) : Nat := nextBeacon (period s + 20 * parGet s P.clKeyLead)

def progSessionAdd (n tx flags : Nat) (key : List Byte) : Prog :=
  { check := fun s =>
      let x := session s n
      (firstFail [
        (tx == 0 || tx == 0xFFFFFFFF || (match sessionOfTx s tx with | some m => m != n | none => false), .badParam),
        ((x.phase != .free && x.txId != tx) || x.phase == .removing, .badState),
        (x.phase != .free && x.flags != flags % 4 && sessionNamed s n, .badState),
        (x.change.isSome, .badState)], s)
    guard := sessionGuard
    begin := fun s => (none, keyBoundary s, s)
    apply := fun a s =>
      (.ok, [], onSession n (fun x =>
        if x.phase = .free then { Session.reset with phase := .added, flags := flags % 4, txId := tx, key := key }
        else if x.phase = .joined && clRunning s then
          { x with flags := flags % 4, pendKey := key, change := some ⟨a, false, false, 0, false⟩ }
        else { x with flags := flags % 4, key := key, epoch := (x.epoch + 1) % 2 ^ 32 }) s) }

def execSessionAdd (h : Hdr) (session txId flags : Nat) (key : List Byte) (s : State) : Host.Outcome State Fault Refusal :=
  .next (submit (progSessionAdd session txId flags key) (.sessionAdd h session txId flags key) s)

/-- SESSION_REMOVE (09 R268). -/
def progSessionRemove (n : Nat) : Prog :=
  { check := fun s => (firstFail [
      (decide (n > 255), .badParam),
      ((session s n).phase == .free || (session s n).phase == .removing || sessionNamed s n, .badState)], s)
    guard := sessionGuard
    apply := fun _ s =>
      if (session s n).phase = .joined && clRunning s then
        (.ok, [], onSession n (fun x => { x with phase := .removing, remove := true, removeAt := now s }) s)
      else (.ok, [], queueEvent 0x500D n 0 (onSession n (fun _ => Session.reset) s)) }

def execSessionRemove (h : Hdr) (session : Nat) (s : State) : Host.Outcome State Fault Refusal :=
  .next (submit (progSessionRemove session) (.sessionRemove h session) s)

/-- The number of a session state (09 R265). -/
def sesPhaseNo : SesPhase → Nat
  | .free => 0 | .added => 1 | .assigned => 2 | .joined => 3 | .lost => 4 | .removing => 5

/-- The payload of SESSION_STATUS (09 R271). -/
def sessionStatusBytes (x : Session) : List Byte :=
  if x.phase = .free then leBytes 1 0 ++ leBytes 2 0x8000 ++ leBytes 8 0 ++ leBytes 1 127
  else leBytes 1 (sesPhaseNo x.phase) ++ sBytes 2 x.level ++ leBytes 8 x.heard ++ leBytes 1 x.battery

def progSessionStatus (n : Nat) : Prog :=
  .direct (fun _ => if n ≤ 255 then .ok else .badParam) (fun s => (sessionStatusBytes (session s n), s))

def execSessionStatus (h : Hdr) (session : Nat) (s : State) : Host.Outcome State Fault Refusal :=
  .next (submit (progSessionStatus session) (.sessionStatus h session) s)

/-- SESSION_SEND (09 R273): the message goes out with the session's next toggle value. -/
def progSessionSend (n : Nat) (data : List Byte) : Prog :=
  { check := fun s => (firstFail [
      (decide (n > 255), .badParam),
      ((session s n).phase != .joined || !clRunning s, .badState)], s)
    needs := fun _ => [Dom.clr]
    begin := fun s => (some (.sessionSend n), 0,
      onSession n (fun x => { x with out := some ⟨data, x.toggle, 0⟩, toggle := !x.toggle }) s)
    apply := fun _ s => (.ok, [], onSession n (fun x => { x with out := none }) s)
    undo := fun _ s => onSession n (fun x => { x with out := none }) s }

def execSessionSend (h : Hdr) (session : Nat) (data : List Byte) (s : State) : Host.Outcome State Fault Refusal :=
  .next (submit (progSessionSend session data) (.sessionSend h session data) s)

/-- Running SESSION_SENDs end with BAD_STATE: of one session when it leaves JOINED, of all when the command link stops
(09 R273, R279). -/
def failSends (only : Option Nat) (s : State) : State :=
  each (s.running.filter (fun r => match r.wait with
    | .sessionSend n => only.all (fun m => m == n)
    | _ => false)) (fun r s => match r.cmd with
      | .sessionSend _ n d => failCmd (progSessionSend n d) r .badState [] (stopRunning r s)
      | _ => s) s

/-! ### CL_START and CL_STOP (09 R253, R278, R279) -/

/-- A frequency of the command link's channels. -/
def clFreqOk (f : Nat) : Bool := decide (2401000000 ≤ f ∧ f ≤ 2481000000 ∧ f % 1000000 = 0)

/-- The lock that a CL_START or a channel change waits for, which comes within a beacon slot (04 R110). -/
def beaconLock : Wait := .lock 4

/-- A CL_START is in progress, a stall on a wake included: `CL.STATE` is STARTING. -/
def clStarting (s : State) : Bool := s.cl.phase == .starting || runningOp 0x50 s

/-- The frequency and state of the command synthesiser, kept by a CL_START that may change nothing. -/
def clSynthKept (s : State) : Nat := 4 * s.clk.cmd.freq + 2 * b2n (s.clk.cmd.phase == .off) + b2n (s.cl.phase == .muted)

/-- A CL_START that changed nothing leaves the command synthesiser at its frequency, and stopped if it was stopped. -/
def clSynthBack (a : Nat) (s : State) : State :=
  if s.clk.cmd.freq = a / 4 then s
  else
    let s := startLock 3 (a / 4) s
    if a / 2 % 2 = 1 && !s.clk.cmd.inCal then stopSynth 3 s else s

def progClStart (hz : Nat) (power : Int) : Prog :=
  { check := fun s => (firstFail [
      ((s.cl.phase != .stopped && s.cl.phase != .muted) || clStarting s, .badState),
      (s.supply.brown || !domAllowed s.power.state Dom.clr, .badState),
      (!clFreqOk hz || decide (power < -20 ∨ 0 < power), .badParam)], s)
    needs := fun _ => [Dom.rfa, Dom.clr]
    late := fun s => !(locked s 3 && s.clk.cmd.freq == hz)
    begin := fun s =>
      let t := { s with cl := { s.cl with phase := .starting, b := nextBeacon (period s + 1), acks := 0, prevAcks := 0 } }
      (some (if locked s 3 && s.clk.cmd.freq == hz then .clStart else beaconLock), clSynthKept s, t)
    resume := fun a s => (some .clStart, a, s)
    apply := fun _ s =>
      (.ok, [], parSet P.clFreq hz (parSet P.clTxPower (uint 8 power)
        { s with cl := { s.cl with phase := .running, freq := hz, power := power } }))
    undo := fun a s =>
      if s.cl.phase ≠ .starting then s
      else clSynthBack a { s with cl := { s.cl with phase := if a % 2 = 1 then .muted else .stopped } } }

def execClStart (h : Hdr) (hz : Nat) (power : Int) (s : State) : Host.Outcome State Fault Refusal :=
  .next (submit (progClStart hz power) (.clStart h hz power) s)

/-- The pending command-link hop fields read 0. -/
def clearClHop (s : State) : State :=
  each [P.clHopTarget, P.clHopPeriodLo, P.clHopPeriodHi] (fun k => parSet k 0) { s with cl := { s.cl with hop := none } }

/-- CL_HOP (09 R275, R276). -/
def progClHop (kind i hz p : Nat) : Prog :=
  if kind = 0 then
    let q := progLinkRetune i hz p
    { q with
      check := fun s => match q.check s with
        | (.ok, t) => (if announced s (link s i).session then .ok else .badState, t)
        | r => r
      apply := fun a s => let (st, _, t) := q.apply a s; (st, [], t) }
  else if kind = 1 then
    let q := progCarrierRetune i hz p
    { q with
      check := fun s => match q.check s with
        | (.ok, t) => (if announced s (carrier s i).session then .ok else .badState, t)
        | r => r
      apply := fun a s => let (st, _, t) := q.apply a s; (st, [], t) }
  else
    let when_ (s : State) : Nat := nextBeacon (period s + parGet s P.clHopLead)
    { check := fun s => (firstFail [
        (decide (kind > 2), .badParam),
        (s.cl.phase != .running || s.cl.hop.isSome, .badState),
        (!clFreqOk hz || hz == s.cl.freq, .badParam),
        (decide (p ≠ 0 ∧ (p % 20 ≠ 0 ∨ p < period s + parGet s P.clHopLead ∨ period s + 1000 < p)), .badParam)], s)
      needs := fun _ => [Dom.clr]
      begin := fun s =>
        let n := if p = 0 then when_ s else p
        let s := { s with cl := { s.cl with hop := some ⟨hz, n, 0, false, s.cl.freq, 0⟩ } }
        (some .clHop, n, each [(P.clHopTarget, hz), (P.clHopPeriodLo, n % 2 ^ 32), (P.clHopPeriodHi, n / 2 ^ 32)]
          (fun x => parSet x.1 x.2) s)
      apply := fun _ s =>
        (.ok, [], queueEvent 0x5008 0 hz (clearClHop (parSet P.clFreq hz { s with cl := { s.cl with freq := hz } })))
      undo := fun _ s => clearClHop s }

def execClHop (h : Hdr) (kind index hz period : Nat) (s : State) : Host.Outcome State Fault Refusal :=
  .next (submit (progClHop kind index hz period) (.clHop h kind index hz period) s)

/-- A running command-link hop is cancelled: BAD_STATE, DESIGN CHOICE. -/
def cancelClHop (s : State) : State :=
  clearClHop (each (waitingFor .clHop s) (fun r s => match r.cmd with
    | .clHop _ k i f p => failCmd (progClHop k i f p) r .badState [] (stopRunning r s)
    | _ => s) s)

/-! ### Slots (09 R258) -/

/-- The session that a slot polls. -/
def slotSession (s : State) (slot : Nat) : Nat := (30 * (s.cl.b / 20) + slot) % 256

/-- A join slot. -/
def joinSlot (s : State) (slot : Nat) : Bool :=
  let p := (session s (slotSession s slot)).phase
  parGet s P.clJoinEnable == 1 && (p == .free || p == .added)

/-- A slot that coexistence requests (09 R281). -/
def slotRequested (s : State) (slot : Nat) : Bool :=
  let p := (session s (slotSession s slot)).phase
  parGet s P.clCoexCfg == 1 && parGet s P.clCoexCfg1 == 1 && decide (slot < 30) &&
    (joinSlot s slot || p == .assigned || p == .joined || p == .lost)

/-! ### The end of a beacon slot, and of the link (09 R255, R279, R280) -/

def onCl (f : Cl → Cl) (s : State) : State := { s with cl := f s.cl }

/-- The object that a sent HOP element announced counts one time more. -/
def countHop (kind ses : Nat) (s : State) : State :=
  if kind = 0 then (linkOfSession s ses).elim s (fun n =>
    onLink n (fun l => { l with hop := l.hop.map (fun h => { h with sent := h.sent + 1 }) }) s)
  else (carrierOfSession s ses).elim s (fun n =>
    onCarrier n (fun c => { c with retune := c.retune.map (fun h => { h with sent := h.sent + 1 }) }) s)

/-- What the element of a beacon that has been radiated leaves behind. -/
def elementSent (s : State) : State :=
  let kind := fldAt s.cl.beacon 17 1
  let n := fldAt s.cl.beacon 18 1
  match kind with
  | 1 => countHop (fldAt s.cl.beacon 19 1) n s
  | 2 => onCl (fun c => { c with servedOther := n }) s
  | 3 => onCl (fun c => { c with servedOther := n })
      (onSession n (fun x => { x with change := x.change.map (fun k => { k with half := 1 - k.half }) }) s)
  | 4 => onCl (fun c => { c with served := n })
      (onSession n (fun x => { x with out := x.out.map (fun m => { m with next := m.next + 1 }) }) s)
  | 5 => onSession n (fun x => { x with remove := false }) s
  | _ => s

/-- The beacon slot has ended: a beacon that was sent counts, and the receiver is switched on (09 R255). -/
def beaconEnds (s : State) : State :=
  let s := if s.cl.beaconing then bump P.clBeaconsSent (elementSent s) else s
  if !s.cl.turning then s
  else
    let more := slotRequested s 0
    onCl (fun c => { c with beaconing := false, turning := false, txen := false, rxen := true, coexReq := c.coexReq && more,
                            coexPri := c.coexPri && more }) s

/-- The link is STOPPED or MUTED: its pins are low, and the next superframe has no acknowledgements to send (09 R259, R282). -/
def clQuiet (phase : ClPhase) (s : State) : State :=
  onCl (fun c => { c with phase := phase, listening := false, txen := false, rxen := false, coexReq := false, coexPri := false,
                          beaconing := false, turning := false, acks := 0, prevAcks := 0 }) s

/-- The command link stops with a cause (09 R279, R280): a beacon in progress ends first, and counts; CL_STOP, cause 1, cancels a
pending hop. -/
def stopCl (cause : Nat) (s : State) : State :=
  let s := beaconEnds s
  let s := failSends none (if cause = 1 then cancelClHop s else s)
  queueEvent 0x5009 0 cause (clQuiet .stopped s)

/-- A CL_START in progress when the command link stops ends with BAD_STATE: DESIGN CHOICE. -/
def failClStart (s : State) : State :=
  each (s.running.filter (fun r => r.op == 0x50)) (fun r s =>
    match r.cmd with
    | .clStart _ f p => failCmd (progClStart f p) r .badState [] (stopRunning r s)
    | _ => s) s

def progClStop : Prog :=
  { check := fun s => (if s.cl.phase = .stopped ∧ !clStarting s then .badState else .ok, s)
    apply := fun _ s => (.ok, [], stopCl 1 (failClStart s)) }

def execClStop (h : Hdr) (s : State) : Host.Outcome State Fault Refusal :=
  .next (submit progClStop (.clStop h) s)

end Sys2Proof.Machine
end

