-- ==== Sys2Proof/Machine/InstCommands.lean ====
section
/-! DEFINITION. The instrumentation commands: fine converters, streams, control DACs (13 R367 to R385). -/

namespace Sys2Proof.Machine

/-! ### Converters -/

/-- Whether a channel may be read by a converter (13 R367). -/
def channelOk (conv ch : Nat) : Bool :=
  decide (ch ≤ 7) || decide (0x10 ≤ ch ∧ ch ≤ 0x19) || ch == 0x20 || (conv == 1 && decide (0x30 ≤ ch ∧ ch ≤ 0x37))

/-- Full scale of a channel in nV (13 R367); 0 for the die temperature. -/
def fullScale (s : State) (ch : Nat) : Nat :=
  if ch ≤ 7 ∨ (0x10 ≤ ch ∧ ch ≤ 0x12) then 1250000000
  else if 0x13 ≤ ch ∧ ch ≤ 0x15 then 2500000000
  else if 0x16 ≤ ch ∧ ch ≤ 0x18 then 5000000000
  else if ch = 0x19 then 6250000000
  else if ch = 0x20 then 0
  else if (cdac s (ch - 0x30)).range = 0 then 1250000000 else 2500000000

/-- The code of a reading, and whether it is overrange (13 R367). -/
def resultOf (s : State) (ch : Nat) (value : Int) : Int × Bool :=
  let fs := fullScale s ch
  let c := if fs = 0 then value else nearest 0 (value * 8388608) fs
  let z := clampI (-8388608) 8388607 c
  (z, z != c)

/-- READY of the reference buffer (13 R368). -/
def refReady (s : State) : Bool := s.inst.refReady

/-- The length of a converter's sequence, and its entries (13 R374). -/
def seqLen (s : State) (n : Nat) : Nat := parGet s (if n = 0 then P.measSeqLen else P.measSeqLen8)
def seqEntry (s : State) (n i : Nat) : Nat :=
  let w := parGet s (if n = 0 then (if i < 4 then P.measFaSeqLo else P.measFaSeqHi)
    else (if i < 4 then P.measFbSeqLo else P.measFbSeqHi))
  bits w (8 * (i % 4) + 7) (8 * (i % 4))

/-- The first modulator cycle at or after an instant `us` from now, as a timebase (13 R372). -/
def convStart (s : State) (us : Nat) : Nat := ceilDiv (now s * 100 + us * 12288) 12000 * 120

/-- Modulator cycles of a notch setting, and of a converter's whole filter (13 R369). -/
def notchLen (notch : Nat) : Nat := match notch with | 0 => 0 | 1 => 20480 | 2 => 17067 | _ => 102400
def convCycles (f : Fine) : Nat := notchLen f.notch + f.order * f.d

/-- A conversion begins on a channel; its result follows the filter and the 10 µs of the pipeline (13 R369). -/
def startConv (n ch us : Nat) (urgent : Bool) (s : State) : State :=
  onFine n (fun f => { f with conv := some ⟨ch, convStart s us, urgent, convCycles f, f.d, convStart s us + 120 * convCycles f + 1229⟩ }) s

/-- The channel of the next conversion of a converter: its own, or the next of its sequence, which advances. -/
def nextChannel (n : Nat) (s : State) : Nat × State :=
  let f := fine s n
  if f.channel ≠ 0xFF then (f.channel, s)
  else
    let len := max (seqLen s n) 1
    (seqEntry s n (f.seqAt % len), onFine n (fun f => { f with seqAt := (f.seqAt + 1) % len }) s)

/-- A continuous converter that is free starts its next conversion, without the delay (13 R370). -/
def runContinuous (n : Nat) (s : State) : State :=
  let f := fine s n
  if f.trigger = 1 && f.conv.isNone && refReady s && domOn s Dom.ana then
    let (ch, s) := nextChannel n s
    startConv n ch 0 false s
  else s

/-- A converter after a conversion. A continuous one on a fixed channel whose settings stand produces its next result D modulator cycles
later; the interval of that result moves on as much: DEDUCED (13 R370). -/
def goOn (n : Nat) (c : Conv) (s : State) : State :=
  let f := fine s n
  if f.trigger = 1 && f.channel == c.channel && f.d == c.d && convCycles f == c.cycles && !c.urgent && refReady s && domOn s Dom.ana then
    onFine n (fun f => { f with conv := some { c with start := c.start + 120 * c.d, due := c.due + 120 * c.d } }) s
  else runContinuous n s

def measConfigCheck (n ch rate order notch trig : Nat) (s : State) : Status :=
  firstFail [
    (decide (n > 1) || !(channelOk n ch || ch == 0xFF) ||
      decide (¬(10 ≤ rate ∧ rate ≤ 4000) ∨ ¬(3 ≤ order ∧ order ≤ 5) ∨ notch > 3 ∨ trig > 9), .badParam),
    (ch == 0xFF && (seqLen s n == 0 || (List.range (seqLen s n)).any (fun i => !channelOk n (seqEntry s n i))), .badParam)]

/-- MEAS_CONFIG (13 R369, R377). -/
def progMeasConfig (n ch rate order notch trig delay : Nat) : Prog :=
  { check := fun s => (measConfigCheck n ch rate order notch trig s, s)
    needs := fun _ => [Dom.ana]
    apply := fun _ s =>
      let was := (fine s n).trigger
      let s := onFine n (fun f => { f with channel := ch, order := order, notch := notch, trigger := trig, delay := delay,
                                           d := (2048000 + rate) / (2 * rate), seqAt := 0
                                           conv := if was = 1 ∧ trig ≠ 1 then f.conv.filter (fun c => c.urgent) else f.conv }) s
      (.ok, [], if was ≠ 1 then runContinuous n s else s) }

def execMeasConfig (h : Hdr) (converter channel rate order notch trigger delay : Nat) (s : State) :
    Host.Outcome State Fault Refusal :=
  .next (submit (progMeasConfig converter channel rate order notch trigger delay)
    (.measConfig h converter channel rate order notch trigger delay) s)

/-- MEAS_NOW (13 R376): the value it keeps is its result and tag. -/
def progMeasNow (n ch : Nat) : Prog :=
  { check := fun s =>
      match firstFail [(decide (n > 1) || !channelOk n ch, .badParam),
        (!domAllowed s.power.state Dom.ana || !refReady s, .badState)] with
      | .ok => if (fine s n).conv.isSome || (fine s n).trigger == 1 then (.dropped, bump P.measUrgentDropped s) else (.ok, s)
      | st => (st, s)
    needs := fun _ => [Dom.ana]
    begin := fun s => (some (.conversion n), 0, startConv n ch 0 true s)
    apply := fun a s => (.ok, leBytes 4 (a / 256) ++ leBytes 1 (a % 256), s)
    undo := fun _ s => onFine n (fun f => { f with conv := f.conv.filter (fun c => !c.urgent) }) s }

def execMeasNow (h : Hdr) (converter channel : Nat) (s : State) : Host.Outcome State Fault Refusal :=
  .next (submit (progMeasNow converter channel) (.measNow h converter channel) s)

/-! ### Streams (13 R379, R380) -/

def streamAsk (mask : Nat) : Ask := 
  { work := ⟨wkStream, 0⟩, need := .nowhere, cycles := 0, uses := [⟨7, 0, 16 * (maskBits 2 mask).length⟩] }

/-- The key of its reservation: two may be in progress, for one converter each. -/
def streamKey (mask : Nat) : Nat := 1024 + mask

/-- MEAS_STREAM_START (13 R379). One that finds, when it completes, that another has started the stream ends with BAD_STATE: DESIGN
CHOICE. -/
def progMeasStreamStart (mask off len : Nat) : Prog :=
  { check := fun s =>
      match firstFail [
        (decide (mask = 0 ∨ mask > 3 ∨ off % 8 ≠ 0 ∨ len % 8 ≠ 0 ∨ len < 64 ∨ off + len > 0x40000) ||
          s.audio.taps.any (fun p => p.2.length != 0 && overlaps off len p.2.start p.2.length), .badParam),
        (s.inst.stream.isSome || !domAllowed s.power.state Dom.ana, .badState)] with
      | .ok => admitFor (streamKey mask) [streamAsk mask] s
      | st => (st, s)
    needs := fun _ => [Dom.ana, Dom.mem]
    apply := fun _ s =>
      if s.inst.stream.isSome then (.badState, [], s)
      else
      let s := commitFor (streamKey mask) (fun _ => true) { s with inst := { s.inst with stream := some ⟨off, len, off⟩ } }
      (.ok, [], parSet P.measStreamStart off (parSet P.measStreamLength len
        (each (maskBits 2 mask) (fun n => onFine n (fun f => { f with joining := true })) s)))
    drop := dropFor (streamKey mask) (fun _ => true) }

def execMeasStreamStart (h : Hdr) (mask offset length : Nat) (s : State) : Host.Outcome State Fault Refusal :=
  .next (submit (progMeasStreamStart mask offset length) (.measStreamStart h mask offset length) s)

/-- Converters leave the stream; it ends when none remains, and its buffer keeps its contents. -/
def leaveStream (mask : Nat) (s : State) : State :=
  let s := each (maskBits 2 mask) (fun n => onFine n (fun f => { f with streaming := false, joining := false })) s
  if s.inst.stream.isSome && !(s.inst.fa.streaming || s.inst.fa.joining || s.inst.fb.streaming || s.inst.fb.joining) then
    endWork ⟨wkStream, 0⟩ { s with inst := { s.inst with stream := none } }
  else s

def progMeasStreamStop (mask : Nat) : Prog :=
  .direct (fun _ => if 1 ≤ mask ∧ mask ≤ 3 then .ok else .badParam) (fun s => ([], leaveStream mask s))

def execMeasStreamStop (h : Hdr) (mask : Nat) (s : State) : Host.Outcome State Fault Refusal :=
  .next (submit (progMeasStreamStop mask) (.measStreamStop h mask) s)

/-! ### PWM outputs (13 R386) -/

/-- A PWM output at a later instant: a changed period or duty counts from the next PWM period; a duty above the period counts as the
period. -/
def Pwm.roll (t period duty : Nat) (q : Pwm) : Pwm :=
  let next := q.since + 10 * q.period
  if t < next then q else ⟨period, min duty period, next + (t - next) / (10 * period) * (10 * period)⟩

/-- A PWM output as it is now. -/
def pwmNow (s : State) (p : Nat) : Pwm :=
  (smGet Pwm.reset s.inst.pwm p).roll (now s) (parGet s (P.measPwmPeriod p)) (parGet s (P.measPwmDuty p))

def setPwm (p : Nat) (q : Pwm) (s : State) : State := { s with inst := { s.inst with pwm := smSet Pwm.reset s.inst.pwm p q } }

/-- An output begins PWM periods at the next cycle of the instrument clock, where it is enabled or ANA starts: DESIGN CHOICE. -/
def startPwm (p : Nat) (s : State) : State :=
  let per := parGet s (P.measPwmPeriod p)
  setPwm p ⟨per, min (parGet s (P.measPwmDuty p)) per, ceilDiv (now s) 10 * 10⟩ s

/-! ### Control DACs (13 R381 to R383) -/

/-- A movement begins. -/
def Cdac.move (t phase : Nat) (c : Cdac) : Cdac :=
  if c.phase = 0 then { c with phase := phase, movedAt := t, prevOut := c.out, prevIdle := c.idleSince } else { c with phase := phase }

/-- A channel takes a target. -/
def Cdac.aim (t code : Nat) (c : Cdac) : Cdac :=
  let c := { c with target := code, pending := none }
  if c.phase = 0 ∧ c.out ≠ code then c.move t 1 else c

/-- Whether timer `t` is enabled. -/
def timerOn (s : State) (t : Nat) : Bool := parGet s (P.measTmCfg t) == 1

def progCdacSet (ch code upd : Nat) : Prog :=
  .direct (fun s => firstFail [
      (decide (ch > 7 ∨ code > 16383 ∨ upd > 4), .badParam),
      (!domAllowed s.power.state Dom.ana || (upd != 0 && !timerOn s (upd - 1)), .badState)])
    (fun s => ([], onCdac ch (fun c => if upd = 0 then c.aim (now s) code else { c with pending := some (upd, code) }) s))
    [Dom.ana]

def execCdacSet (h : Hdr) (channel code update : Nat) (s : State) : Host.Outcome State Fault Refusal :=
  .next (submit (progCdacSet channel code update) (.cdacSet h channel code update) s)

def progCdacRange (ch range : Nat) : Prog :=
  { check := fun s => (firstFail [
      (decide (ch > 7 ∨ range > 1), .badParam),
      (!domAllowed s.power.state Dom.ana || decide ((cdac s ch).phase ≥ 2), .badState)], s)
    needs := fun _ => [Dom.ana]
    apply := fun _ s => (.ok, [], onCdac ch (fun c => if c.range = range then c else { c.move (now s) 2 with newRange := range }) s) }

def execCdacRange (h : Hdr) (channel range : Nat) (s : State) : Host.Outcome State Fault Refusal :=
  .next (submit (progCdacRange channel range) (.cdacRange h channel range) s)

end Sys2Proof.Machine
end

