-- ==== Sys2Proof/Machine/Ports.lean ====
section
/-! DEFINITION. The audio port commands: configuration, start, stop (11 R311 to R327). -/

namespace Sys2Proof.Machine

/-! ### PORT_CONFIG (11 R311, R312, R327) -/

/-- Set bits of a mask of 32. -/
def popcount (m : Nat) : Nat := (maskBits 32 m).length

/-- Channels a configuration carries: slot positions in either mask (11 R312). -/
def carried (c : PortCfg) : Nat := popcount (Nat.lor c.inMask c.outMask)

/-- A slip port carries more than 16 channels. -/
def isSlip (c : PortCfg) : Bool := decide (carried c > 16)

/-- The cost of a port: slots, moves per direction, ASRC channels (03 R72, 11 R312). -/
def portUses (p : Nat) (c : PortCfg) : List Use :=
  [⟨4, 0, (if c.rate = 1 then 48 else 24) * (popcount c.inMask + popcount c.outMask)⟩, ⟨5, p, carried c⟩,
    ⟨6, 0, if isSlip c then 0 else carried c⟩]

/-- Checks 1 to 3 of PORT_CONFIG. -/
def portFieldsOk (p : Nat) (c : PortCfg) : Bool :=
  decide (p ≤ 5 ∧ c.format ≤ 2 ∧ c.rate ≤ 1 ∧ c.role ≤ 1 ∧ c.drive ≤ 1) &&
    (c.slotBits == 16 || c.slotBits == 24 || c.slotBits == 32) &&
    (if c.format < 2 then c.slots == 2 else decide (2 ≤ c.slots ∧ c.slots ≤ (if c.rate = 1 then 16 else 32))) &&
    decide (c.inMask < 2 ^ c.slots ∧ c.outMask < 2 ^ c.slots)

/-- The configuration that a command is compared with: that in force, or the one that takes effect at the boundary. -/
def portCfgNow (q : Port) : PortCfg := q.next.getD q.cfg

/-- Whether any field may change (11 R311 row 5). -/
def portIdle (q : Port) : Bool := q.phase == .unconfigured || q.phase == .stopped || q.phase == .rateMuted

/-- Whether a change touches only masks and masked drive and keeps the port on its side of 16 channels (11 R327). -/
def masksOnly (old new : PortCfg) : Bool :=
  new == { old with inMask := new.inMask, outMask := new.outMask, drive := new.drive } && isSlip old == isSlip new

/-- The routes at the slots of a port whose cost its rate sets, as asks in a tentative state. -/
def portRouteAsks (p : Nat) (t : State) : List Ask :=
  ((liveRoutes t).filter (fun q => (match srcOf q.2.src with | some (.portIn r _) => r == p | _ => false) ||
      (match dstOf q.2.dst with | some (.portOut r _) => r == p | _ => false))).filterMap (fun q =>
    if (chargeOf t ⟨wkRoute, q.1⟩).isSome then some (routeAsk t q.1 q.2.src q.2.dst) else none)

/-- The state with a port configured, for its checks and costs. -/
def withPortCfg (p : Nat) (c : PortCfg) (s : State) : State :=
  onPort p (fun q => { q with cfg := c, phase := if q.phase = .unconfigured then .stopped else q.phase }) s

/-- What PORT_CONFIG asks of the ledger. -/
def portAsks (p : Nat) (c : PortCfg) (s : State) : List Ask :=
  { work := ⟨wkPort, p⟩, need := .nowhere, cycles := 0, uses := portUses p c } :: portRouteAsks p (withPortCfg p c s)

def portWork (p : Nat) (c : PortCfg) (s : State) : List WorkRef := (portAsks p c s).map Ask.work

/-- Every check of PORT_CONFIG, the reservation last (11 R311). -/
def portCheck (p : Nat) (c : PortCfg) (s : State) : Status × State :=
  let q := port s p
  match firstFail [
    (!portFieldsOk p c, .badParam),
    (!portIdle q && !masksOnly (portCfgNow q) c, .badState)] with
  | .ok => match admitWork (portAsks p c s) s with
    | (.ok, t) => if routesFit (withPortCfg p c s) then (.ok, t) else latencyRefusal s
    | r => r
  | st => (st, s)

/-- The rate class of a measured rate in mHz: 0 none, 1 48 kHz, 2 96 kHz (11 R323). -/
def rateClass (slip : Bool) (mhz : Nat) : Nat :=
  if slip then (if 47952000 ≤ mhz ∧ mhz ≤ 48048000 then 1 else 0)
  else if 44000000 ≤ mhz ∧ mhz ≤ 50000000 then 1
  else if 88000000 ≤ mhz ∧ mhz ≤ 100000000 then 2
  else 0

/-- The measured class of a port. -/
def portClass (q : Port) : Nat := rateClass (isSlip q.cfg) q.rate

/-- The class that a configuration names. -/
def cfgClass (c : PortCfg) : Nat := c.rate + 1

/-- The parameters that show a configuration in force (11 R339). -/
def showPort (p : Nat) (c : PortCfg) (s : State) : State :=
  each [(P.audPortFormat p, c.format), (P.audPortFormat2 p, c.rate), (P.audPortFormat3 p, c.role),
    (P.audPortFormat4 p, (c.slotBits - 16) / 8), (P.audPortFormat8 p, c.slots), (P.audPortFormat16 p, c.drive),
    (P.audPortFormat17 p, b2n (isSlip c)), (P.audPortInMask p, c.inMask), (P.audPortOutMask p, c.outMask)]
    (fun x => parSet x.1 x.2) s

/-- A configuration takes effect on a port that does not run; out of RATE_MUTED the port acquires when the rate matches
(11 R326). -/
def applyPortCfg (p : Nat) (c : PortCfg) (s : State) : State :=
  let q := port s p
  if q.phase = .rateMuted then
    let matched := rateClass (isSlip c) q.rate == cfgClass c || c.role == 0
    showPort p c (onPort p (fun q => { q with cfg := c, next := none, differs := 0, acquired := false
                                              phase := if matched then .reacquiring else .rateMuted }) s)
  else if portIdle q then
    showPort p c (onPort p (fun _ => { Port.reset with cfg := c, phase := .stopped, loopback := q.loopback }) s)
  else onPort p (fun q => { q with next := some c }) s

def progPortConfig (p : Nat) (c : PortCfg) : Prog :=
  { check := portCheck p c
    needs := fun _ => [Dom.aud]
    apply := fun _ s => (.ok, [], applyPortCfg p c (commitWork (portWork p c s) s))
    drop := fun s => dropWork (portWork p c s) s }

def execPortConfig (h : Hdr) (port format rate slots role slotBits inMask outMask drive : Nat) (s : State) :
    Host.Outcome State Fault Refusal :=
  .next (submit (progPortConfig port ⟨format, rate, slots, role, slotBits, inMask, outMask, drive⟩)
    (.portConfig h port format rate slots role slotBits inMask outMask drive) s)

/-! ### PORT_START (11 R320) -/

/-- A named period that is neither past nor present nor more than 65 535 ahead. -/
def periodAhead (s : State) (p : Nat) : Bool := decide (period s < p ∧ p ≤ period s + 65535)

def progPortStart (mask start p : Nat) : Prog :=
  { check := fun s => (firstFail [
      (decide (mask = 0 ∨ mask > 63 ∨ start > 2), .badParam),
      (start == 2 && !periodAhead s p, .badParam),
      ((maskBits 8 mask).any (fun i => (port s i).phase != .stopped), .badState)], s)
    needs := fun _ => [Dom.aud]
    apply := fun _ s =>
      let t := if start = 0 then some ((period s + 1) * periodLen) else if start = 2 then some (p * periodLen) else none
      (.ok, [], each (maskBits 8 mask) (fun i => onPort i (fun q => { q with phase := .armed, start := start, startAt := t })) s) }

def execPortStart (h : Hdr) (mask start period : Nat) (s : State) : Host.Outcome State Fault Refusal :=
  .next (submit (progPortStart mask start period) (.portStart h mask start period) s)

/-! ### PORT_STOP (11 R322) -/

/-- Ports of a mask still stopping. -/
def portsStopping (mask : Nat) (s : State) : Nat :=
  ((maskBits 6 mask).filter (fun i => (port s i).stopping)).foldl (fun m i => m + 2 ^ i) 0

/-- Stop ports: an ARMED port at once, a RUNNING port after its fade. -/
def stopPorts (cause mask : Nat) (s : State) : State :=
  each (maskBits 6 mask) (fun i s =>
    match (port s i).phase with
    | .armed => queueEvent 0x6006 i cause (onPort i (fun q => { q with phase := .stopped }) s)
    | .running => onPort i (fun q => { q with
        stopping := true, stopCause := if q.stopping then q.stopCause else cause, stopAt := if q.stopping then q.stopAt else now s }) s
    | _ => s) s

/-- A port that was stopped restarts at the next period boundary (15 R414): a master begins frames there, a slave reacquires. -/
def resumePort (p : Nat) (s : State) : State :=
  let q := port s p
  if q.phase = .running then onPort p (fun q => { q with stopping := false }) s
  else if q.phase = .stopped then
    onPort p (fun q => if q.cfg.role = 0
      then { q with phase := .armed, start := 0, startAt := some ((period s + 1) * periodLen) }
      else { q with phase := .reacquiring, fade := 0, acquired := false }) s
  else s

/-- The ports that a PORT_STOP of a mask stops: those that run, and 64 times those that are ARMED. -/
def toStop (mask : Nat) (s : State) : Nat :=
  let of (p : Port → Bool) : Nat := ((maskBits 6 mask).map (fun i => b2n (p (port s i)) * 2 ^ i)).sum
  of (fun q => q.phase == .running && !q.stopping) + 64 * of (fun q => q.phase == .armed)

/-- A PORT_STOP that is undone: the ports that ran run on, the ports that were ARMED are ARMED again (02 R53). -/
def unstopPorts (kept : Nat) (s : State) : State :=
  each (maskBits 6 (kept / 64)) (fun i s => if (port s i).phase = .stopped then onPort i (fun q => { q with phase := .armed }) s else s)
    (each (maskBits 6 kept) resumePort s)

def progPortStop (mask : Nat) : Prog :=
  { check := fun s => (if mask = 0 then .badParam else .ok, s)
    begin := fun s =>
      let t := stopPorts 1 mask s
      let m := portsStopping mask t
      (if m = 0 then none else some (.portStop m), toStop mask s, t)
    undo := unstopPorts }

def execPortStop (h : Hdr) (mask : Nat) (s : State) : Host.Outcome State Fault Refusal :=
  .next (submit (progPortStop mask) (.portStop h mask) s)

end Sys2Proof.Machine
end

