-- ==== Sys2Proof/Machine/ProtCommands.lean ====
section
/-! DEFINITION. The cosign and firmware-patch commands (16 R431 to R438). -/

namespace Sys2Proof.Machine

/-! ### Proposals -/

/-- A check that follows the judgement of expiry at the command's start (16 R436). -/
def judged (f : State → Status) (s : State) : Status × State := (f (judgeExpiry s), judgeExpiry s)

/-- Whether the policy lets a role propose (16 R429). -/
def mayPropose (s : State) (c : Chan) : Bool := (policy s).testBit (16 + chanNo c)

/-- The 16 bytes of a nonce. -/
def nonceBytes (d : Nat) : List Byte := (List.range 16).map (Config.randomByte d)

/-- COSIGN_PROPOSE (16 R431). -/
def progCosignPropose (h : Hdr) (digest : List Byte) : Prog :=
  { check := judged (fun s => firstFail [
      (!s.front.otpValid, .hwFault),
      (s.prot.proposal.isSome || !mayPropose s h.ch || (keyOf s .operator).isNone || (keyOf s .custodian).isNone, .badState)])
    apply := fun _ s =>
      let (d, s) := draw s
      let p : Proposal := { role := h.ch, digest := digest, nonce := nonceBytes d, approved := false, made := now s,
                            patch := none, patchAt := 0 }
      (.ok, [], alertCosign (queueEvent 0xB001 (roleNo h.ch) (digestWord digest) (bump P.protProposals
        (setProposal (some p) s)))) }

def execCosignPropose (h : Hdr) (digest : List Byte) (s : State) : Host.Outcome State Fault Refusal :=
  .next (submit (progCosignPropose h digest) (.cosignPropose h digest) s)

/-- The tag of an approval (16 R433). -/
def approvalTag (key : List Byte) (p : Proposal) : List Byte := (hmac256 key (p.nonce ++ p.digest)).take 16

/-- The checks of COSIGN_APPROVE (16 R433). -/
def approveCheck (h : Hdr) (tag : List Byte) (s : State) : Status × State :=
  let s := judgeExpiry s
  match s.prot.proposal with
  | none => (.badState, s)
  | some p =>
    if p.approved || p.patch.isSome then (.badState, s)
    else if p.role = h.ch then (.cosignRejected, alertCosign (cosignReject h.ch 2 s))
    else if keyOf s h.ch ≠ none ∧ (keyOf s h.ch).elim [] (fun k => approvalTag k p) = tag then (.ok, s)
    else (.cosignRejected, alertCosign (cosignReject h.ch 1 (setProposal none s)))

def progCosignApprove (h : Hdr) (tag : List Byte) : Prog :=
  { check := approveCheck h tag
    apply := fun _ s =>
      match s.prot.proposal with
      | none => (.badState, [], s)
      | some p => (.ok, [], alertCosign (queueEvent 0xB002 (roleNo h.ch) (digestWord p.digest) (bump P.protApprovals
          (setProposal (some { p with approved := true }) s)))) }

def execCosignApprove (h : Hdr) (tag : List Byte) (s : State) : Host.Outcome State Fault Refusal :=
  .next (submit (progCosignApprove h tag) (.cosignApprove h tag) s)

/-- Milliseconds left of a proposal or of the patch-packet limit (16 R437). -/
def cosignLeft (s : State) : Nat :=
  match s.prot.proposal with
  | none => 0
  | some p => min 65535 (nearest 9 (((if p.patch.isSome then p.patchAt else p.made) + sec30 - now s : Nat) : Int) 122880).toNat

def progCosignStatus : Prog :=
  { check := judged (fun _ => .ok)
    apply := fun _ s =>
      (.ok, leBytes 1 (protState s) ++ leBytes 1 (s.prot.proposal.elim 0 (fun p => roleNo p.role)) ++ leBytes 2 (cosignLeft s), s) }

def execCosignStatus (h : Hdr) (s : State) : Host.Outcome State Fault Refusal :=
  .next (submit progCosignStatus (.cosignStatus h) s)

/-- NONCE_GET (16 R432). -/
def progNonceGet : Prog :=
  { check := judged (fun s => if s.prot.proposal.isSome then .ok else .badState)
    apply := fun _ s => (.ok, s.prot.proposal.elim [] Proposal.nonce, s) }

def execNonceGet (h : Hdr) (s : State) : Host.Outcome State Fault Refusal :=
  .next (submit progNonceGet (.nonceGet h) s)

/-! ### Patches (16 R438) -/

/-- Patch memory in bytes. -/
def patchMemory : Nat := 65536

/-- A patch sequence ends and consumes the proposal. -/
def endPatch (s : State) : State := if protState s = 3 then setProposal none s else s

/-- The patch sequence in progress. -/
def patchSeq (s : State) : Option PatchSeq := s.prot.proposal.bind Proposal.patch

/-- FW_PATCH_BEGIN passes its cosign check without consuming the approval: the state becomes PATCHING. -/
def patchBeginCheck (h : Hdr) (n : Nat) (digest : List Byte) (s : State) : Status × State :=
  if n = 0 ∨ n > patchMemory - s.prot.patchBytes then (.badParam, s)
  else
    match cosignCheck h (canonicalImage 0x08 (leBytes 4 n ++ digest)) s with
    | (.ok, _, t) =>
      let p := (judgeExpiry s).prot.proposal
      (.ok, setProposal (p.map (fun p => { p with patch := some ⟨n, digest, []⟩, patchAt := now s })) t)
    | (st, _, t) => (st, t)

def progFwPatchBegin (h : Hdr) (n : Nat) (digest : List Byte) : Prog :=
  { check := patchBeginCheck h n digest
    drop := fun s => setProposal (s.prot.proposal.map (fun p => { p with patch := none })) s }

def execFwPatchBegin (h : Hdr) (length : Nat) (digest : List Byte) (s : State) : Host.Outcome State Fault Refusal :=
  .next (submit (progFwPatchBegin h length digest) (.fwPatchBegin h length digest) s)

/-- The check of a packet of a patch sequence after its own checks; `image` is its own canonical image, which matters
only outside a sequence. -/
def patchPacket (h : Hdr) (image : List Byte) (own : Status) (s : State) : Status × State :=
  let s := judgeExpiry s
  if protState s = 3 then
    if !h.cosign then (if own = .ok then (.needsCosign, s) else (own, s))
    else if own ≠ .ok then (own, endPatch s)
    else (.ok, setProposal (s.prot.proposal.map (fun p => { p with patchAt := now s })) s)
  else if own ≠ .ok then (own, s)
  else
    match cosignCheck h image s with
    | (.ok, _, _) => (.cosignRejected, cosignReject h.ch 5 s)
    | (st, _, t) => (st, t)

/-- The bounds of an FW_PATCH_DATA. -/
def patchDataOwn (off n : Nat) (s : State) : Status :=
  if (patchSeq s).any (fun q => off + n > q.length) then .badParam else .ok

def progFwPatchData (h : Hdr) (off : Nat) (data : List Byte) : Prog :=
  { check := fun s => patchPacket h (canonicalImage 0x09 (leBytes 4 off ++ data)) (patchDataOwn off data.length (judgeExpiry s)) s
    apply := fun _ s =>
      (.ok, [], setProposal (s.prot.proposal.map (fun p => { p with patch := p.patch.map (fun q =>
        { q with data := smSetList 0 q.data off (data.map BitVec.toNat) }) })) s)
    drop := endPatch }

def execFwPatchData (h : Hdr) (offset : Nat) (data : List Byte) (s : State) : Host.Outcome State Fault Refusal :=
  .next (submit (progFwPatchData h offset data) (.fwPatchData h offset data) s)

/-- The assembled patch. -/
def patchBytesOf (q : PatchSeq) : List Byte := (smGetList 0 q.data 0 q.length).map (BitVec.ofNat 8)

/-- FW_PATCH_COMMIT: its hash, then the patch joins those committed before it. -/
def progFwPatchCommit (h : Hdr) : Prog :=
  { check := fun s =>
      match patchPacket h (canonicalImage 0x0A []) .ok s with
      | (.ok, t) =>
        if (patchSeq t).any (fun q => sha256 (patchBytesOf q) == q.digest) then (.ok, t)
        else (.cosignRejected, cosignReject h.ch 4 (alertCosign (endPatch t)))
      | r => r
    apply := fun _ s =>
      match s.prot.proposal, patchSeq s with
      | some p, some q =>
        let s := endPatch s
        let s := { s with prot := { s.prot with patchCount := min 255 (s.prot.patchCount + 1)
                                                patchBytes := s.prot.patchBytes + q.length
                                                patches := s.prot.patches ++ [q.digest] } }
        (.ok, [], queueEvent 0xB006 (256 * 0x0A + h.tag) (digestWord p.digest) (bump P.protApplied s))
      | _, _ => (.aborted, [], s)
    drop := endPatch }

def execFwPatchCommit (h : Hdr) (s : State) : Host.Outcome State Fault Refusal :=
  .next (submit (progFwPatchCommit h) (.fwPatchCommit h) s)

/-- Running packets of a patch sequence end with ABORTED when it is cancelled (16 R435). -/
def abortPatch (s : State) : State :=
  each (s.running.filter (fun r => r.op == 0x08 || r.op == 0x09 || r.op == 0x0A)) (fun r s =>
    match r.cmd with
    | .fwPatchBegin h n d => failCmd (progFwPatchBegin h n d) r .aborted [] (stopRunning r s)
    | .fwPatchData h o d => failCmd (progFwPatchData h o d) r .aborted [] (stopRunning r s)
    | .fwPatchCommit h => failCmd (progFwPatchCommit h) r .aborted [] (stopRunning r s)
    | _ => s) s

/-- COSIGN_CANCEL (16 R435). -/
def progCosignCancel (h : Hdr) : Prog :=
  { check := judged (fun s => if s.prot.proposal.isSome then .ok else .badState)
    apply := fun _ s =>
      let st := protState s
      let s := alertCosign (queueEvent 0xB005 (roleNo h.ch) st (bump P.protCancels (setProposal none s)))
      (.ok, [], if st = 3 then abortPatch s else s) }

def execCosignCancel (h : Hdr) (s : State) : Host.Outcome State Fault Refusal :=
  .next (submit (progCosignCancel h) (.cosignCancel h) s)

end Sys2Proof.Machine
end

