-- ==== Sys2Proof/Machine/RattleCommands.lean ====
section
/-! DEFINITION. Rattle: arming, disarming and the loopbacks (18 R465 to R471). -/

namespace Sys2Proof.Machine

/-! ### Perturbations (18 R465, R469) -/

/-- The interval N of a setting; a perturbation without one acts in every period. -/
def pertInterval (n setting : Nat) : Nat :=
  match n with
  | 1 => bits setting 31 16
  | 2 => bits setting 31 16
  | 4 => bits setting 15 0
  | 7 => bits setting 15 0
  | 8 => bits setting 31 16
  | 9 => 2000
  | _ => 1

/-- The ranges of the perturbations table. -/
def pertOk (n target v : Nat) : Bool :=
  let within (lo x hi : Nat) : Bool := decide (lo ≤ x ∧ x ≤ hi)
  pertInterval n v != 0 &&
  match n with
  | 1 => within 3 target 11 && within 100 (bits v 15 0) 10000
  | 2 => (within 0 target 3 || within 8 target 13) && within 1 (bits v 15 0) 500
  | 3 => within 0 target 2 && within 1 (bits v 23 0) 2000000
  | 4 => within 0 target 5 && within 0 (bits v 17 16) 2
  | 5 => target == 0 && within 1 v 100000
  | 6 => within 0 target 3 && within 0 (bits v 1 0) 2 && within 1 (bits v 15 8) 255
  | 7 => (within 0 target 0x4F || target == 0x80) && within 1 (bits v 23 16) 64
  | 8 => (within 0 target 63 || target == 0x80) && within 0 (bits v 7 0) 119
  | 9 => within 0 target 2 && within 1 v 100000
  | _ => false

/-- A perturbation is armed: one that was disarmed, and acts until the next boundary, is not unless it was armed again (18 R466). -/
def Pert.isArmed (p : Pert) : Bool := !p.stopping || p.again.isSome

def pertArmed (s : State) (n : Nat) : Bool := (smFind s.rattle.armed n).any Pert.isArmed

def setArmed (m : SMap Pert) (s : State) : State := { s with rattle := { s.rattle with armed := m } }

/-- A perturbation as it is armed, to act from the next boundary. -/
def freshPert (n target v t : Nat) : Pert :=
  { target := target, setting := v, armedAt := t, starting := true, stopping := false, again := none, age := 0
    left := if n = 6 then bits v 15 8 else 0 }

/-- RATTLE_ARM (18 R465): protected unless the lab-part fuse is blown. One that was disarmed in the present period acts until its end
as it was set before. -/
def progRattleArm (n target v : Nat) : Prog :=
  { check := fun s => (firstFail [(!pertOk n target v, .badParam),
      (pertArmed s n || decide (4 ≤ (s.rattle.armed.filter (fun x => x.2.isArmed)).length), .badState)], s)
    guard := fun s => if labPart s then none else some []
    apply := fun _ s =>
      let p := (smFind s.rattle.armed n).elim (freshPert n target v (now s)) (fun q => { q with again := some (target, v, now s) })
      let s := each [(key (0xF020 + n) 0, target), (key (0xF030 + n) 0, v)] (fun x => parSet x.1 x.2) s
      (.ok, [], queueEvent 0xF001 (n + 256 * target) v (setArmed (smPut s.rattle.armed n p) s)) }

def execRattleArm (h : Hdr) (pert target setting : Nat) (s : State) : Host.Outcome State Fault Refusal :=
  .next (submit (progRattleArm pert target setting) (.rattleArm h pert target setting) s)

/-- A perturbation is disarmed: it stops acting at the next boundary (18 R466, R467). -/
def disarm (cause n : Nat) (s : State) : State :=
  match smFind s.rattle.armed n with
  | some p => if !p.isArmed then s
    else queueEvent 0xF002 n cause (setArmed (smPut s.rattle.armed n { p with stopping := true, again := none }) s)
  | none => s

/-- RATTLE_DISARM (18 R466). -/
def progRattleDisarm (n : Nat) : Prog :=
  .direct (fun _ => if n = 0xFF ∨ (1 ≤ n ∧ n ≤ 9) then .ok else .badParam) (fun s =>
    ([], each (if n = 0xFF then (List.range 9).map (· + 1) else [n]) (disarm 1) s))

def execRattleDisarm (h : Hdr) (pert : Nat) (s : State) : Host.Outcome State Fault Refusal :=
  .next (submit (progRattleDisarm pert) (.rattleDisarm h pert) s)

/-- TST.ARM_LIMIT has passed since a perturbation was armed (18 R467). -/
def execRattleArmLimit (n : Nat) (s : State) : Host.Outcome State Fault Refusal :=
  .next (match smFind s.rattle.armed n with
    | some p => if p.again.elim p.armedAt (fun x => x.2.2) + sec1 * parGet s P.tstArmLimit ≤ now s then disarm 2 n s else s
    | none => s)

/-! ### Loopbacks (18 R471) -/

/-- Whether the TX window overlaps the RX window. -/
def windowsOverlap (s : State) : Bool :=
  txEdge s != 0 && rxEdge s != 0 && decide (dist (txEdge s) (rxEdge s) ≤ 96000000)

/-- TEST_LOOPBACK. -/
def progTestLoopback (kind index : Nat) : Prog :=
  .direct (fun s => firstFail [
      (decide (2 < kind) || kind == 1 && decide (5 < index), .badParam),
      (kind == 1 && !((port s index).phase == .running && (port s index).cfg.role == 0), .badState),
      (kind == 2 && ((openCarriers s).any (fun p => carrierEnabled p.2) || !windowsOverlap s), .badState)])
    (fun s => ([],
      if kind = 1 then onPort index (fun q => { q with loopback := true }) s
      else if kind = 2 then { s with rattle := { s.rattle with txLoop := true } }
      else
        onAudio (fun a => { a with ports := smMap Port.reset (fun _ q => { q with loopback := false }) a.ports })
          { s with rattle := { s.rattle with txLoop := false } }))

def execTestLoopback (h : Hdr) (kind index : Nat) (s : State) : Host.Outcome State Fault Refusal :=
  .next (submit (progTestLoopback kind index) (.testLoopback h kind index) s)

end Sys2Proof.Machine
end

