-- ==== Sys2Proof/Machine/Ageing.lean ====
section
/-! DEFINITION. Ageing measurement and margin plans (17 R450 to R461), and the re-costing that a plan brings
(03 R79 to R81). Speeds and times are exact rationals in ps; the fifth power of the ageing factor A is kept, since
every comparison of the law s(h) = A h^0.2 is one of fifth powers. -/

namespace Sys2Proof.Machine

/-! ### Tops (17 R450 to R452) -/

/-- The domain of a Top. -/
def topDomain (n : Nat) : Nat :=
  if n < 8 then Dom.abc else if n < 12 then Dom.dmd else if n < 16 then Dom.chz else if n < 20 then Dom.txd
  else if n < 24 then Dom.aud else if n < 28 then Dom.mem else if n < 30 then Dom.seq else Dom.ckg

def topExcluded (s : State) (n : Nat) : Bool := (parGet s P.rckTopsExcluded).testBit n

/-- The number of excluded Tops. -/
def topsOut (s : State) : Nat := (maskBits 32 (parGet s P.rckTopsExcluded)).length

/-- A production baseline in ps. -/
def baseline (n : Nat) : Rat := mkRat (Config.topBaseline n) 100

/-- A knob's part of the speed gain, parts per million: its nominal share and the production refinement, within 0.1 %
per step (17 R453). -/
def knobShare (knob : Nat) (nominal steps : Int) : Int :=
  nominal * steps + clampI (-1000 * |steps|) (1000 * |steps|) (Config.gainTrim knob steps)

/-- The speed gain g of a VSEL code and a bias step (17 R453). -/
def gainOf (code bias : Nat) : Rat :=
  1 - mkRat (knobShare 0 10000 ((code : Int) - 8) + knobShare 1 8000 bias) 1000000

def vselNow (s : State) : Nat := parGet s P.rckVselCode
def biasNow (s : State) : Nat := parGet s P.rckBiasStep

/-- Whether the margin plan's bias and assists are applied: AON alone runs in sleep, at zero bias (15 R420). -/
def plannedBias (s : State) : Bool := decide (s.power.state ≤ 2)

/-- The back-gate bias step of a domain that is on; none: it is off, isolated and without bias (15 R420). -/
def backBias (s : State) (d : Nat) : Option Nat :=
  if domOn s d then some (if plannedBias s then biasNow s else 0) else none

/-- The MEM array: active at `VDD_MEM`, with the assists of the plan, in retention under a reverse bias of 0.9 V, or off; without
assists in both (15 R420). -/
inductive MemArray where
  | active
  | retention
  | off
  deriving DecidableEq, Repr

def memArray (s : State) : MemArray := if s.power.state ≤ 2 then .active else if s.power.state = 3 then .retention else .off

/-- The gain at the knobs in force. -/
def gainNow (s : State) : Rat := gainOf (vselNow s) (biasNow s)

/-- The highest VSEL code that a plan may set: a step without response ends the rise (17 R457). -/
def vselTop (s : State) : Nat := if parGet s P.rckPlanLimits = 1 then vselNow s else 15

/-- The mean of the last readings of a Top, ps. -/
def topMean (l : List Nat) : Rat := mkRat l.sum (100 * l.length)

/-- The typical cycle t and the Top that shows it (17 R453); of equal ones the lowest index. -/
def typical (s : State) : Nat × Rat :=
  s.age.readings.foldl (fun w p => if !topExcluded s p.1 && decide (w.2 < topMean p.2) then (p.1, topMean p.2) else w) (0, 0)

/-- A reading that differs by more than 30 % from its baseline, adjusted for the shift (17 R452). -/
def topFaulty (s : State) (n reading : Nat) : Bool :=
  let e := baseline n + s.age.shift
  decide (3 * e < 10 * |mkRat reading 100 / gainNow s - e|)

/-- One normalised reading (17 R451, R452). -/
def takeReading (x : TopRead) (s : State) : State :=
  if 32 ≤ x.top || topExcluded s x.top then s
  else if topFaulty s x.top x.reading then
    queueWhenRunning 0xA022 x.top x.reading
      (bump P.rckTopsFaults (parSet P.rckTopsExcluded (Nat.lor (parGet s P.rckTopsExcluded) (2 ^ x.top)) s))
  else
    let l := (x.reading :: (smFind s.age.readings x.top).getD []).take 100
    { s with age := { s.age with readings := smPut s.age.readings x.top l } }

/-- A count of every Top whose domain is on. -/
def takeReadings (l : List TopRead) (s : State) : State :=
  each (l.filter (fun x => domOn s (topDomain x.top))) takeReading s

/-- What the rings of the Tops whose domain is off would show: a plan that begins powers each for one count (17 R451). -/
def keepOffCounts (l : List TopRead) (s : State) : State :=
  let l := l.filter (fun x => decide (x.top < 32) && !domOn s (topDomain x.top))
  { s with age := { s.age with offCounts := l.foldl (fun m x => smPut m x.top x.reading) s.age.offCounts } }

/-- A plan takes the one count of each Top whose domain is off. -/
def takeOffCounts (s : State) : State :=
  let l := s.age.offCounts.filter (fun p => !domOn s (topDomain p.1))
  each l (fun p => takeReading ⟨p.1, p.2⟩) { s with age := { s.age with offCounts := [] } }

/-! ### The ageing law (17 R453, R454) -/

/-- The fifth power of A from a shift and powered hours. With no whole hour counted the fit has no value, and A is
12.00 ps: DEDUCED. -/
def fitA (shift : Rat) (h : Nat) : Rat :=
  if h = 0 then 12 ^ 5 else if h < 1000 then max (shift ^ 5 / h) (12 ^ 5) else shift ^ 5 / h

/-- Whether 1.25 (t0 + s(h)) g is at most `tc` (17 R456 step 2). -/
def meets (base a5 : Rat) (h : Nat) (g : Rat) (tc : Nat) : Bool := decide (a5 * h ≤ ((tc : Rat) / (5 / 4 * g) - base) ^ 5)

def bits16 : List Nat := [32768, 16384, 8192, 4096, 2048, 1024, 512, 256, 128, 64, 32, 16, 8, 4, 2, 1]

/-- The least T_c of 16 bits at which `meets` holds: 1.25 (t0 + s(h)) g rounded up. -/
def leastTc (base a5 : Rat) (h : Nat) (g : Rat) : Nat := min 65535 (searchUp (fun n => !meets base a5 h g n) bits16 0 + 1)

/-- The estimate (s / 12.00)^5 of the powered hours, nearest (17 R454). -/
def estimateHours (shift : Rat) : Nat := min (nearestRat 13 (((max shift 0) / 12) ^ 5)).toNat 4294967295

/-- A in units of 0.01 ps, nearest (17 R462). -/
def reportA (a5 : Rat) : Nat := 
  searchUp (fun n => decide ((2 * (n : Rat) - 1) ^ 5 < 32 * 10 ^ 10 * a5) ||
    (decide ((2 * (n : Rat) - 1) ^ 5 = 32 * 10 ^ 10 * a5) && Config.halfUp 11 a5.num a5.den)) bits16 0

/-- A time in ps in units of 0.01 ps, nearest. -/
def centi (x : Rat) : Nat := (nearestRat 10 (100 * x)).toNat

/-- The time until T_c at maximum knobs must pass `tc`, in tenths of a year at the service-life profile (17 R461); none:
never. -/
def tenthsTo (base a5 : Rat) (h : Nat) (g : Rat) (tc : Nat) : Option Rat :=
  if a5 ≤ 0 then none else some (10 * (((tc : Rat) / (5 / 4 * g) - base) ^ 5 / a5 - h) / 4383)

/-- That time in units of 0.1 year, as reported (17 R461). -/
def yearsTo (base a5 : Rat) (h : Nat) (g : Rat) (tc : Nat) : Nat :=
  match tenthsTo base a5 h g tc with
  | none => 65535
  | some x =>
    let n := (nearestRat 12 x).toNat
    if 65534 < n then 65535 else n

/-! ### Re-costing (03 R79 to R81) -/

/-- The state as the ledger would be at a T_c. -/
def atTc (tc : Nat) (s : State) : State := { parSet P.rckCycleCert tc s with age := { s.age with plan := none } }

/-- The time until a resource first stands in a list of exceeded ones (17 R461). -/
def yearsUntil (exceeded : State → List (Nat × Nat)) (base a5 : Rat) (h : Nat) (g : Rat) (tc : Nat) (s : State) : Nat :=
  let passed (n : Nat) : Bool := !(exceeded (atTc n s)).isEmpty
  if passed tc then 0
  else if !passed 65535 then 65535
  else yearsTo base a5 h g (searchUp (fun n => !passed n) bits16 0)

/-- Resources that newly stand above their limit or budget after a re-costing are reported once each (03 R80, R81). One that
stood above its limit already has crossed nothing. -/
def reportRecost (s : State) : State :=
  let ob := overcommitted s
  let ol := aboveLimit s
  let tell (code : Nat) (l : List (Nat × Nat)) (s : State) : State :=
    each l (fun r s => queueEvent code (256 * r.1 + r.2) (committed s r.1 r.2) s) s
  let s := tell 0xA003 (ol.filter (fun r => !s.rck.overLimit.contains r && !ob.contains r)) s
  let s := tell 0xA004 (ob.filter (fun r => !s.rck.overBudget.contains r)) s
  { s with rck := { s.rck with overLimit := ol, overBudget := ob } }

/-! ### Plans (17 R455 to R458) -/

/-- The smallest knob setting that passes a test, bias first, then VSEL (17 R456 step 2). -/
def pickKnobs (ok : Nat → Nat → Bool) (code bias top : Nat) : Option (Nat × Nat) :=
  ((List.range (9 - bias)).map (fun i => (code, bias + i)) ++ (List.range (top - code)).map (fun i => (code + 1 + i, 8))).find?
    (fun k => ok k.1 k.2)

/-- The lowest VSEL code that a settling plan reaches, going down one code at a time (17 R456). -/
def settleTo (ok : Nat → Bool) : Nat → Nat
  | 0 => 0
  | n + 1 => if ok n then settleTo ok n else n + 1

/-- The H that a plan sets for a T_c, in 0.1 % (17 R456 step 4). -/
def planHeadroom (base a5 : Rat) (h : Nat) (g : Rat) (tc : Nat) : Nat :=
  let y := if meets base a5 (h + 4431) g tc then tc else leastTc base a5 (h + 4431) g
  120 + ceilDiv (1000 * (y - tc)) tc

/-- Knobs, T_c and H of a plan that is not degraded, and the events of its steps 3 and 4. -/
def choosePlan (p : Plan) (s : State) : Plan × State :=
  let gMax := gainOf (vselTop s) 8
  let h := p.hours
  let ok (v b : Nat) : Bool := meets p.base p.a5 (h + 48) (gainOf v b) p.newTc
  if p.kind = 5 then ({ p with vselTo := settleTo (fun v => ok v (biasNow s)) (vselNow s), biasTo := biasNow s }, s)
  else
    match pickKnobs ok (vselNow s) (biasNow s) (vselTop s) with
    | some k => ({ p with vselTo := k.1, biasTo := k.2, newH := max p.newH (planHeadroom p.base p.a5 h gMax p.newTc) }, s)
    | none =>
      let tc := max p.newTc (leastTc p.base p.a5 (h + 48) gMax)
      let s := if s.age.exhaustedSent then s else queueWhenRunning 0xA023 0 tc s
      let s := { s with age := { s.age with exhaustedSent := true } }
      let s := if tc ≤ 1600 then s
        else parSet P.rckPlanLimits4 1 (if s.age.beyondSent then s
          else queueWhenRunning 0xA026 0 tc { s with age := { s.age with beyondSent := true } })
      ({ p with vselTo := vselTop s, biasTo := 8, newTc := tc, newH := max p.newH (planHeadroom p.base p.a5 h gMax tc) }, s)

/-- The prognosis of a plan (17 R461), and AGEING_WARNING once. -/
def prognose (p : Plan) (s : State) : State :=
  let gMax := gainOf (vselTop s) 8
  let priced := parSet P.rckHeadroom p.newH s
  let y := yearsTo p.base p.a5 p.hours gMax p.newTc
  let s := { s with age := { s.age with
    yHold := y
    yLimit := yearsUntil aboveLimit p.base p.a5 p.hours gMax p.newTc priced
    yBudget := yearsUntil overcommitted p.base p.a5 p.hours gMax p.newTc priced } }
  if (tenthsTo p.base p.a5 p.hours gMax p.newTc).any (fun x => decide (x < 50)) && !s.age.warned then queueWhenRunning 0xA025 0 y { s with age := { s.age with warned := true } } else s

/-- A plan begins: its measurements, its knobs, its prognosis (17 R453, R456, R458). -/
def startPlan (kind : Nat) (s : State) : State :=
  let s := takeOffCounts s
  let (w, t) := typical s
  let u := t / gainNow s
  let shift := u - baseline w
  let h := parGet s P.rckPoweredHours
  let a5 := fitA shift h
  let s := { s with age := { s.age with t := centi t, t0 := Config.topBaseline w, a := reportA a5, shift := shift,
                                        worst := w, due := s.age.due.filter (fun k => k != kind) } }
  let p : Plan := { kind := kind, verifying := none, stepAt := 0, biasTo := 8, vselTo := vselTop s,
                    newTc := parGet s P.rckCycleCert, newH := parGet s P.rckHeadroom, u := u, base := baseline w, a5 := a5,
                    hours := h }
  let (p, s) := if 5 ≤ topsOut s then
      (p, queueWhenRunning 0xA024 (topsOut s) (parGet s P.rckTopsExcluded) (parSet P.rckPlanLimits3 1 s))
    else choosePlan p s
  let s := prognose p s
  { s with age := { s.age with plan := some p } }

/-- Whether plans may run now (17 R460). -/
def planAllowed (s : State) : Bool :=
  s.age.plan.isNone && !s.supply.brown && s.power.entry.isNone && decide (s.power.state ≤ 2)

/-- The plan that has waited longest begins, if it may; not within 1 ms of a brown hold (17 R460). -/
def startDue (s : State) : State :=
  match s.age.due with
  | k :: ds => if planAllowed s && !s.supply.deferral then startPlan k { s with age := { s.age with due := ds } } else s
  | [] => s

/-- A plan falls due: it runs, or it waits (17 R460). -/
def planDue (kind : Nat) (s : State) : State :=
  if planAllowed s then startPlan kind s
  else { s with age := { s.age with due := s.age.due.filter (fun k => k != kind) ++ [kind] } }

/-- T_c and H of a plan take effect and it ends, at the boundary after its last step (17 R455, R457, 03 R79). -/
def endPlan (p : Plan) (s : State) : State :=
  let full := biasNow s = 8 ∧ vselNow s = vselTop s
  let s := each [(P.rckCycleCert, p.newTc), (P.rckHeadroom, p.newH), (P.rckHoursSincePlan, 0),
    (P.rckPlanLimits1, if full then 1 else 0)] (fun x => parSet x.1 x.2) s
  let s := { s with age := { s.age with plan := none, lastStep := period s } }
  reportRecost (queueWhenRunning 0xA020 p.kind (p.newTc + 65536 * p.newH) (bump P.rckPlanCount s))

def onPlan (f : Plan → Plan) (s : State) : State := { s with age := { s.age with plan := s.age.plan.map f } }

/-- The knob step of a period boundary; none is left: the plan ends (17 R457). -/
def planStep (s : State) : State :=
  match s.age.plan with
  | none => s
  | some p =>
    if p.verifying.isSome then s
    else if biasNow s < p.biasTo then parSet P.rckBiasStep (biasNow s + 1) s
    else if vselNow s < p.vselTo then
      onPlan (fun p => { p with verifying := if p.kind = 5 then none else some true, stepAt := now s }) (parSet P.rckVselCode (vselNow s + 1) s)
    else if p.vselTo < vselNow s then
      onPlan (fun p => { p with verifying := some false, stepAt := now s }) (parSet P.rckVselCode (vselNow s - 1) s)
    else endPlan p s

/-- The change that a count shows: the mean, over the counted Tops, of the newest reading before less the reading now,
ps. DESIGN CHOICE. -/
def changeSeen (tops : List TopRead) (s : State) : Rat :=
  let ds := tops.filterMap (fun x => (smFind s.age.readings x.top).bind (fun l => l.head?.map (fun r => ((r : Int) - (x.reading : Int)))))
  mkRat ds.sum (100 * ds.length)

/-- The extra count after a VSEL step (17 R457). -/
def verifyStep (tops : List TopRead) (s : State) : State :=
  match s.age.plan with
  | none => s
  | some p =>
    match p.verifying with
    | none => s
    | some up =>
      let tops := tops.filter (fun x => decide (x.top < 32) && domOn s (topDomain x.top) && !topExcluded s x.top)
      let v := vselNow s
      let other := if up then v - 1 else v + 1
      let seen := if up then changeSeen tops s else -changeSeen tops s
      let answered := decide (p.u * |gainOf v (biasNow s) - gainOf other (biasNow s)| / 4 ≤ seen)
      let worst := (tops.map TopRead.reading).foldl max 0
      let s := onPlan (fun p => { p with verifying := none }) (takeReadings tops s)
      let fault (s : State) : State :=
        queueWhenRunning 0xA021 v (uint 32 (nearestRat 14 (100 * seen))) (bump P.rckVselFaults s)
      if up then
        if answered then s
        else
          let s := parSet P.rckPlanLimits 1 (fault s)
          if parGet s P.rckPlanLimits3 = 1 then onPlan (fun p => { p with vselTo := v }) s
          else
            let (p, s) := choosePlan { p with verifying := none } s
            { s with age := { s.age with plan := some p } }
      else
        let back := onPlan (fun p => { p with vselTo := v + 1 })
        if !answered then back (fault s)
        else if 400 * p.newTc < 5 * worst then back s else s

/-- A plan is abandoned (17 R460): the knobs already raised stay, T_c and H do not change; a scheduled plan is due
again. -/
def abandonPlan (s : State) : State :=
  match s.age.plan with
  | none => s
  | some p =>
    let s := { s with age := { s.age with plan := none } }
    if p.kind = 2 ∨ p.kind = 4 then { s with age := { s.age with due := s.age.due ++ [p.kind] } } else s

/-- Powered time passes by one period (17 R454, R463). -/
def poweredPeriod (s : State) : State :=
  if 2 < s.power.state then s
  else if s.age.ticks + 1 < 120000 then { s with age := { s.age with ticks := s.age.ticks + 1 } }
  else
    let s := parSet P.rckHoursSincePlan (min 1440 (parGet s P.rckHoursSincePlan + 1)) s
    if s.age.minutes + 1 < 60 then { s with age := { s.age with ticks := 0, minutes := s.age.minutes + 1 } }
    else parSet P.rckPoweredHours (min 4294967295 (parGet s P.rckPoweredHours + 1))
      { s with age := { s.age with ticks := 0, minutes := 0 } }

end Sys2Proof.Machine
end

