-- ==== Sys2Proof/Machine/RckCommands.lean ====
section
/-! DEFINITION. The Reckoner and ageing commands: BUDGET_QUERY, MARGIN_REPLAN, AGEING_REPORT (03 R71, 17 R455, R462). -/

namespace Sys2Proof.Machine

/-- BUDGET_QUERY (03 R69, R71): budget, committed, headroom. -/
def progBudgetQuery (res idx : Nat) : Prog :=
  .direct (fun s => if (budgetOf s (admitTc s) res idx).isSome then .ok else .badParam) (fun s =>
    let b := (budgetOf s (admitTc s) res idx).getD 0
    (leBytes 4 b ++ leBytes 4 (committed s res idx) ++
      leBytes 4 (if isBudget res then ceilDiv (b * parGet s P.rckHeadroom) 1000 else 0), s))

def execBudgetQuery (h : Hdr) (resource index : Nat) (s : State) : Host.Outcome State Fault Refusal :=
  .next (submit (progBudgetQuery resource index) (.budgetQuery h resource index) s)

/-- MARGIN_REPLAN (17 R455, R460): its own plan, after one that runs. -/
def progMarginReplan : Prog :=
  { check := fun s => (if s.supply.brown then .badState else .ok, s)
    begin := fun s => (some .plan, 0, planDue 3 s)
    undo := fun _ s => { s with age := { s.age with
      plan := s.age.plan.filter (fun p => p.kind != 3), due := s.age.due.filter (fun k => k != 3) } } }

def execMarginReplan (h : Hdr) (s : State) : Host.Outcome State Fault Refusal :=
  .next (submit progMarginReplan (.marginReplan h) s)

/-- A plan that ran has ended: MARGIN_REPLAN completes with its own, and a plan that waits begins. -/
def afterPlan (before : Option Plan) (s : State) : State :=
  if before.isSome && s.age.plan.isNone then
    startDue (if before.any (fun p => p.kind == 3) then
      each (waitingFor .plan s) (fun r s => workDone progMarginReplan r s) s else s)
  else s

/-- Brown hold begins during a plan: MARGIN_REPLAN ends with BAD_STATE (17 R460). -/
def planBrown (s : State) : State :=
  each (waitingFor .plan s) (fun r s => failCmd progMarginReplan r .badState [] (stopRunning r s)) (abandonPlan s)

/-- AGEING_REPORT (17 R462). The hours, the knobs and the limits are those at the report; what a plan computed is that of the last plan
begun; the last step is the period boundary at which T_c and H last took effect: DESIGN CHOICE. -/
def ageingBytes (s : State) : List Byte :=
  leBytes 2 (parGet s P.rckCycleCert) ++ leBytes 2 (parGet s P.rckHeadroom) ++ leBytes 1 (vselNow s) ++ leBytes 1 (biasNow s) ++
    leBytes 4 (parGet s P.rckPoweredHours) ++
    leBytes 1 (parGet s P.rckPlanLimits + 2 * parGet s P.rckPlanLimits1 + 4 * parGet s P.rckPlanLimits2 +
      8 * parGet s P.rckPlanLimits3 + 16 * parGet s P.rckPlanLimits4) ++
    leBytes 1 (topsOut s) ++ leBytes 1 s.age.worst ++ [0] ++ leBytes 4 s.age.t ++ leBytes 4 s.age.t0 ++ leBytes 2 s.age.a ++
    leBytes 2 s.age.yHold ++ leBytes 2 s.age.yLimit ++ leBytes 2 s.age.yBudget ++ leBytes 8 s.age.lastStep

def progAgeingReport : Prog := .direct (fun _ => .ok) (fun s => (ageingBytes s, s))

def execAgeingReport (h : Hdr) (s : State) : Host.Outcome State Fault Refusal :=
  .next (submit progAgeingReport (.ageingReport h) s)

/-! ### Instants of a plan -/

/-- The Tops are counted, once in every 10 ms; a reading of a Top whose domain is off is the one count that a plan would take of it
(17 R451). -/
def execTopsCount (tops : List TopRead) (s : State) : Host.Outcome State Fault Refusal :=
  .next (if s.seq.running && (elapsed s (s.age.countAt + 1228800) || s.age.countAt == 0) then
      keepOffCounts tops (takeReadings tops { s with age := { s.age with countAt := now s } })
    else s)

end Sys2Proof.Machine
end

