-- ==== Sys2Proof/Machine/Abacus.lean ====
section
/-! DEFINITION. The Abacus instruction set: decoding, program check, cost, and one run of a rod (10 R285 to R298). -/

namespace Sys2Proof.Machine

/-! ### Instruction words (10 R294, R295) -/

/-- M-format fields. -/
structure FmtM where
  xp : Nat
  xs : Nat
  xm : Bool
  yp : Nat
  yData : Bool
  ys : Nat
  ym : Bool
  deriving DecidableEq, Repr

/-- O- and S-format fields; `flag` is the memory bit of O and the rounding bit of S. -/
structure FmtO where
  p : Nat
  flag : Bool
  sp : Nat
  pm : Bool
  sh : Nat
  deriving DecidableEq, Repr

/-- An Abacus instruction. -/
inductive Bead where
  | nop | halt
  | loop (count length : Nat)
  | setp (p reg value : Nat)
  | mpy (f : FmtM) | mac (f : FmtM) | msu (f : FmtM) | macl (f : FmtM)
  | ld (f : FmtO) | ldx (f : FmtO) | add (f : FmtO) | sub (f : FmtO) | max (f : FmtO) | min (f : FmtO)
  | ldi (sh : Nat) (imm : Int)
  | st (f : FmtO) | stx (f : FmtO)
  | clr | abs | neg
  | ash (k : Int)
  | sum | log2 | exp2
  deriving DecidableEq, Repr

def fmtM (w : Nat) : FmtM :=
  ⟨bits w 25 24, bits w 23 22, bit w 21, bits w 20 19, bit w 18, bits w 17 16, bit w 15⟩
def fmtO (w : Nat) : FmtO := ⟨bits w 25 24, bit w 23, bits w 22 21, bit w 20, bits w 19 15⟩

/-- The instruction of a word, reserved bits ignored; none: reserved opcode. -/
def beadOf (w : Nat) : Option Bead :=
  match bits w 31 26 with
  | 0x00 => some .nop
  | 0x01 => some .halt
  | 0x02 => some (.loop (bits w 25 16) (bits w 8 0))
  | 0x03 => some (.setp (bits w 25 24) (bits w 23 22) (bits w 10 0))
  | 0x08 => some (.mpy (fmtM w))
  | 0x09 => some (.mac (fmtM w))
  | 0x0A => some (.msu (fmtM w))
  | 0x0B => some (.macl (fmtM w))
  | 0x10 => some (.ld (fmtO w))
  | 0x11 => some (.ldx (fmtO w))
  | 0x12 => some (.add (fmtO w))
  | 0x13 => some (.sub (fmtO w))
  | 0x14 => some (.max (fmtO w))
  | 0x15 => some (.min (fmtO w))
  | 0x16 => some (.ldi (bits w 25 21) (sint 16 (bits w 15 0)))
  | 0x18 => some (.st (fmtO w))
  | 0x19 => some (.stx (fmtO w))
  | 0x20 => some .clr
  | 0x21 => some .abs
  | 0x22 => some .neg
  | 0x23 => some (.ash (sint 6 (bits w 25 20)))
  | 0x24 => some .sum
  | 0x25 => some .log2
  | 0x26 => some .exp2
  | _ => none

/-- The bits that a format names besides the opcode. -/
def fieldMask (b : Bead) : Nat :=
  match b with
  | .loop _ _ => 0x03FF01FF
  | .setp _ _ _ => 0x03C007FF
  | .mpy _ | .mac _ | .msu _ | .macl _ | .ld _ | .ldx _ | .add _ | .sub _ | .max _ | .min _ | .st _ | .stx _ => 0x03FF8000
  | .ldi _ _ => 0x03E0FFFF
  | .ash _ => 0x03F00000
  | _ => 0

/-- Whether a reserved bit is set. -/
def reservedBits (w : Nat) (b : Bead) : Bool := Nat.land (w % 2 ^ 26) (2 ^ 26 - 1 - fieldMask b) != 0

/-- Whether a field is out of range (10 R297 reason 3). -/
def fieldBad (b : Bead) : Bool :=
  match b with
  | .setp _ r v => r == 3 || (r == 0 && decide (v > 1023)) || (r == 2 && decide (v > 1024))
  | .loop c l => c == 0 || l == 0
  | .ldx f => !f.flag
  | _ => false

/-- Cycles of an instruction (10 R295). -/
def beadCycles (b : Bead) : Nat :=
  match b with
  | .mpy f | .mac f | .msu f | .macl f => if f.yData then 2 else 1
  | .ldx _ | .stx _ | .sum => 2
  | .log2 | .exp2 => 3
  | _ => 1

/-! ### Program check and cost (10 R297, R298) -/

/-- The loop bodies open at an address: last address and count. -/
abbrev Bodies := List (Nat × Nat)

/-- The check from address `a`: a failure (address, reason), or the cost of a run. -/
def checkFrom (prog : SMap Nat) : Nat → Nat → Bodies → Nat → Sum (Nat × Nat) Nat
  | 0, _, _, _ => .inl (511, 6)
  | k + 1, a, open_, cost =>
    let w := smGet 0 prog a
    let open_ := open_.filter (fun b => a ≤ b.1)
    match beadOf w with
    | none => .inl (a, 1)
    | some b =>
      if reservedBits w b then .inl (a, 2)
      else if fieldBad b then .inl (a, 3)
      else
        let cost := cost + beadCycles b * (open_.map Prod.snd).prod
        match b with
        | .halt => if open_ = [] then .inr cost else .inl (a, 4)
        | .loop c l =>
          if a + l > 511 || open_.any (fun q => decide (a + l > q.1)) then .inl (a, 4)
          else if open_.length ≥ 2 then .inl (a, 5)
          else checkFrom prog k (a + 1) ((a + l, c) :: open_) cost
        | _ => checkFrom prog k (a + 1) open_ cost

/-- The program check of PROG_ADMIT. -/
def progCheck (prog : SMap Nat) : Sum (Nat × Nat) Nat := checkFrom prog 512 0 [] 0

/-! ### Pointers and memories (10 R288 to R290) -/

/-- The address a post-modify with a modifier gives. -/
def stepPtr (r : Rod) (p : Nat) (md : Int) : Int :=
  let ap := r.ap.getD p 0
  let ba := r.ba.getD p 0
  let ml := r.ml.getD p 0
  if ml = 0 then (ap + md) % 1024 else ba + (ap - ba + md) % ml

def postModify (p : Nat) (on : Bool) (r : Rod) : Rod :=
  if on then { r with ap := r.ap.set p (stepPtr r p (r.md.getD p 0)) } else r

def spreadOf (data : Bool) (code b : Nat) : Nat :=
  match code with
  | 0 => 0
  | 1 => b
  | 2 => 2 * b
  | _ => (if data then 48 else 128) * b

/-- The address of a bead. -/
def beadAddr (data : Bool) (code b : Nat) (ap : Int) : Nat := ((ap + (spreadOf data code b : Nat)) % 1024).toNat

/-- A word of data or coefficient memory. -/
def readWord (r : Rod) (data : Bool) (a : Nat) : Int :=
  if data then smGet 0 r.data a
  else
    let standby := a ≥ 512
    let bank := if standby then 1 - r.active else r.active
    smGet 0 (if bank = 0 then r.bank0 else r.bank1) (a % 512)

def writeWord (a : Nat) (v : Int) (r : Rod) : Rod := { r with data := smSet 0 r.data a v }

/-! ### Arithmetic (10 R291 to R293) -/

def acc40 (x : Int) : Int := clampI (-549755813888) 549755813887 x

/-- `LOG2` of an accumulator. -/
def beadLog2 (x : Int) : Int :=
  let m := if x = 0 then 1 else x.natAbs
  let e := m.log2
  (e * 65536 + (m - 2 ^ e) * 65536 / 2 ^ e : Nat)

/-- `EXP2` of an accumulator, before saturation. -/
def beadExp2 (x : Int) : Int :=
  let e := x / 65536
  let f := x - 65536 * e
  if e > 40 then 2 ^ 40
  else if e < -40 then 0
  else if 0 ≤ e then (65536 + f) * 2 ^ e.toNat / 65536
  else (65536 + f) / (65536 * 2 ^ (-e).toNat)

/-- The rounded accumulator of a store. -/
def storeRound (round : Bool) (s : Nat) (x : Int) : Int :=
  if s = 0 then x else if round then (x + 2 ^ (s - 1)) / 2 ^ s else x / 2 ^ s

/-- What a run counts: accumulator saturations and store saturations. -/
structure Sats where
  acc : Nat
  store : Nat
  deriving DecidableEq, Repr

/-! ### One instruction on the four beads -/

/-- The accumulators take new values, saturated. -/
def setAcc (xs : List Int) (x : Rod × Sats) : Rod × Sats :=
  ({ x.1 with acc := xs.map acc40 }, if xs.all (fun v => acc40 v == v) then x.2 else { x.2 with acc := x.2.acc + 1 })

def beads : List Nat := [0, 1, 2, 3]

def accOf (r : Rod) (b : Nat) : Int := r.acc.getD b 0

/-- An M-format instruction: `f acc x x2 y` per bead. -/
def runM (m : FmtM) (f : Int → Int → Int → Int → Int) (x : Rod × Sats) : Rod × Sats :=
  let r := x.1
  let ax := r.ap.getD m.xp 0
  let ay := r.ap.getD m.yp 0
  let v := beads.map (fun b =>
    f (accOf r b) (readWord r true (beadAddr true m.xs b ax))
      (readWord r true (beadAddr true m.xs b (stepPtr r m.xp 1)) % 65536)
      (readWord r m.yData (beadAddr m.yData m.ys b ay)))
  let (r, c) := setAcc v x
  (if m.xp = m.yp then postModify m.xp (m.xm || m.ym) r else postModify m.yp m.ym (postModify m.xp m.xm r), c)

/-- An O-format instruction: `f acc op` per bead. -/
def runO (o : FmtO) (f : Int → Int → Int) (x : Rod × Sats) : Rod × Sats :=
  let r := x.1
  let v := beads.map (fun b => f (accOf r b) (readWord r o.flag (beadAddr o.flag o.sp b (r.ap.getD o.p 0)) * 2 ^ o.sh))
  let (r, c) := setAcc v x
  (postModify o.p o.pm r, c)

/-- Execute one instruction other than HALT and LOOP. -/
def runBead (b : Bead) (x : Rod × Sats) : Rod × Sats :=
  let r := x.1
  let each1 (f : Int → Int) := setAcc (beads.map (fun b => f (accOf r b))) x
  match b with
  | .nop | .halt | .loop _ _ => x
  | .setp p reg v =>
    (if reg = 0 then { r with ap := r.ap.set p v, ba := r.ba.set p v }
     else if reg = 1 then { r with md := r.md.set p (sint 11 v) }
     else { r with ml := r.ml.set p v }, x.2)
  | .mpy f => runM f (fun _ a _ y => a * y) x
  | .mac f => runM f (fun c a _ y => c + a * y) x
  | .msu f => runM f (fun c a _ y => c - a * y) x
  | .macl f => runM f (fun c _ a2 y => c + a2 * y / 256) x
  | .ld o => runO o (fun _ v => v) x
  | .add o => runO o (fun c v => c + v) x
  | .sub o => runO o (fun c v => c - v) x
  | .max o => runO o (fun c v => max c v) x
  | .min o => runO o (fun c v => min c v) x
  | .ldx o =>
    let v := beads.map (fun b =>
      (readWord r true (beadAddr true o.sp b (r.ap.getD o.p 0)) * 256 +
        readWord r true (beadAddr true o.sp b (stepPtr r o.p 1)) % 256) * 2 ^ o.sh)
    let (r, c) := setAcc v x
    (postModify o.p o.pm r, c)
  | .ldi s i => each1 (fun _ => i * 2 ^ s)
  | .st o =>
    let q := beads.map (fun b => storeRound o.flag o.sh (accOf r b))
    let r' := beads.foldl (fun r' b => writeWord (beadAddr true o.sp b (r.ap.getD o.p 0)) (clampI (-32768) 32767 (q.getD b 0)) r') r
    (postModify o.p o.pm r', if q.all (fun v => clampI (-32768) 32767 v == v) then x.2 else { x.2 with store := x.2.store + 1 })
  | .stx o =>
    let q := beads.map (fun b => storeRound o.flag o.sh (accOf r b))
    let r' := beads.foldl (fun r' b =>
      let v := clampI (-8388608) 8388607 (q.getD b 0)
      writeWord (beadAddr true o.sp b (stepPtr r o.p 1)) (v % 256)
        (writeWord (beadAddr true o.sp b (r.ap.getD o.p 0)) (v / 256) r')) r
    (postModify o.p o.pm r', if q.all (fun v => clampI (-8388608) 8388607 v == v) then x.2 else { x.2 with store := x.2.store + 1 })
  | .clr => each1 (fun _ => 0)
  | .abs => each1 (fun a => |a|)
  | .neg => each1 (fun a => -a)
  | .ash k => each1 (fun a => if 0 ≤ k then a * 2 ^ k.toNat else a / 2 ^ (-k).toNat)
  | .sum => each1 (fun _ => r.acc.sum)
  | .log2 => each1 beadLog2
  | .exp2 => each1 beadExp2

/-! ### A run (10 R296) -/

/-- The next address after `a`, and the loop bodies open there: first, last, repetitions left. -/
def nextAddr : List (Nat × Nat × Nat) → Nat → Nat × List (Nat × Nat × Nat)
  | [], a => (a + 1, [])
  | (f, l, n) :: st, a =>
    if a = l then (if 0 < n then (f, (f, l, n - 1) :: st) else nextAddr st a) else (a + 1, (f, l, n) :: st)

/-- A run from an address with a bound on instructions and on cycles. It ends at HALT or when the cycles are used up. -/
def runFrom : Nat → Nat → Nat → List (Nat × Nat × Nat) → Rod × Sats → Rod × Sats
  | 0, _, _, _, x => x
  | k + 1, cycles, a, st, x =>
    match beadOf (smGet 0 x.1.prog (a % 512)) with
    | none => x
    | some .halt => x
    | some b =>
      if cycles < beadCycles b then x
      else
        let cycles := cycles - beadCycles b
        match b with
        | .loop c l => runFrom k cycles (a + 1) ((a + 1, a + l, c - 1) :: st) x
        | b => let (a', st') := nextAddr st a; runFrom k cycles a' st' (runBead b x)

/-- One run: at most `cycles` cycles. -/
def runRod (cycles : Nat) (r : Rod) : Rod × Sats := runFrom cycles cycles 0 [] (r, ⟨0, 0⟩)

/-! ### Blocks in data memory (10 R287) -/

/-- Write input block `i`. -/
def writeIn (i : Nat) (xs : List Int) (r : Rod) : Rod :=
  (List.range 24).foldl (fun r k =>
    let v := xs.getD k 0
    writeWord (48 * i + 2 * k + 1) (v % 256) (writeWord (48 * i + 2 * k) (v / 256) r)) r

/-- Read output block `i`. -/
def readOut (i : Nat) (r : Rod) : List Int :=
  (List.range 24).map (fun k => smGet 0 r.data (0xC0 + 48 * i + 2 * k) * 256 + smGet 0 r.data (0xC0 + 48 * i + 2 * k + 1) % 256)

/-- Data memory, pointers and accumulators as at admission (10 R302, R307). -/
def clearRod (r : Rod) : Rod :=
  { r with data := [], ap := [0, 0, 0, 0], ba := [0, 0, 0, 0], md := [0, 0, 0, 0], ml := [0, 0, 0, 0], acc := [0, 0, 0, 0] }

end Sys2Proof.Machine
end

