-- ==== Sys2Proof/Machine/RodCommands.lean ====
section
/-! DEFINITION. The Abacus commands (10 R299 to R307). -/

namespace Sys2Proof.Machine

/-- The checks that every rod command begins with (10 R301); `misfit`: a count outside its range in 02 R58. -/
def rodChecks (n : Nat) (misfit : Bool) (s : State) : List (Bool × Status) :=
  let p := (rod s n).phase
  [(decide (n > 63) || misfit, .badParam),
   (p == .link || p == .carrier || p == .bus || !domAllowed s.power.state Dom.abc, .badState)]

/-- PROG_LOAD: the named words are replaced, the others stay. -/
def progProgLoad (n first : Nat) (words : List Nat) : Prog :=
  { check := fun s => (firstFail (rodChecks n (decide (words = [] ∨ 254 < words.length)) s ++ [
      (decide (first + words.length > 512), .badParam),
      ((rod s n).phase == .running, .badState)]), s)
    needs := fun _ => [Dom.abc]
    apply := fun _ s =>
      (.ok, [], onRod n (fun r => { r with phase := .loaded, prog := smSetList 0 r.prog first words }) s) }

def execProgLoad (h : Hdr) (rod first : Nat) (words : List Nat) (s : State) : Host.Outcome State Fault Refusal :=
  .next (submit (progProgLoad rod first words) (.progLoad h rod first words) s)

/-- The cost of the program on a rod, 0 when the check fails. -/
def rodCost (s : State) (n : Nat) : Nat := match progCheck (rod s n).prog with | .inr c => c | .inl _ => 0

def progAsk (n c : Nat) : Ask := { work := ⟨wkProgram, n⟩, need := .named n, cycles := c, uses := [] }

/-- The rod as PROG_ADMIT makes it; its first run is in the period that begins at the next boundary. -/
def admitted (cls c : Nat) (r : Rod) : Rod :=
  { r with phase := .running, cls := cls, cycles := c, starting := true, resting := false, swap := none, last := [],
           out := [], aborted := 0 }

/-- PROG_ADMIT (10 R297, R301, R302, 11 R329). -/
def progAdmitCheck (n cls : Nat) (s : State) : Status × State :=
  match firstFail (rodChecks n false s ++ [(decide (cls > 2), .badParam), ((rod s n).phase != .loaded, .badState)]) with
  | .ok =>
    match progCheck (rod s n).prog with
    | .inl (a, why) =>
      (.badParam, each [(P.abcProgCheck, a), (P.abcProgCheck16, why), (P.abcProgCheck24, n)] (fun x => parSet x.1 x.2) s)
    | .inr c =>
      if !routesFit (onRod n (admitted cls c) s) then latencyRefusal s else admitWork [progAsk n c] s
  | st => (st, s)

def progProgAdmit (n cls : Nat) : Prog :=
  { check := progAdmitCheck n cls
    needs := fun _ => [Dom.abc]
    apply := fun _ s =>
      let c := rodCost s n
      (.ok, leBytes 4 (pips (admitTc s) c), commitWork [⟨wkProgram, n⟩] (onRod n (admitted cls c) s))
    drop := dropWork [⟨wkProgram, n⟩] }

def execProgAdmit (h : Hdr) (rod cls : Nat) (s : State) : Host.Outcome State Fault Refusal :=
  .next (submit (progProgAdmit rod cls) (.progAdmit h rod cls) s)

/-- The pending swap fields of a rod read 0. -/
def clearSwap (n : Nat) (s : State) : State :=
  parSet (P.abcSwapPeriodLo n) 0 (parSet (P.abcSwapPeriodHi n) 0 (onRod n (fun r => { r with swap := none }) s))

/-- A program stops: the rod returns to LOADED and its outputs carry silence (10 R304). -/
def retireRod (n : Nat) (s : State) : State :=
  endWork ⟨wkProgram, n⟩ (clearSwap n (onRod n (fun r => { r with phase := .loaded, cycles := 0, starting := false, resting := false,
                                                                  last := [], out := [], aborted := 0 }) s))

def progProgRetire (n : Nat) : Prog :=
  { check := fun s => (firstFail (rodChecks n false s ++ [((rod s n).phase != .running, .badState)]), s)
    needs := fun _ => [Dom.abc]
    begin := fun s => (some .boundary, 0, s)
    apply := fun _ s => (.ok, [], retireRod n s) }

def execProgRetire (h : Hdr) (rod : Nat) (s : State) : Host.Outcome State Fault Refusal :=
  .next (submit (progProgRetire rod) (.progRetire h rod) s)

/-- COEF_WRITE (10 R305): on a RUNNING rod the words enter the bank at the next boundary. -/
def progCoefWrite (n bank first : Nat) (words : List Int) : Prog :=
  { check := fun s =>
      let r := rod s n
      (firstFail (rodChecks n (decide (words = [] ∨ 509 < words.length)) s ++ [
        (decide (bank > 1 ∨ first + words.length > 512), .badParam),
        (r.phase == .running && (bank == r.active || r.swap.isSome), .badState)]), s)
    needs := fun _ => [Dom.abc]
    begin := fun s => (if (rod s n).phase = .running || restarting s Dom.abc then some .boundary else none, 0, s)
    apply := fun _ s => (.ok, [], onRod n (fun r =>
      if bank = 0 then { r with bank0 := smSetList 0 r.bank0 first words }
      else { r with bank1 := smSetList 0 r.bank1 first words }) s) }

def execCoefWrite (h : Hdr) (rod bank first : Nat) (words : List Int) (s : State) : Host.Outcome State Fault Refusal :=
  .next (submit (progCoefWrite rod bank first words) (.coefWrite h rod bank first words) s)

/-- COEF_SWAP (10 R306). -/
def progCoefSwap (n p : Nat) : Prog :=
  { check := fun s => (firstFail (rodChecks n false s ++ [
      ((rod s n).phase != .running || (rod s n).swap.isSome, .badState),
      (decide (p ≠ 0 ∧ ¬(period s < p ∧ p ≤ period s + 65535)), .badParam)]), s)
    needs := fun _ => [Dom.abc]
    begin := fun s => (none, if p = 0 then period s + 1 else p, s)
    apply := fun a s => (.ok, leBytes 8 a, parSet (P.abcSwapPeriodLo n) (a % 2 ^ 32) (parSet (P.abcSwapPeriodHi n) (a / 2 ^ 32)
      (onRod n (fun r => { r with swap := some a }) s))) }

def execCoefSwap (h : Hdr) (rod period : Nat) (s : State) : Host.Outcome State Fault Refusal :=
  .next (submit (progCoefSwap rod period) (.coefSwap h rod period) s)

/-- At a boundary from the one named, the two banks exchange roles. -/
def swapBanks (n : Nat) (s : State) : State :=
  match (rod s n).swap with
  | some p =>
    if p ≤ period s then
      queueEvent 0x7003 n (period s % 2 ^ 32) (bump P.abcSwaps
        (clearSwap n (onRod n (fun r => { r with active := 1 - r.active }) s)))
    else s
  | none => s

end Sys2Proof.Machine
end

