-- ==== Sys2Proof/Machine/ParamRead.lean ====
section
/-! DEFINITION. What a parameter reads: stored fields, and the live fields of every parameter map (00 R15), with
PARAM_GET and GET_COUNTERS (02 R58, R525). -/

namespace Sys2Proof.Machine

/-! ### Composite level (08 R242) -/

/-- 10^(k / 2000) in units of 10^-40, rounded down. -/
def powHalfMilli (k : Int) : Nat :=
  searchUp (fun x => decide (x ^ 2000 ≤ 10 ^ (80000 + k).toNat)) ((List.range 170).map (fun i => 2 ^ (169 - i))) 0

/-- The composite level of the carriers that radiate, 0.01 dBm, nearest; 0x8000 when none does. -/
def composite (s : State) : Int :=
  let ls := ((openCarriers s).filter (fun p => p.2.phase == .on || p.2.phase == .stopping)).map (fun p => effLevel s.tx.steps p.2.step)
  match ls with
  | [] => -32768
  | l :: _ =>
    let top := ls.foldl max l
    let sum := (ls.map (fun x => powHalfMilli (2 * x))).sum
    top + (searchUp (fun n => decide (powHalfMilli (2 * (top + n) - 1) ≤ sum)) [1024, 512, 256, 128, 64, 32, 16, 8, 4, 2, 1] 0 : Nat)

/-! ### Live fields -/

def txPhaseNo : TxPhase → Nat
  | .closed => 0 | .opened => 1 | .starting => 2 | .on => 3 | .stopping => 4 | .held => 5

def clPhaseNo : ClPhase → Nat
  | .stopped => 0 | .starting => 1 | .running => 2 | .held => 3 | .muted => 4

def portPhaseNo : PortPhase → Nat
  | .unconfigured => 0 | .stopped => 1 | .armed => 2 | .running => 3 | .lost => 4 | .reacquiring => 5 | .rateMuted => 6

/-- A mask of the numbers below `n` that pass a test. -/
def maskOf (n : Nat) (p : Nat → Bool) : Nat := ((List.range n).map (fun i => b2n (p i) * 2 ^ i)).sum

/-- Cycles per period of the work placed on a rod (10 R304). -/
def rodCycles (s : State) (r : Nat) : Nat :=
  (s.rck.charges.map (fun c =>
    if c.new.cost.rod = some r then c.new.cost.cycles else if c.old.cost.rod = some r then c.old.cost.cycles else 0)).sum

/-- A converter's configuration word (13 R387). -/
def fineWord (s : State) (n lo : Nat) : Nat :=
  let f := fine s n
  match lo with
  | 0 => f.channel
  | 8 => f.order
  | 12 => f.notch
  | 16 => f.trigger
  | 20 => b2n f.streaming
  | 21 => b2n f.conv.isSome
  | _ => f.tag

/-- The live fields of the system, clock, receive and downlink maps. -/
def liveLow (s : State) (pid lo : Nat) : Option Nat :=
  match pid with
  | 0x26 => some (match lo with | 0 => b2n s.tw.answered | 1 => b2n s.tw.inTransfer | 8 => s.tw.opPtr | _ => s.tw.cuPtr)
  | 0x41 => some (if lo = 8 then b2n s.supply.brown else b2n (s.supply.low.getLsbD lo))
  | 0x48 => some (if lo = 0 then s.supply.up.toNat else s.supply.present.toNat)
  | 0x1001 => some s.clk.refState
  | 0x1002 => some (uint 32 (refOffset s))
  | 0x1007 => some (if lo = 0 then b2n s.clk.pllLocked + maskOf 4 (fun i => i != 0 && (synth s i).phase == .locked)
      else maskOf 4 (fun i => i != 0 && ((synth s i).phase == .calibrating || (locked s i && (synth s i).trim))))
  | 0x100C => some (b2n (!s.clk.lfCrystal))
  | 0x100D => some (uint 32 (Config.lfPpm (now s)))
  | 0x2001 => some (if lo = 0 then uint 8 s.rf.a.gain else b2n s.rf.a.fixed)
  | 0x2002 => some (if lo = 0 then uint 8 s.rf.b.gain else b2n s.rf.b.fixed)
  | 0x2007 => some s.rf.imageCal
  | 0x2008 => some s.rf.a.irr
  | 0x2009 => some s.rf.b.irr
  | 0x200A => some ((s.rf.priv.filter PrivRec.valid).length)
  | 0x200B => if lo = 8 then some (b2n s.rf.scan.isSome) else none
  | 0x4001 => some (maskOf 16 (fun c => carrierEnabled (carrier s c)))
  | 0x4005 => some (if lo = 0 then ceilingOf s.tx.steps else uint 16 (stepLevel s.tx.steps (ceilingOf s.tx.steps)))
  | 0x4006 => some (if lo = 0 then b2n (paEnNow s) else b2n (paMuteNow s))
  | 0x4007 => some (uint 16 (composite s))
  | 0x5000 => some (if clStarting s then 1 else clPhaseNo s.cl.phase)
  | _ => none

/-- The live fields of the audio, Abacus and instrumentation blocks. -/
def liveMid (s : State) (pid lo : Nat) : Option Nat :=
  match pid with
  | 0x6002 => some (64 - committed s 6 0)
  | 0x6003 => some ((s.audio.routes.filter (fun p => p.2.active || p.2.fading)).length)
  | 0x6204 => if lo = 8 ∨ lo = 9 then some (b2n (ana s (lo - 4)).limit) else none
  | 0x6207 => if lo = 17 then some (ana s 8).phase else none
  | 0x6208 => if lo = 16 then some (b2n s.ana.jack1) else if lo = 17 then some (b2n s.ana.jack2) else none
  | 0x7000 => some (64 - (s.rods.filter (fun p => decide (3 ≤ rodPhaseNo p.2.phase))).length)
  | 0x7001 => some (maskOf 32 (fun r => decide (3 ≤ rodPhaseNo (rod s r).phase)))
  | 0x7002 => some (maskOf 32 (fun r => decide (3 ≤ rodPhaseNo (rod s (r + 32)).phase)))
  | 0x7003 => some (maskOf 32 (fun r => (rod s r).phase == .running))
  | 0x7004 => some (maskOf 32 (fun r => (rod s (r + 32)).phase == .running))
  | 0x7005 => some (((List.range 64).map (committed s 0)).sum * 1000 / (64 * 490000))
  | 0x8000 => if lo = 8 then some (b2n s.inst.refReady) else none
  | 0x8001 => some (fineWord s 0 lo)
  | 0x8002 => some (fineWord s 1 lo)
  | 0x8003 => some (1024000000 / s.inst.fa.d)
  | 0x8004 => some (1024000000 / s.inst.fb.d)
  | 0x8005 => some (if lo = 0 then s.inst.fa.delay else s.inst.fb.delay)
  | 0x8010 => some s.inst.queue.length
  | 0x801A => some (s.inst.stream.elim 0 Stream.wr)
  | 0x801C => some (b2n s.inst.fa.streaming + 2 * b2n s.inst.fb.streaming)
  | 0x9000 => some s.power.on.toNat
  | 0x9004 => some s.power.held.toNat
  | 0xA007 => some (overcommitted s).length
  | 0xA024 => some (if lo = 0 then centi (typical s).2 else (typical s).1)
  | 0xB000 => some (if lo = 0 then protState s else s.prot.proposal.elim 0 (fun p => roleNo p.role))
  | 0xB001 => some (policy s)
  | 0xB002 => some (match lo with | 0 => b2n (otpLocked s) | 1 => b2n (labPart s) | _ => spoiltSlots s)
  | 0xF000 => some (maskOf 9 (fun i => pertArmed s (i + 1)))
  | 0xF002 => some (if lo = 0 then maskOf 6 (fun p => (port s p).loopback) else b2n s.rattle.txLoop)
  | _ => none

/-- The live fields of the object blocks, object `n`. `TX.MSG_LEN` [8] reads 1, and the message is being sent, from the write of its
length on, the wait for the superblock start included (08 R233): DESIGN CHOICE. -/
def liveObj (s : State) (pid lo n : Nat) : Option Nat :=
  match pid with
  | 0x3000 => some (laneState (link s n))
  | 0x3010 => some (linkLqNow (link s n))
  | 0x3011 => some (uint 16 (rssiOf (if lo = 0 then (link s n).rssiA else (link s n).rssiB)))
  | 0x3012 => some (uint 32 (link s n).fOff)
  | 0x3013 => some (uint 16 (link s n).tOff)
  | 0x3014 => some (linkEvmNow (link s n))
  | 0x3015 => some (link s n).aerial
  | 0x4040 => some (txPhaseNo (carrier s n).phase)
  | 0x4042 => some (if lo = 0 then (carrier s n).step else (carrier s n).cls)
  | 0x4047 => if lo = 8 then some (b2n (carrier s n).msg.isSome) else none
  | 0x6040 => some (portPhaseNo (port s n).phase)
  | 0x6046 => some (port s n).rate
  | 0x6047 => some (uint 32 (port s n).ratio)
  | 0x6048 => some (match lo with | 0 => b2n (port s n).onGrid | 1 => b2n (port s n).acquired | _ => portClass (port s n))
  | 0x6100 => some (match lo with | 0 => (tap s n).route | 12 => b2n (decide ((tap s n).length ≠ 0)) | _ => (tap s n).packing - 3)
  | 0x6101 => some (tap s n).start
  | 0x6102 => some (tap s n).length
  | 0x6103 => some (tap s n).wr
  | 0x6180 => some (match lo with | 0 => uint 16 (bus s n).gain | 16 => (bus s n).cls | _ => busInputs s n)
  | 0x6200 => if lo = 16 then some (b2n (micSettled s n)) else none
  | 0x6205 => if lo = 17 then some (ana s (6 + n)).phase else none
  | 0x7040 => some (match lo with | 0 => rodPhaseNo (rod s n).phase | 4 => (rod s n).cls | _ => (rod s n).active)
  | 0x7041 => some (if (rod s n).phase = .running then (rod s n).cycles else rodCycles s n)
  | 0x8040 => some (if lo = 0 then (cdac s n).target else (cdac s n).out)
  | 0x8041 => some (match lo with | 0 => (cdac s n).range | 1 => (cdac s n).phase | _ => (cdac s n).pending.elim 0 Prod.fst)
  | _ => none

/-- PIDs that name one object each in a row of the map (12 R365): the PID of the first and the object. -/
def rowPid (pid : Nat) : Nat × Nat :=
  if 0x6200 ≤ pid ∧ pid ≤ 0x6203 then (0x6200, pid - 0x6200)
  else if pid = 0x6206 then (0x6205, 1) else canonPid pid

/-- The value a field reads. -/
def fieldValue (s : State) (pid lo : Nat) : Nat :=
  let (p, n) := rowPid pid
  match liveObj s p lo n with
  | some v => v
  | none =>
    match liveLow s pid lo with
    | some v => v
    | none => (liveMid s pid lo).getD (parGet s (key pid lo))

/-- The word a PID reads; none: the PID is unassigned (00 R11). -/
def paramRead (s : State) (pid : Nat) : Option Nat :=
  match fieldsOf pid with
  | [] => none
  | fs => some ((fs.map (fun f => if f.acc = .wo then 0 else fieldValue s pid f.lo % 2 ^ f.w * 2 ^ f.lo)).sum)

/-- PARAM_GET (02 R58). -/
def progParamGet (pid : Nat) : Prog :=
  .direct (fun s => if (paramRead (judgeExpiry s) pid).isSome then .ok else .badParam)
    (fun s => (leBytes 4 ((paramRead (judgeExpiry s) pid).getD 0), judgeExpiry s))

def execParamGet (h : Hdr) (pid : Nat) (s : State) : Host.Outcome State Fault Refusal :=
  .next (submit (progParamGet pid) (.paramGet h pid) s)

/-- GET_COUNTERS (02 R525). -/
def progGetCounters (first n : Nat) : Prog :=
  .direct (fun _ => if 1 ≤ n ∧ n ≤ 128 ∧ first + n ≤ 0x10000 then .ok else .badParam)
    (fun s => ((List.range n).flatMap (fun i => leBytes 4 ((paramRead (judgeExpiry s) (first + i)).getD 0)), judgeExpiry s))

def execGetCounters (h : Hdr) (first n : Nat) (s : State) : Host.Outcome State Fault Refusal :=
  .next (submit (progGetCounters first n) (.getCounters h first n) s)

end Sys2Proof.Machine
end

