-- ==== Sys2Proof/Machine/ParamWrite.lean ====
section
/-! DEFINITION. Writing parameters: the checks of 00 R524 with the range of every writable field, the effect of each
write, PARAM_SET, PARAM_SET_MANY, and the writes that have a row of their own (04 R116 to R118, 08 R233, 17 R454). -/

namespace Sys2Proof.Machine

/-! ### Ranges (00 R524, and the parameter maps) -/

/-- Whether a value is within the stated range of a field. -/
def rangeOk (s : State) (pid lo n v : Nat) : Bool :=
  let within (lo hi : Nat) : Bool := decide (lo ≤ v ∧ v ≤ hi)
  match pid with
  | 0x1010 => v ≤ 2
  | 0x1013 =>
    let p := parGet s P.clkSyncPeriodLo + 2 ^ 32 * parGet s P.clkSyncPeriodHi
    v ≤ 2 && !(v == 1 && parGet s P.clkSyncRole == 1 && decide (p * periodLen < now s + 2 * periodLen))
  | 0x1019 => 50 ≤ v
  | 0x101E => lo < 2 || v ≤ 2
  | 0x2003 => decide (-30 ≤ sint 8 v ∧ sint 8 v ≤ -10)
  | 0x2011 => within 5000 1000000 && v % 5000 == 0
  | 0x3001 => lo != 0 || within 6 24
  | 0x3002 => if lo = 0 then v ≤ 2 else v ≤ 40
  | 0x3003 => lo == 8 || within 2 12
  | 0x3005 => lo != 0 || 20 ≤ v
  | 0x3006 => within 40 400
  | 0x3008 => within 4 64
  | 0x3009 => within 1 8
  | 0x300A => within 1 64
  | 0x300B => 4 ≤ v
  | 0x4002 => within 10 10000
  | 0x4003 => v ≤ parGet s P.txPaEnLead
  | 0x4004 => v ≤ 10000
  | 0x4047 => within 1 64
  | 0x4058 => within 40 400
  | 0x5003 => v != 0
  | 0x5005 => lo != 0 || within 6 24
  | 0x5006 => 4 ≤ v
  | 0x5007 => within 40 1000
  | 0x5008 => within 20 127
  | 0x5009 => lo != 8 || v ≤ 100
  | 0x6000 => within 4 128
  | 0x800C => v ≤ 8
  | 0x8021 => 1000 ≤ v
  | 0x8022 => v < parGet s (P.measTmPeriod n)
  | 0x8031 => 2 ≤ v
  | 0x9006 => v ≤ 60000
  | 0xA02A => within 50 2000
  | 0xF001 => within 10 3600
  | _ => true

/-- The value a written word gives a field. -/
def written (f : Fld) (v : Nat) : Nat := v / 2 ^ f.lo % 2 ^ f.w

/-- An output divider D is at least 16, and at least 32 for CMOS or for CLKOUT2, from the main VCO (04 R119). With source 1, for
which D is ignored, any D is accepted: DESIGN CHOICE. -/
def dividerOk (pid v : Nat) : Bool :=
  v.testBit 3 || decide ((if bits v 2 1 ≥ 2 ∨ pid = 0x101D then 32 else 16) ≤ bits v 31 16)

/-- Every writable field of a PID is within its range. -/
def rangesOk (s : State) (pid v : Nat) : Bool :=
  let (p, n) := canonPid pid
  (fieldsOf pid).all (fun f => f.acc == .ro || rangeOk s p f.lo n (written f v)) &&
    (decide (pid < 0x101B ∨ 0x101D < pid) || dividerOk pid v)

/-! ### State checks -/

/-- Whether the owning function of an RWS field runs. -/
def ownerRuns (s : State) (pid lo : Nat) : Bool :=
  let (p, n) := canonPid pid
  match p with
  | 0x1010 => parGet s P.clkSyncArm != 0
  | 0x1018 => s.rf.scan.isSome
  | 0x1019 => s.rf.scan.isSome
  | 0x101A => s.rf.scan.isSome
  | 0x200C => s.rf.scan.isSome
  | 0x4002 => (openCarriers s).any (fun q => carrierEnabled q.2) || paEnNow s
  | 0x4003 => (openCarriers s).any (fun q => carrierEnabled q.2) || paEnNow s
  | 0x4004 => (openCarriers s).any (fun q => carrierEnabled q.2) || paEnNow s
  | 0x5003 => s.cl.phase != .stopped || clStarting s
  | 0x6041 => (port s n).phase != .unconfigured && (port s n).phase != .stopped
  | 0x8021 => timerOn s n
  | 0x8022 => timerOn s n
  | _ =>
    let busy (c : Nat) : Bool := (fine s c).trigger != 0 || (fine s c).streaming || (fine s c).conv.isSome
    if 0x8008 ≤ p ∧ p ≤ 0x8009 then busy 0 else if 0x800A ≤ p ∧ p ≤ 0x800B then busy 1
    else if p = 0x800C then busy (if lo = 0 then 0 else 1) else false

/-- Whether any audio or radio service runs (04 R117): a link that is open, a carrier that is enabled or HELD, a port in any state
but UNCONFIGURED and STOPPED, the command link in any state but STOPPED: DESIGN CHOICE. -/
def serviceRuns (s : State) : Bool :=
  !(openLinks s).isEmpty || (openCarriers s).any (fun q => carrierEnabled q.2) ||
    (List.range 6).any (fun p => (port s p).phase != .unconfigured && (port s p).phase != .stopped) || s.cl.phase != .stopped || clStarting s

/-- The state checks of a write that R524 and the field's own rule give. -/
def writeState (s : State) (pid v : Nat) : Status :=
  let (p, n) := canonPid pid
  if (fieldsOf pid).any (fun f => f.acc == .rws && written f v != parGet s (key pid f.lo) && ownerRuns s pid f.lo) then .badState
  else if p = 0x1013 ∧ v % 4 = 1 ∧ serviceRuns s then .badState
  else if 0x4047 ≤ p ∧ p ≤ 0x4057 ∧ (carrier s n).msg.isSome then .badState
  else if p = 0xA022 ∧ parGet s P.rckPlanLimits2 = 0 then .badState
  else .ok

/-- The checks of one write, in the order of R524. -/
def writeCheck (s : State) (pid v : Nat) : Status :=
  if (fieldsOf pid).all (fun f => f.acc == .ro) then .badParam
  else if !rangesOk s pid v then .badParam
  else writeState s pid v

/-! ### Effects -/

/-- Link and downlink fields take effect at the next period boundary (07 R225, 08 R251). -/
def atBoundary (pid : Nat) : Bool := decide ((0x3000 ≤ pid ∧ pid < 0x4000) ∨ (0x4040 ≤ pid ∧ pid < 0x4440 ∧ (canonPid pid).1 ≠ 0x4047))

/-- Store one field; the value in force until the boundary is kept where the write waits for it. -/
def storeField (pid v : Nat) (f : Fld) (s : State) : State :=
  if f.acc == .ro then s
  else
    let k := key pid f.lo
    let s := if atBoundary pid && (smFind s.inForce k).isNone && parGet s k != written f v then
      { s with inForce := smPut s.inForce k (parGet s k) } else s
    parSet k (written f v) s

/-- The message bytes of a carrier (08 R233). -/
def txMsgBytes (s : State) (c n : Nat) : List Byte :=
  ((List.range 16).flatMap (fun i => leBytes 4 (parGet s (P.txMsg0 c i)))).take n

/-- What a write sets going: REFIN use (04 R99), a message (08 R233), the reference buffer (13 R368), a PWM output
(13 R386), the powered hours (17 R454). -/
def writeEffect (pid old v : Nat) (s : State) : State :=
  let (p, n) := canonPid pid
  match p with
  | 0x1000 =>
    if v % 4 = old % 4 then s
    else { s with clk := { s.clk with refState := if v % 4 = 0 then (if s.clk.refCorr = 0 then 0 else 5) else 1 } }
  | 0x1010 => refreshOuts s
  | 0x101B => refreshOuts s
  | 0x101C => refreshOuts s
  | 0x101D => refreshOuts s
  | 0x101E => refreshOuts s
  | 0x5009 => if v.testBit 0 then s else onCl (fun c => { c with coexReq := false, coexPri := false }) s
  | 0x4047 =>
    if (carrier s n).phase = .closed then s
    else onCarrier n (fun c => { c with msg := some ⟨txMsgBytes s n (v % 128), 0, false⟩ }) s
  | 0x8000 =>
    if v.testBit 0 then (if old.testBit 0 then s else { s with inst := { s.inst with refAt := now s } })
    else { s with inst := { s.inst with refReady := false } }
  | 0x8030 => if v.testBit 0 && !old.testBit 0 then startPwm n s else s
  | 0xA022 => parSet P.rckPlanLimits2 0 s
  | _ => s

/-- One accepted write. -/
def paramStore (pid v : Nat) (s : State) : State :=
  let old := (paramRead s pid).getD 0
  let (p, n) := canonPid pid
  let s := if p = 0x8031 ∨ p = 0x8032 then setPwm n (pwmNow s n) s else s
  writeEffect pid old v (each (fieldsOf pid) (storeField pid v) s)

/-- PARAM_SET (00 R524). -/
def progParamSet (pid v : Nat) : Prog :=
  { check := fun s => (writeCheck s pid v, s)
    apply := fun _ s => (.ok, [], paramStore pid v s) }

def execParamSet (h : Hdr) (pid value : Nat) (s : State) : Host.Outcome State Fault Refusal :=
  .next (submit (progParamSet pid value) (.paramSet h pid value) s)

/-- The pairs of PARAM_SET_MANY in order, each checked on what the earlier ones leave; the first failure. -/
def writeMany : List (Nat × Nat) → State → Status × State
  | [], s => (.ok, s)
  | (pid, v) :: l, s =>
    match writeCheck s pid v with
    | .ok => writeMany l (paramStore pid v s)
    | st => (st, s)

/-- PARAM_SET_MANY (02 R58, 00 R524): all or none. -/
def progParamSetMany (pairs : List (Nat × Nat)) : Prog :=
  { check := fun s => (if 1 ≤ pairs.length ∧ pairs.length ≤ 64 then (writeMany pairs s).1 else .badParam, s)
    apply := fun _ s => let (st, t) := writeMany pairs s; (st, [], if st = .ok then t else s) }

def execParamSetMany (h : Hdr) (pairs : List (Nat × Nat)) (s : State) : Host.Outcome State Fault Refusal :=
  .next (submit (progParamSetMany pairs) (.paramSetMany h pairs) s)

/-! ### Writes with a row of their own -/

/-- CLK.SYNC_ARM = 1: one-shot synchronisation at period P (04 R116, R117). -/
def execSyncArmOneShot (h : Hdr) (s : State) : Host.Outcome State Fault Refusal :=
  .next (submit (progParamSet 0x1013 1) (.paramSet h 0x1013 1) s)

/-- CLK.SYNC_ARM = 2: monitoring (04 R118). -/
def execSyncArmMonitor (h : Hdr) (s : State) : Host.Outcome State Fault Refusal :=
  .next (submit (progParamSet 0x1013 2) (.paramSet h 0x1013 2) s)

/-- CLK.SYNC_ARM = 0: disarm (04 R117). -/
def execSyncDisarm (h : Hdr) (s : State) : Host.Outcome State Fault Refusal :=
  .next (submit (progParamSet 0x1013 0) (.paramSet h 0x1013 0) s)

/-- TX.MSG_LEN of a carrier: send its message (08 R233). -/
def execTxMsgSend (h : Hdr) (carrier len : Nat) (s : State) : Host.Outcome State Fault Refusal :=
  .next (submit (progParamSet (0x4047 + 0x40 * carrier) len) (.paramSet h (0x4047 + 0x40 * carrier) len) s)

/-- RCK.POWERED_HOURS: restore the powered hours (17 R454). -/
def execPoweredHoursWrite (h : Hdr) (hours : Nat) (s : State) : Host.Outcome State Fault Refusal :=
  .next (submit (progParamSet 0xA022 hours) (.paramSet h 0xA022 hours) s)

end Sys2Proof.Machine
end

