-- ==== Sys2Proof/Machine/Survival.lean ====
section
/-! DEFINITION. What survives each reset kind and power state (15 R421 to R423, 00 R16), and what a domain does when it
stops and when it runs again (15 R408, R412, R414). -/

namespace Sys2Proof.Machine

/-! ### The survival table (15 R422) -/

/-- Whether a "Kept through" entry covers a reset kind or state (00 R16). -/
def keeps (l : Life) (k : Kept) : Bool :=
  match l with
  | .por | .bor => false
  | .pin | .soft | .wdog => k == .keep
  | .quiet | .scan => true
  | .listen | .hibernate => k == .keep || k == .sleep

/-- The "Kept through" entry of a place in the store. -/
def keptOf (k : Nat) : Kept :=
  (fieldTable.find? (fun f => f.pid == (canonPid (k / 32)).1 && f.lo == k % 32)).elim .none Fld.kept

/-- AON retention, and what follows it. -/
def keepsAon (l : Life) : Bool := keeps l .keep

/-- Tables in MEM, the host area and committed patches. -/
def keepsMem (l : Life) : Bool :=
  match l with
  | .soft | .wdog | .quiet | .scan | .listen => true
  | _ => false

/-- Every admission returns silently to its state after POR; `ROUTE` entries keep IN_USE and lose ACTIVE (15 R423,
11 R332). A scan keeps its charge while its state goes on allowing it. -/
def loseAdmissions (s : State) : State :=
  let s := each ((openLinks s).map Prod.fst) (fun n s => each [P.linkFreq n] (fun k => parSet k 0) (freePriv n s)) s
  let s := each ((openCarriers s).map Prod.fst) (fun c s =>
    each [P.txFreq c, P.txStep c, P.txStep8 c, P.txRetuneTarget c, P.txRetunePeriodLo c, P.txRetunePeriodHi c]
      (fun k => parSet k 0) s) s
  let s := each (List.range 6) (fun p s => showPort p PortCfg.reset s) s
  let s := each ((s.rods.map Prod.fst)) clearSwap s
  { s with
    links := [], carriers := [], rods := []
    audio := { s.audio with
      ports := [], buses := [], taps := [], past := [], dest := []
      routes := smMap Route.reset (fun _ r => if r.inUse
        then { Route.reset with src := r.src, dst := r.dst, gain := r.gain, inUse := true } else Route.reset) s.audio.routes }
    inst := { s.inst with stream := none
                          fa := { s.inst.fa with streaming := false, joining := false }
                          fb := { s.inst.fb with streaming := false, joining := false } }
    rck := { s.rck with
      charges := s.rck.charges.filter (fun c => c.work.kind == wkScan), overLimit := [], overBudget := [], missed := [], stalled := [] } }

/-- A session whose running state is lost: a session in use returns to ADDED with its transmitter ID, flags, epoch and
key; a REMOVING session, whose command link has left RUNNING, is FREE. DESIGN CHOICE. -/
def idleSession (x : Session) : Session :=
  if x.phase = .removing ∨ x.phase = .free then Session.reset
  else { x with phase := .added, pendKey := [], change := none, missed := 0, assign := none, remove := false, out := none,
                inn := none, lastIn := none }

/-- A channel that is emptied: its bits of INT_STATUS are kept through LISTEN and HIBERNATE (02 R40). -/
def loseChannel (l : Life) (k : Channel) : Channel :=
  if keeps l .sleep then { Channel.reset with intDiscard := k.intDiscard, intUnderrun := k.intUnderrun } else Channel.reset

/-- Queues and FIFOs. -/
def loseQueues (l : Life) (s : State) : State :=
  { s with op := loseChannel l s.op, cu := loseChannel l s.cu, waiting := [], running := []
           events := { s.events with queue := [], lost := 0 }
           inst := { s.inst with queue := [] } }

/-- The tables that lie in MEM (05 R149, 07 R218, 08 R239, 09 R265, 16 R438, R447); the ceiling of `TX_POWER_STEPS` and its
trim lie in AON retention. -/
def loseMem (s : State) : State :=
  let c := ceilingOf s.tx.steps
  { s with
    mem := [], sessions := []
    rf := { s.rf with bins := [], permPending := none, alt := [], altPending := none, altNext := none
                      priv := List.replicate 8 PrivRec.reset }
    tx := { s.tx with steps := { s.tx.steps with trim := s.tx.steps.trim.filter (fun p => p.1 == c) }
                      stepsPending := none, stepsNext := none }
    audio := { s.audio with routes := [], routesPending := none }
    prot := { s.prot with patchCount := 0, patchBytes := 0, patches := [], pending := none } }

/-- AON retention lost: permission bits, the TX ceiling, the margin plan. -/
def loseAon (s : State) : State :=
  { s with rf := { s.rf with perm := [] }, tx := { s.tx with steps := Steps.reset }, age := Age.reset }

/-- The other settings of R422: windows, holds, sessions' running state, event modes, and the running state of every
function. -/
def loseOther (s : State) : State :=
  { s with
    events := { s.events with modes := [], limits := [] }
    rck := { s.rck with restarts := [], wdog := [], charges := [], gapped := [], stalled := [], fading := [], servedAt := [] }
    rf := { s.rf with a := Chain.reset, b := Chain.reset, imageCal := 0, fastUntil := 0, toneAt := none, scan := none, scanReturn := false
                      priv := s.rf.priv.map (fun r => { r with measuring := false }) }
    tx := { s.tx with paEn := false, paMute := false, enAt := none, muteAt := none, offDelay := false, qcal := false
                      staleSent := true }
    cl := Cl.reset
    sessions := smMap Session.reset (fun _ x => idleSession x) s.sessions
    ana := Analog.reset
    inst := { Inst.reset with queue := s.inst.queue }
    power := { s.power with entry := none, held := 0, coming := [], comingAt := [], idle := [] }
    prot := { s.prot with proposal := none }
    rattle := { armed := [], txLoop := false }
    inForce := [] }

/-- The clocks of the domains other than CKG: every synthesiser off. -/
def loseSynths (s : State) : State :=
  { s with clk := { s.clk with rx := Synth.reset, tx := Synth.reset, cmd := Synth.reset, calDeferred := false } }

/-- What a reset kind or a state keeps (15 R422). -/
def survive (l : Life) (s : State) : State :=
  match l with
  | .quiet => s
  | .scan => loseAdmissions s
  | l =>
    let s := loseSynths (loseOther (loseQueues l (loseAdmissions s)))
    let s := if keepsMem l then s else loseMem s
    let s := if keepsAon l then s else loseAon s
    { s with par := s.par.filter (fun p => keeps l (keptOf p.1)) }

/-! ### Domains that stop and start -/

/-- A lane returns to SEARCH: lane timeout, domain restart, RFA off (07 R198); a lane in HOP stays there until a frame is verified or
it falls back (07 R192). -/
def searchLane (l : Link) : Link :=
  if !l.isOpen || l.starting then l
  else { l with t0 := { Tracker.reset with phase := .search }, t1 := { Tracker.reset with phase := .search }
                losses := 0, lastOk := false, tie := none, due := [], silent := 0 }

/-- Every lane returns to SEARCH. -/
def searchLanes (s : State) : State := { s with links := smMap Link.reset (fun _ l => searchLane l) s.links }

/-- Converters, streams and control DACs when ANA stops (13 R368, R380, R384): a conversion ends without a result, the
outputs are high impedance. -/
def stopInst (s : State) : State :=
  let s := leaveStream 3 s
  { s with inst := { s.inst with
      refReady := false
      fa := { s.inst.fa with conv := none }
      fb := { s.inst.fb with conv := none }
      cdac := smMap Cdac.reset (fun _ c => { c with out := 0, acc := 0, phase := 0, pending := none }) s.inst.cdac } }

/-- ANA starts: each output drives code 0, and a kept target counts as written at that instant (13 R384); local analog
restarts from its settings (12 R361). -/
def startAna (s : State) : State :=
  let t := now s
  let s := each ((List.range 4).filter (fun p => parGet s (P.measPwmCfg p) = 1)) startPwm s
  restartAna { s with inst := { s.inst with
    refAt := t
    cdac := smMap Cdac.reset (fun _ c =>
      let c := { c with out := 0, acc := 0, phase := 0, idleSince := t }
      if c.target ≠ 0 then c.move t 1 else c) s.inst.cdac } }

/-- Rods when ABC is reset and when it runs again (10 R307): data memory, pointers and accumulators as at admission, no output; the
first run is that of a whole period. -/
def startAbc (s : State) : State :=
  { s with rods := smMap Rod.reset (fun _ r => if r.phase = .running then
      { clearRod r with last := [], out := [], resting := decide (now s % periodLen ≠ 0) } else r) s.rods }

/-- The effect of switching a domain off after its action (15 R408). A scan whose lanes stop ends as a stop ends it:
DESIGN CHOICE. -/
def stopDomain (d : Nat) (s : State) : State :=
  let s := setDom d false { s with rck := { s.rck with wdog := s.rck.wdog.filter (fun e => e != d) } }
  if d = Dom.rfa then
    let s := stopSynth 1 (stopSynth 2 (endScan { s with rf := { s.rf with scanReturn := false } }))
    searchLanes { s with rf := { s.rf with imageCal := 0, fastUntil := 0 } }
  else if d = Dom.chz then
    searchLanes (endScan { s with rf := { s.rf with scanReturn := false } })
  else if d = Dom.dmd then searchLanes s
  else if d = Dom.abc then { s with rods := smMap Rod.reset (fun _ r => { r with last := [], out := [] }) s.rods }
  else if d = Dom.txd then { s with tx := { s.tx with paEn := false, paMute := false, enAt := none, muteAt := none,
                                                      offDelay := false } }
  else if d = Dom.clr then stopSynth 3 { s with cl := { s.cl with txen := false, rxen := false, coexReq := false, coexPri := false } }
  else if d = Dom.ana then stopInst { s with ana := Analog.reset }
  else if d = Dom.ckg then
    refreshOuts { s with clk := { s.clk with pllLocked := false, bridging := true }
                         inst := { s.inst with refReady := false } }
  else if d = Dom.seq then { s with seq := { s.seq with running := false, waking := false } }
  else s

/-- The watchdog count of a domain begins afresh (03 R84). -/
def serveDomain (d : Nat) (s : State) : State := { s with rck := { s.rck with servedAt := smPut s.rck.servedAt d (now s) } }

/-- The effect of a domain that runs again from its shadow configuration. -/
def startDomain (d : Nat) (s : State) : State :=
  let s := serveDomain d s
  let s := { s with power := { s.power with
    on := s.power.on ||| BitVec.ofNat 12 (2 ^ d), coming := s.power.coming.filter (fun e => e != d)
    comingAt := smErase s.power.comingAt d, idle := smErase s.power.idle d } }
  if d = Dom.rfa then
    let s := if (openLinks s).isEmpty then s else relockWindow 1 s
    if (openCarriers s).isEmpty then s else relockWindow 2 s
  else if d = Dom.abc then startAbc s
  else if d = Dom.ana then startAna s
  else outsFor d s

/-- What a domain wakes for at once because it holds objects kept through a state (15 R415). -/
def keptDomains (s : State) : List Nat :=
  let l := !(openLinks s).isEmpty
  let c := !(openCarriers s).isEmpty
  (if l || c then [Dom.rfa] else []) ++ (if l then [Dom.chz, Dom.dmd] else []) ++ (if c then [Dom.txd] else []) ++
    (if s.rods.any (fun r => r.2.phase != .free && r.2.phase != .loaded) then [Dom.abc] else []) ++
    (if s.audio.ports.any (fun p => p.2.phase != .unconfigured) || s.audio.routes.any (fun r => r.2.inUse && r.2.active)
      then [Dom.aud] else [])

/-- Wake the domains that hold kept objects. -/
def wakeKept (s : State) : State :=
  each ((keptDomains s).filter (fun d => domAllowed s.power.state d)) (fun d s =>
    if domOn s d || s.power.coming.contains d then s
    else { s with power := { s.power with coming := s.power.coming ++ [d], comingAt := smPut s.power.comingAt d (now s) } }) s

end Sys2Proof.Machine
end

