-- ==== Sys2Proof/Machine/PowerCommands.lean ====
section
/-! DEFINITION. The power commands (15 R407 to R416, 02 R61). -/

namespace Sys2Proof.Machine

/-! ### Entering a state (15 R411 to R416) -/

/-- The order in which an entry asks the domains (15 R411). -/
def entryOrder : List Nat :=
  [Dom.abc, Dom.dmd, Dom.chz, Dom.txd, Dom.clr, Dom.rfa, Dom.aud, Dom.ana, Dom.mem, Dom.ckg, Dom.seq]

/-- The domains that an entry to a state asks: on, and not allowed by it. -/
def entryAsks (target : Nat) (s : State) : List Nat :=
  entryOrder.filter (fun d => domOn s d && !domAllowed target d)

/-- Why a domain refuses at once (15 R411, R425): 1 held, 3 restarting; 0 it does not. -/
def refusalOf (s : State) (d : Nat) : Nat :=
  if s.power.held.getLsbD d then 1 else if restarting s d then 3 else 0

/-- The first of the domains still to be asked that is on. A domain already off acknowledges at once. -/
def nextAsked (ds : List Nat) (s : State) : List Nat := ds.dropWhile (fun d => !domOn s d)

/-- A domain that is asked begins its action (15 R408): TXD, CLR, AUD and ANA stop what they drive. A port that is lost, that
reacquires or is muted carries nothing and stops at once: DESIGN CHOICE. -/
def askDomain (d : Nat) (s : State) : State :=
  let note (f : Entry → Entry) (s : State) : State := { s with power := { s.power with entry := s.power.entry.map f } }
  if d = Dom.txd then
    let cs := ((openCarriers s).filter (fun p => p.2.phase == .on || p.2.phase == .held)).map Prod.fst
    rampDown 0xFFFF 6 (failStarts (note (fun e => { e with carriers := cs }) s))
  else if d = Dom.clr then
    if s.cl.phase = .stopped ∧ !clStarting s then s
    else stopCl 5 (failClStart (note (fun e => { e with cl := s.cl.phase == .running || s.cl.phase == .held }) s))
  else if d = Dom.aud then
    let lame := (List.range 6).filter (fun i =>
      (port s i).phase == .lost || (port s i).phase == .reacquiring || (port s i).phase == .rateMuted)
    let ps := (List.range 6).filter (fun i => (port s i).phase == .running || lame.contains i)
    each lame (fun i s => queueEvent 0x6006 i 2 (onPort i (fun q => { q with phase := .stopped }) s))
      (stopPorts 2 0x3F (note (fun e => { e with ports := ps }) s))
  else if d = Dom.ana then
    each (List.range 9) (fun t s => if (ana s t).phase = 1 ∨ (ana s t).phase = 2 then anaSequence t false s else s) s
  else s

/-- Whether the action of a domain has ended, so that it can acknowledge; ABC at the next period boundary. -/
def entryDone (d : Nat) (s : State) : Bool :=
  if d = Dom.abc then s.power.entry.all (fun e => elapsed s ((e.askedAt / periodLen + 1) * periodLen))
  else if d = Dom.txd then !(openCarriers s).any (fun p => p.2.phase == .stopping) && !s.tx.offDelay
  else if d = Dom.aud then portsStopping 0x3F s == 0
  else if d = Dom.ana then (List.range 9).all (fun t => (ana s t).phase == 0 || (ana s t).phase == 4)
  else if d = Dom.seq then !s.tw.inTransfer
  else true

/-! ### Rollback (15 R412 to R414) -/

def onPower (f : Power → Power) (s : State) : State := { s with power := f s.power }

/-- The command link resumes at the first beacon boundary after CLR runs. -/
def resumeCl (s : State) : State :=
  if s.cl.phase = .stopped then
    let s := onCl (fun c => { c with phase := .held }) s
    if (synth s 3).phase = .off then startLock 3 s.cl.freq s else s
  else s

/-- The rollback of an entry: domains restart in the reverse of the order in which they acknowledged, and what the entry
stopped resumes. -/
def rollback (s : State) : State :=
  match s.power.entry with
  | none => s
  | some e =>
    let s := each e.stopped startDomain (onPower (fun p => { p with entry := none }) s)
    let s := if e.ask.head? = some Dom.ana then each (List.range 9) reviseAna s else s
    let s := each e.carriers resumeCarrier s
    let s := if e.cl then resumeCl s else s
    startDue (planResume (each e.ports resumePort s))

/-! ### The request (15 R411, R415, R416) -/

/-- The accounting of a refusal (15 R412). -/
def entryRefused (target d cause : Nat) (s : State) : State :=
  queueEvent 0x9001 d (target + 256 * cause)
    (each [(P.pwrLastRefuser, d), (P.pwrLastRefuser8, cause), (P.pwrLastRefuser16, target)] (fun x => parSet x.1 x.2)
      (bump P.pwrPowerRefusals s))

/-- The state changes among ACTIVE, QUIET and SCAN (15 R415, R416, R422, R426). -/
def enterState (target : Nat) (s : State) : State :=
  let was := s.power.state
  let s := { s with power := { s.power with state := target, entry := none
                                            coming := s.power.coming.filter (domAllowed target)
                                            comingAt := s.power.comingAt.filter (fun x => domAllowed target x.1) } }
  if target = was then s
  else wakeKept (queueEvent 0x9002 target was (if target = 2 then survive .scan s else s))

/-- Other tags in flight than the request's own (02 R61). -/
def othersInFlight (s : State) : Bool := decide (tagsInFlight s.op + tagsInFlight s.cu > 1)

/-- POWER_STATE_REQUEST. The value it keeps: 0 the entry completes; else 1 + domain + 16 times the cause of a refusal. -/
def progPowerStateRequest (target : Nat) : Prog :=
  { check := fun s => (firstFail [(decide (target > 4), .badParam), (decide (target > 2) && othersInFlight s, .badState)], s)
    guard := fun s => if target = 4 ∧ (policy s).testBit 9 then some [] else none
    begin := fun s =>
      match entryAsks target s with
      | [] => (none, 0, s)
      | d :: ds =>
        if refusalOf s d ≠ 0 then (none, 1 + d + 16 * refusalOf s d, s)
        else (some .powerEntry, 0, askDomain d { s with power := { s.power with
          entry := some { target := target, ask := d :: ds, askedAt := now s, stopped := [], abort := false, carriers := [], cl := false,
                          ports := [] } } })
    apply := fun a s =>
      if a = 0 then (.ok, [], enterState target s)
      else (.badState, [BitVec.ofNat 8 ((a - 1) % 16)], entryRefused target ((a - 1) % 16) ((a - 1) / 16) s)
    undo := fun _ s => rollback s }

/-- POWER_STATUS (02 R58). -/
def progPowerStatus : Prog :=
  .direct (fun _ => .ok) (fun s =>
    (leBytes 1 s.power.state ++ leBytes 2 s.power.on.toNat ++ leBytes 4 (parGet s P.pwrPowerRefusals) ++
      leBytes 1 (parGet s P.pwrLastRefuser), s))

def execPowerStatus (h : Hdr) (s : State) : Host.Outcome State Fault Refusal :=
  .next (submit progPowerStatus (.powerStatus h) s)

/-- A state entry or a wake is in progress (`POWER_STATE.MOVING`). -/
def moving (s : State) : Bool := s.power.entry.isSome || s.power.waking

/-- DOMAIN_HOLD (15 R410). -/
def progDomainHold (d hold : Nat) : Prog :=
  { check := fun s => (firstFail [
      (decide (d = 0 ∨ 11 < d ∨ 1 < hold), .badParam),
      (!domAllowed s.power.state d || moving s, .badState)], s)
    needs := fun _ => if hold = 1 then [d] else []
    apply := fun _ s =>
      let m := BitVec.ofNat 12 (2 ^ d)
      (.ok, [], { s with power := { s.power with held := if hold = 1 then s.power.held ||| m else s.power.held &&& ~~~ m
                                                 idle := smErase s.power.idle d } }) }

def execDomainHold (h : Hdr) (domain hold : Nat) (s : State) : Host.Outcome State Fault Refusal :=
  .next (submit (progDomainHold domain hold) (.domainHold h domain hold) s)

end Sys2Proof.Machine
end

