-- ==== Sys2Proof/Machine/System.lean ====
section
/-! DEFINITION. The System commands: NOP, GET_INFO, RESET, events, time and alarm (02 R58 to R63). -/

namespace Sys2Proof.Machine

/-- NOP (02 R58). -/
def progNop : Prog := .direct (fun _ => .ok) (fun s => ([], s))

def execNop (h : Hdr) (s : State) : Host.Outcome State Fault Refusal := .next (submit progNop (.nop h) s)

/-- The payload of GET_INFO (02 R58). -/
def infoBytes (s : State) : List Byte :=
  leBytes 4 0x641600F1 ++ leBytes 1 1 ++ leBytes 1 1 ++ leBytes 1 (Config.fwMinor s.prot.patches) ++ leBytes 2 (Config.fwBuild s.prot.patches) ++
    leBytes 1 s.prot.patchCount ++ leBytes 1 s.front.bootMode ++ leBytes 1 (b2n (labPart s))

/-- GET_INFO (02 R58, 00 R1). -/
def progGetInfo : Prog := .direct (fun _ => .ok) (fun s => (infoBytes s, s))

def execGetInfo (h : Hdr) (s : State) : Host.Outcome State Fault Refusal := .next (submit progGetInfo (.getInfo h) s)

/-- RESET (02 R59): kind 3 only; protected under extension 1 (16 R428). The SOFT reset follows the reply. -/
def progReset (h : Hdr) (kind : Nat) : Prog :=
  { check := fun s => (if kind = 3 then .ok else .badParam, s)
    guard := fun s => if (policy s).testBit 9 then some [] else none
    apply := fun _ s =>
      let c := chan s h.ch
      (.ok, [], { s with seq := { s.seq with softReset := some (h.ch, h.tag),
                                             softBytes := replyLevel c + (c.held.map (fun x => x.bytes.length)).sum + 7 } }) }

def execReset (h : Hdr) (kind : Nat) (s : State) : Host.Outcome State Fault Refusal :=
  .next (submit (progReset h kind) (.reset h kind) s)

/-- One event record (02 R62). -/
def recBytes (e : EvRec) : List Byte := leBytes 2 e.code ++ leBytes 2 e.arg ++ leBytes 4 e.detail ++ leBytes 8 e.time.toNat

/-- The EVENTS_LOST record that follows when space frees (02 R62). -/
def reportLost (s : State) : State :=
  if s.events.lost = 0 then s
  else queueEvent 0x0002 0 s.events.lost { s with events := { s.events with lost := 0 } }

/-- GET_EVENTS (02 R58, R62): the oldest records first, removed. -/
def progGetEvents (n : Nat) : Prog :=
  .direct (fun _ => if 1 ≤ n ∧ n ≤ 64 then .ok else .badParam) (fun s =>
    let out := s.events.queue.take n
    let rest := s.events.queue.drop n
    (leBytes 1 out.length ++ leBytes 1 (min rest.length 255) ++ out.flatMap recBytes,
      let s' := { s with events := { s.events with queue := rest } }
      if out.isEmpty then s' else reportLost s'))

def execGetEvents (h : Hdr) (maxRecs : Nat) (s : State) : Host.Outcome State Fault Refusal :=
  .next (submit (progGetEvents maxRecs) (.getEvents h maxRecs) s)

/-- The event blocks (02 R63). -/
def eventBlocks : List Nat := [0x00, 0x10, 0x20, 0x30, 0x40, 0x50, 0x60, 0x70, 0x80, 0x90, 0xA0, 0xB0, 0xF0]

/-- SET_EVENT_MASK (02 R63). -/
def progSetEventMask (block mode : Nat) : Prog :=
  .direct (fun _ => if eventBlocks.contains block ∧ mode ≤ 3 then .ok else .badParam) (fun s =>
    ([], { s with events := { s.events with modes := smSet 2 s.events.modes block mode } }))

def execSetEventMask (h : Hdr) (block mode : Nat) (s : State) : Host.Outcome State Fault Refusal :=
  .next (submit (progSetEventMask block mode) (.setEventMask h block mode) s)

/-- TIME_READ (04 R96, 02 R58). -/
def progTimeRead : Prog := .direct (fun _ => .ok) (fun s => (leBytes 8 (now s) ++ leBytes 8 (period s), s))

def execTimeRead (h : Hdr) (s : State) : Host.Outcome State Fault Refusal := .next (submit progTimeRead (.timeRead h) s)

/-- TIME_SET_ALARM (02 R60). -/
def progTimeSetAlarm (time action : Nat) : Prog :=
  .direct (fun s => firstFail [(decide (action > 1), .badParam), (decide (time ≠ 0 ∧ time ≤ now s), .badParam)])
    (fun s => ([], { s with alarm := if time = 0 then none else some ⟨time, action⟩ }))

def execTimeSetAlarm (h : Hdr) (time action : Nat) (s : State) : Host.Outcome State Fault Refusal :=
  .next (submit (progTimeSetAlarm time action) (.timeSetAlarm h time action) s)

/-- A reserved opcode (00 R11): BAD_OPCODE. -/
def progBadOpcode : Prog := { check := fun s => (.badOpcode, s) }

def execBadOpcode (h : Hdr) (op : Nat) (s : State) : Host.Outcome State Fault Refusal :=
  .next (submit progBadOpcode (.badOpcode h op) s)

/-- A packet whose length does not match the layout of its opcode (02 R58): BAD_PARAM. -/
def progBadLength : Prog := { check := fun s => (.badParam, s) }

end Sys2Proof.Machine
end

