-- ==== Sys2Proof/Machine/TableCommands.lean ====
section
/-! DEFINITION. The table commands: TABLE_READ, TABLE_WRITE, TABLE_COMMIT over the nine tables (02 R525). -/

namespace Sys2Proof.Machine

/-! ### The tables (02 R525) -/

/-- Entries and bytes per entry of a table. -/
def tableSize (t : Nat) : Option (Nat × Nat) :=
  match t with
  | 1 => some (4096, 4)
  | 2 => some (256, 128)
  | 3 => some (512, 8)
  | 4 => some (64, 4)
  | 5 => some (512, 4)
  | 6 => some (8, 16)
  | 7 => some (4, 32)
  | 8 => some (2048, 128)
  | 9 => some (64, 16)
  | _ => none

/-- The tables that the host may write and commit. -/
def tableWritable (t : Nat) : Bool := t == 1 || t == 3 || t == 4 || t == 5 || t == 7

/-- A count of 0, or a span past the last entry. -/
def spanBad (t first count : Nat) : Bool := count == 0 || decide (first + count > ((tableSize t).getD (0, 0)).1)

/-! ### Entries as TABLE_READ returns them -/

/-- A list of bytes cut or filled with zeros to a length. -/
def padTo (n : Nat) (b : List Byte) : List Byte := b.take n ++ List.replicate (n - b.length) 0

/-- A `SESSION` entry (09 R265); key bytes read zero. -/
def sessionEntry (s : State) (n : Nat) : List Byte :=
  let x := session s n
  leBytes 1 (sesPhaseNo x.phase) ++ leBytes 1 x.flags ++ leBytes 1 ((linkOfSession s n).getD 255) ++
    leBytes 1 ((carrierOfSession s n).getD 255) ++ leBytes 4 x.txId ++ leBytes 4 x.epoch ++
    leBytes 1 (b2n x.change.isSome + 2 * b2n (x.change.any KeyChange.confirmed)) ++ [0] ++ sBytes 2 x.level ++
    leBytes 8 x.heard ++ leBytes 1 x.battery ++ leBytes 1 x.status ++ sBytes 1 x.beaconLevel ++ [0] ++
    leBytes 2 x.missed ++ leBytes 1 x.msgLen ++ [0] ++ List.replicate 32 0 ++ padTo 64 x.msg

/-- A `ROUTE` entry (11 R332). -/
def routeEntryBytes (s : State) (n : Nat) : List Byte :=
  let r := route s n
  leBytes 2 r.src ++ leBytes 2 r.dst ++ sBytes 2 r.gain ++
    leBytes 1 (b2n r.inUse + 2 * b2n r.active + 4 * b2n r.fading + 8 * b2n (tapOf s n).isSome) ++ [0]

/-- The raw `TX_POWER_STEPS` entry of a step (08 R238). -/
def stepEntry (t : Steps) (k : Nat) : List Byte :=
  sBytes 2 (smGet 0 t.trim k) ++ leBytes 1 (b2n (t.ceilings.contains k)) ++ [0]

/-- A `PRIV_CAL` record (05 R140). -/
def privEntry (s : State) (i : Nat) : List Byte :=
  let r := s.rf.priv.getD i PrivRec.reset
  leBytes 1 (r.link.getD 255) ++ leBytes 1 (b2n r.valid + 2 * b2n r.stale) ++ sBytes 2 r.temp ++ leBytes 4 r.freq ++
    sBytes 2 r.aRe ++ sBytes 2 r.aIm ++ sBytes 2 r.bRe ++ sBytes 2 r.bIm

/-- Valid slots of a kind as a mask. -/
def validMask (s : State) (kind : Nat) : Nat := ([0, 1, 2, 3].map (fun i => b2n (slotValid s kind i) * 2 ^ i)).sum

/-- A `PROTECTED_CONFIG` entry as read (16 R442). -/
def protEntry (s : State) (i : Nat) : List Byte :=
  if i = 0 then padTo 32 (leBytes 4 (Nat.lor (policy s) 0x3F))
  else if i = 3 then
    padTo 32 (leBytes 1 (b2n (otpLocked s) + 2 * b2n (labPart s)) ++ leBytes 1 (validMask s 0 + 16 * validMask s 1) ++
      leBytes 1 (validMask s 2) ++ [0] ++ otpBytes s 0 4)
  else List.replicate 32 0

/-- A `MEAS_QUEUE` record (13 R378). -/
def measBytes (r : MeasRec) : List Byte :=
  leBytes 1 r.converter ++ leBytes 1 r.channel ++ leBytes 1 r.tag ++ leBytes 1 (b2n r.overrange) ++ sBytes 4 r.result ++
    leBytes 8 r.time

/-- One entry of a table in force. -/
def tableEntry (s : State) (t i : Nat) : List Byte :=
  match t with
  | 1 => leBytes 4 (planEntry s i)
  | 2 => sessionEntry s i
  | 3 => routeEntryBytes s i
  | 4 => stepEntry s.tx.steps i
  | 5 => leBytes 4 (smGet 0 s.rf.alt i)
  | 6 => privEntry s i
  | 7 => protEntry s i
  | 8 => (smGetList 0 s.mem (128 * i) 128).map (BitVec.ofNat 8)
  | _ => (s.inst.queue[i]?).elim [] measBytes

/-- TABLE_READ (02 R525, 13 R378): as many whole entries as fit; a read of `MEAS_QUEUE` from its oldest record removes
what it returns. -/
def progTableRead (t first count : Nat) : Prog :=
  .direct (fun _ => firstFail [((tableSize t).isNone, .badParam), (spanBad t first count, .badParam)])
    (fun s =>
      let n := min count (2048 / ((tableSize t).getD (0, 1)).2)
      ((List.range n).flatMap (fun i => tableEntry s t (first + i)),
        if t = 9 ∧ first = 0 then { s with inst := { s.inst with queue := s.inst.queue.drop n } } else s))

def execTableRead (h : Hdr) (table first count : Nat) (s : State) : Host.Outcome State Fault Refusal :=
  .next (submit (progTableRead table first count) (.tableRead h table first count) s)

/-! ### TABLE_WRITE: staging a pending copy -/

/-- `TX_POWER_STEPS` as the next boundary will have it. -/
def stepsNow (s : State) : Steps := s.tx.stepsNext.getD s.tx.steps

/-- The entries in force of `ROUTE` as fields the host writes. -/
def routeTable (s : State) : SMap RouteEntry :=
  smMap RouteEntry.reset (fun _ r => r) (s.audio.routes.map (fun p => (p.1, p.2.entry)))

/-- The pending `PROTECTED_CONFIG`: it starts as the entries in force, keys zero. -/
def protPending (s : State) : List Byte := s.prot.pending.getD ((List.range 4).flatMap (protEntry s))

/-- Stage entry `i` of a table from its bytes. -/
def stageEntry (t i : Nat) (b : List Byte) (s : State) : State :=
  match t with
  | 1 =>
    let m := s.rf.permPending.getD s.rf.perm
    let v := bits (fldAt b 0 4) 17 16
    { s with rf := { s.rf with permPending := some (if i < 4077 then smSet 0 m i v else m) } }
  | 3 =>
    let m := s.audio.routesPending.getD (routeTable s)
    let e : RouteEntry := ⟨fldAt b 0 2, fldAt b 2 2, sfldAt b 4 2, (fldAt b 6 1).testBit 0⟩
    onAudio (fun a => { a with routesPending := some (smSet RouteEntry.reset m i e) }) s
  | 4 =>
    let p := s.tx.stepsPending.getD (stepsNow s)
    let cs := p.ceilings.filter (fun k => k != i)
    let ceil := if (fldAt b 2 1).testBit 0 then cs.filter (fun k => decide (k < i)) ++ [i] ++ cs.filter (fun k => decide (i < k)) else cs
    { s with tx := { s.tx with stepsPending := some { trim := smSet 0 p.trim i (sfldAt b 0 2), ceilings := ceil } } }
  | 5 =>
    let m := s.rf.altPending.getD (altNow s)
    { s with rf := { s.rf with altPending := some (smSet 0 m i (fldAt b 0 4)) } }
  | 7 =>
    let p := protPending s
    { s with prot := { s.prot with pending := some (p.take (32 * i) ++ padTo 32 b ++ p.drop (32 * i + 32)) } }
  | _ => s

def progTableWrite (t first count : Nat) (data : List Byte) : Prog :=
  let w := ((tableSize t).getD (0, 1)).2
  { check := fun s => (firstFail [(!tableWritable t, .badParam), (spanBad t first count, .badParam),
      (data.length != w * count, .badParam)], s)
    apply := fun _ s =>
      (.ok, [], each (List.range count) (fun i => stageEntry t (first + i) ((data.drop (w * i)).take w)) s) }

def execTableWrite (h : Hdr) (table first count : Nat) (entries : List Byte) (s : State) : Host.Outcome State Fault Refusal :=
  .next (submit (progTableWrite table first count entries) (.tableWrite h table first count entries) s)

/-! ### TABLE_COMMIT -/

/-- A canonical image of `SPECTRUM_PLAN`: the permission bits only (16 R430). -/
def planImage (s : State) : List Byte :=
  let m := s.rf.permPending.getD s.rf.perm
  (List.range 4096).flatMap (fun b => [0, 0, BitVec.ofNat 8 (permOf m b), 0])

/-- The bins with UPLINK_OK, and with DOWNLINK_OK in [31:16] (05 R155). -/
def okBins (m : SMap Nat) : Nat :=
  (m.filter (fun p => p.2.testBit 0)).length + 65536 * (m.filter (fun p => p.2.testBit 1)).length

/-- `SPECTRUM_PLAN` (05 R151). -/
def planCommitCheck (s : State) : Status :=
  let m := s.rf.permPending.getD s.rf.perm
  if (planUsers s).all (fun u => permitted m u.1 u.2) then .ok else .planForbidden

/-- `TX_POWER_STEPS` (08 R238). -/
def stepsCommitCheck (p : Steps) : Status :=
  firstFail [((List.range 64).any (fun k => !decide (-100 ≤ smGet 0 p.trim k ∧ smGet 0 p.trim k ≤ 0)), .badParam),
    (p.ceilings.length != 1, .badParam)]

/-- Whether a commit of `TX_POWER_STEPS` touches the ceiling or a trim of its entry (08 R238). -/
def stepsProtected (old new : Steps) : Bool :=
  ceilingOf old != ceilingOf new || smGet 0 old.trim (ceilingOf old) != smGet 0 new.trim (ceilingOf old) ||
    smGet 0 old.trim (ceilingOf new) != smGet 0 new.trim (ceilingOf new)

/-! `PROTECTED_CONFIG` (16 R442 to R446). -/

/-- The policy of a pending copy, without its read-only item bits. -/
def pendPolicy (p : List Byte) : Nat := fldAt p 0 4 / 64 * 64

/-- The wrapped key of a role. -/
def pendKey (p : List Byte) (c : Chan) : List Byte := (p.drop (32 * roleNo c)).take 16

def pendLock (p : List Byte) : Bool := fldAt p 96 1 == 1

/-- Whether a pending copy changes a key. -/
def keyChanged (p : List Byte) (c : Chan) : Bool := (pendKey p c).any (fun b => b != 0)

def policyChanged (p : List Byte) (s : State) : Bool := pendPolicy p != policy s / 64 * 64

def lockAsked (p : List Byte) (s : State) : Bool := pendLock p && !otpLocked s

/-- The new key of a role, unwrapped under the key in force, or under the all-zero key (16 R443, R445). -/
def unwrapKey (p : List Byte) (c : Chan) (s : State) : List Byte :=
  aes128Inv ((keyOf s c).getD (List.replicate 16 0)) (pendKey p c)

/-- A key that may not be burnt. -/
def keyBad (p : List Byte) (c : Chan) (s : State) : Bool :=
  keyChanged p c && ((unwrapKey p c s).all (fun b => b == 0) || keyOf s c == some (unwrapKey p c s))

/-- Bits of a policy that are reserved: all but [5:0], [9:8], [17:16]. -/
def policyReserved (v : Nat) : Bool := (List.range 32).any (fun i => v.testBit i && !(decide (i < 6) || i == 8 || i == 9 || i == 16 || i == 17))

/-- The checks of a commit of `PROTECTED_CONFIG` (16 R440, R443, R444, R446, 19 R484). -/
def protCommitCheck (s : State) : Status :=
  let p := protPending s
  let burns := policyChanged p s || keyChanged p .operator || keyChanged p .custodian || lockAsked p s
  firstFail [
    (policyReserved (fldAt p 0 4) || bits (fldAt p 0 4) 17 16 == 0, .badParam),
    (keyBad p .operator s || keyBad p .custodian s, .badParam),
    (s.supply.brown, .badState),
    (lockAsked p s && ((keyOf s .operator).isNone || (keyOf s .custodian).isNone), .badState),
    (otpLocked s && burns, .badState),
    ((policyChanged p s && (slotToBurn s 2).isNone) || (keyChanged p .operator && (slotToBurn s 0).isNone) ||
      (keyChanged p .custodian && (slotToBurn s 1).isNone), .badState)]

/-- A provisioning commit, which is outside the protected set (16 R445). -/
def provisioning (h : Hdr) (s : State) : Bool :=
  let p := protPending s
  let other : Chan := match h.ch with | .operator => .custodian | .custodian => .operator
  !otpLocked s && (keyOf s h.ch).isNone && keyChanged p h.ch && !keyChanged p other && !policyChanged p s && !lockAsked p s

/-- Burn one slot with its check word; a burn that fails its verify read leaves free bytes. -/
def burnSlot (kind item : Nat) (b : List Byte) (x : Bool × State) : Bool × State :=
  if !x.1 then x
  else
    let (d, s) := draw x.2
    let i := (slotToBurn s kind).getD 0
    if Config.burnOk d then
      (true, queueEvent 0xB007 item i (otpBurn (0x1C0 + 2 * (4 * kind + i)) (leBytes 2 (crc16 b)) (otpBurn (slotAddr kind i) b s)))
    else (false, otpBurn (slotAddr kind i) ((List.range b.length).map (Config.randomByte d)) s)

/-- Burn the lock. -/
def burnLock (x : Bool × State) : Bool × State :=
  if !x.1 then x
  else
    let (d, s) := draw x.2
    if Config.burnOk d then (true, queueEvent 0xB007 4 0 (otpBurn 4 [otpAt s 4 ||| 2] s)) else (false, s)

/-- A commit of `PROTECTED_CONFIG` burns the policy, the keys, the lock, in that order (16 R444). -/
def burnAll (s : State) : Bool × State :=
  let p := protPending s
  let x := (true, s)
  let x := if policyChanged p s then burnSlot 2 1 (leBytes 4 (pendPolicy p)) x else x
  let x := if keyChanged p .operator then burnSlot 0 2 (unwrapKey p .operator s) x else x
  let x := if keyChanged p .custodian then burnSlot 1 3 (unwrapKey p .custodian s) x else x
  if lockAsked p s then burnLock x else x

/-- TABLE_COMMIT. -/
def progTableCommit (h : Hdr) (t : Nat) : Prog :=
  { check := fun s =>
      match t with
      | 1 => (planCommitCheck s, s)
      | 3 => routeCommitCheck s
      | 4 => (stepsCommitCheck (s.tx.stepsPending.getD (stepsNow s)), s)
      | 5 => (altCommitCheck (s.rf.altPending.getD (altNow s)) s, s)
      | 7 => (protCommitCheck s, s)
      | _ => (.badParam, s)
    needs := fun s => if t = 3 then (if s.audio.routesPending.any (fun m => commitBuses m s != []) then [Dom.aud, Dom.abc] else [Dom.aud]) else []
    guard := fun s =>
      match t with
      | 1 => some (planImage s)
      | 4 =>
        let p := s.tx.stepsPending.getD (stepsNow s)
        if stepsProtected (stepsNow s) p then some ((List.range 64).flatMap (stepEntry p)) else none
      | 7 => if provisioning h s then none else some (protPending s)
      | _ => none
    apply := fun _ s =>
      match t with
      | 1 =>
        (.ok, leBytes 8 (period s), queueEvent 0x2006 0 (okBins (s.rf.permPending.getD s.rf.perm))
          (bump P.rfrPlanCommits { s with rf := { s.rf with perm := s.rf.permPending.getD s.rf.perm, permPending := none } }))
      | 3 => (.ok, leBytes 8 (period s + 1), applyRouteCommit s)
      | 4 =>
        let p := s.tx.stepsPending.getD (stepsNow s)
        (.ok, leBytes 8 (period s + 1), { s with tx := { s.tx with stepsNext := some p, stepsPending := none } })
      | 5 =>
        let m := s.rf.altPending.getD (altNow s)
        (.ok, leBytes 8 (period s + 1), { s with rf := { s.rf with altNext := some m, altPending := none } })
      | _ =>
        let (ok, s') := burnAll s
        if ok then (.ok, leBytes 8 (period s), { s' with prot := { s'.prot with pending := none } }) else (.hwFault, [], s')
    drop := fun s => if t = 3 then dropFor commitKey (fun _ => true) s else s }

def execTableCommit (h : Hdr) (table : Nat) (s : State) : Host.Outcome State Fault Refusal :=
  .next (submit (progTableCommit h table) (.tableCommit h table) s)

end Sys2Proof.Machine
end

