-- ==== Sys2Proof/Machine/Packets.lean ====
section
/-! DEFINITION. Packets: what every host command does, in one place, so that a packet can be assembled byte by byte,
wait its turn, be held, stall or time out (02 R42 to R55). -/

namespace Sys2Proof.Machine

/-- A packet that the layout of its opcode does not read: BAD_OPCODE for a reserved opcode, else BAD_PARAM; a packet of
a patch sequence ends the sequence (02 R58, 16 R438). -/
def progUnread (h : Hdr) (op : Nat) : Prog :=
  if decodeCmd h op [] = some (.badOpcode h op) then progBadOpcode
  else if op = 0x09 ∨ op = 0x0A then { check := patchPacket h [] .badParam }
  else progBadLength

/-- What a host command does; an event row does nothing as a command. -/
def progOf : Instr → Prog
  | .nop _ => progNop
  | .getInfo _ => progGetInfo
  | .reset h k => progReset h k
  | .getEvents _ n => progGetEvents n
  | .setEventMask _ b m => progSetEventMask b m
  | .getCounters _ f n => progGetCounters f n
  | .timeRead _ => progTimeRead
  | .timeSetAlarm _ t a => progTimeSetAlarm t a
  | .fwPatchBegin h n d => progFwPatchBegin h n d
  | .fwPatchData h o d => progFwPatchData h o d
  | .fwPatchCommit h => progFwPatchCommit h
  | .paramGet _ p => progParamGet p
  | .paramSet _ p v => progParamSet p v
  | .paramSetMany _ l => progParamSetMany l
  | .tableRead _ t f c => progTableRead t f c
  | .tableWrite _ t f c e => progTableWrite t f c e
  | .tableCommit h t => progTableCommit h t
  | .rfTuneWindow _ p e => progRfTuneWindow p e
  | .rfCalibrate _ i => progRfCalibrate i
  | .rfScanStart _ a b c n => progRfScanStart a b c n
  | .rfScanStop _ => progRfScanStop
  | .rfSetGain _ a m g => progRfSetGain a m g
  | .rfGetSpectrum _ f n => progRfGetSpectrum f n
  | .rfCoordinate _ l c o => progRfCoordinate l c o
  | .linkOpen _ l f c m s a => progLinkOpen l f c m s a
  | .linkClose _ l => progLinkClose l
  | .linkRetune _ l f p => progLinkRetune l f p
  | .linkStatus _ l => progLinkStatus l
  | .linkSetAlt _ l fs => progLinkSetAlt l fs
  | .linkPrivilege _ l o => progLinkPrivilege l o
  | .carrierOpen _ c f k st s e => progCarrierOpen c f k st s e
  | .carrierClose _ c => progCarrierClose c
  | .carrierSetPower _ c st => progCarrierSetPower c st
  | .carrierRetune _ c f p => progCarrierRetune c f p
  | .txEnable _ m => progTxEnable m
  | .txDisable _ m => progTxDisable m
  | .clStart _ f p => progClStart f p
  | .clStop _ => progClStop
  | .sessionAdd _ s t f k => progSessionAdd s t f k
  | .sessionRemove _ s => progSessionRemove s
  | .sessionSend _ s d => progSessionSend s d
  | .sessionStatus _ s => progSessionStatus s
  | .clHop _ k i f p => progClHop k i f p
  | .portConfig _ p f r n ro sb im om d => progPortConfig p ⟨f, r, n, ro, sb, im, om, d⟩
  | .portStart _ m st p => progPortStart m st p
  | .portStop _ m => progPortStop m
  | .routeSet _ r a b g => progRouteSet r a b g
  | .routeClear _ r => progRouteClear r
  | .mixSetGain _ b c g => progMixSetGain b c g
  | .tapConfig _ r p o l => progTapConfig r p o l
  | .analogConfig _ t f v => progAnalogConfig t f v
  | .progLoad _ r f w => progProgLoad r f w
  | .progAdmit _ r c => progProgAdmit r c
  | .progRetire _ r => progProgRetire r
  | .coefWrite _ r b f w => progCoefWrite r b f w
  | .coefSwap _ r p => progCoefSwap r p
  | .measConfig _ c ch r o n t d => progMeasConfig c ch r o n t d
  | .measNow _ c ch => progMeasNow c ch
  | .measStreamStart _ m o l => progMeasStreamStart m o l
  | .measStreamStop _ m => progMeasStreamStop m
  | .cdacSet _ c v u => progCdacSet c v u
  | .cdacRange _ c r => progCdacRange c r
  | .powerStateRequest _ t => progPowerStateRequest t
  | .powerStatus _ => progPowerStatus
  | .domainHold _ d o => progDomainHold d o
  | .budgetQuery _ r i => progBudgetQuery r i
  | .marginReplan _ => progMarginReplan
  | .ageingReport _ => progAgeingReport
  | .cosignPropose h d => progCosignPropose h d
  | .cosignApprove h t => progCosignApprove h t
  | .cosignCancel h => progCosignCancel h
  | .cosignStatus _ => progCosignStatus
  | .nonceGet _ => progNonceGet
  | .rattleArm _ p t v => progRattleArm p t v
  | .rattleDisarm _ p => progRattleDisarm p
  | .testLoopback _ k i => progTestLoopback k i
  | .badOpcode h op => progUnread h op
  | .syncArmOneShot _ => progParamSet 0x1013 1
  | .syncArmMonitor _ => progParamSet 0x1013 2
  | .syncDisarm _ => progParamSet 0x1013 0
  | .txMsgSend _ c n => progParamSet (0x4047 + 0x40 * c) n
  | .poweredHoursWrite _ v => progParamSet 0xA022 v
  | _ => progNop

/-- The parameter bytes of a running command. -/
def paramsOf (c : Instr) : List Byte := (encodeCmd c).elim [] (fun x => x.2.2)

/-! ### The start queue (02 R49, R51) -/

/-- A packet with a correct CRC starts, or is refused by its tag. -/
def startArrived (a : Arrived) (s : State) : State :=
  match tagCheck a.hdr s with
  | some st => refuseTag a.hdr a.op st s
  | none => launch (a.cmd.elim (progUnread a.hdr a.op) progOf) (a.cmd.getD (.badOpcode a.hdr a.op)) a.hdr a.op a.params s

/-- Whether the packet at the front must still wait. -/
def frontWaits (a : Arrived) (s : State) : Bool :=
  (tagCheck a.hdr s).isNone && mustWait (a.cmd.getD (.badOpcode a.hdr a.op)) a.op s

/-- Start waiting packets in order while the front one may start. The tag of a packet that waits is checked when its turn to start
comes: DESIGN CHOICE. -/
def pumpN : Nat → State → State
  | 0, s => s
  | n + 1, s =>
    match s.waiting with
    | [] => s
    | a :: rest => if !s.seq.running || frontWaits a s then s else pumpN n (startArrived a { s with waiting := rest })

def pump (s : State) : State := pumpN s.waiting.length s

/-- A command ends now with a status other than OK. -/
def endCmd (st : Status) (pl : List Byte) (r : Running) (s : State) : State :=
  failCmd (progOf r.cmd) r st pl (stopRunning r s)

/-- Stalled commands that need a domain which the power state no longer allows end with BAD_STATE (02 R54). -/
def sweep (s : State) : State :=
  each (s.running.filter (fun r => match r.wait with
      | .domainWake _ => !((progOf r.cmd).needs s).all (domAllowed s.power.state)
      | _ => false))
    (endCmd .badState []) s

/-- After every event: stalled commands that cannot go on end, and waiting packets start. -/
def settle (s : State) : State := pump (sweep s)

/-- POWER_STATE_REQUEST (15 R411, 02 R61). -/
def execPowerStateRequest (h : Hdr) (state : Nat) (s : State) : Host.Outcome State Fault Refusal :=
  .next (settle (submit (progPowerStateRequest state) (.powerStateRequest h state) s))

/-! ### Bytes of a command FIFO (02 R42, R45 to R50) -/

/-- The header of a packet from its first four bytes. -/
def hdrOf (c : Chan) (b : List Byte) : Hdr :=
  let f := fldAt b 1 1
  { ch := c, tag := f % 16, roc := f.testBit 4, cosign := f.testBit 5 }

/-- A reply with BAD_CRC carries bytes 0 and 1 as received (02 R50). -/
def badCrcReply (b : List Byte) : List Byte :=
  let body := b.take 2 ++ [4, 0, 0]
  body ++ leBytes 2 (crc16 body)

/-- The last byte of a packet has arrived. -/
def packetIn (c : Chan) (b : List Byte) (s : State) : State :=
  let n := b.length - 2
  if crc16 (b.take n) ≠ fldAt b n 2 then
    bump P.sysBadCrcCount (onChan c (placeReply (badCrcReply b) none) s)
  else
    let h := hdrOf c b
    let op := fldAt b 0 1
    let params := (b.take n).drop 4
    pump { s with waiting := s.waiting ++ [⟨h, op, params, decodeCmd h op params, b.length⟩] }

/-- One byte pushed into a command FIFO while SEQ runs. -/
def pushByte (c : Chan) (b : Byte) (s : State) : State :=
  if (chan s c).discard then s
  else if cmdLevel s c ≥ 2048 then enterDiscard c 2 s
  else
    let a := (chan s c).asm ++ [b]
    if a.length = 4 ∧ fldAt a 2 2 > 1024 then enterDiscard c 3 s
    else if a.length ≥ 4 ∧ a.length = 6 + fldAt a 2 2 then packetIn c a (onChan c (fun k => { k with asm := [] }) s)
    else onChan c (fun k => { k with asm := a }) s

/-- No byte for 10 ms: the packet in assembly is discarded (02 R47). -/
def execPacketAssemblyTimeout (c : Chan) (s : State) : Host.Outcome State Fault Refusal :=
  .next (if (chan s c).asm.isEmpty then s
    else queueEvent 0x0003 (chanNo c) 1 (bump P.sysPktDiscarded (onChan c (fun k => { k with asm := [] }) s)))

/-- No byte for 10 ms: discard mode ends (02 R42). -/
def execDiscardModeEnd (c : Chan) (s : State) : Host.Outcome State Fault Refusal :=
  .next (onChan c (fun k => { k with discard := false }) s)

/-! ### Replies -/

/-- Held replies enter the FIFO in order while they fit; the tag of each leaves flight (02 R43, R49). -/
def admitHeld : Nat → Channel → Channel
  | 0, k => k
  | n + 1, k =>
    match k.held with
    | [] => k
    | x :: xs => if replyLevel k + x.bytes.length ≤ 4096 then
        admitHeld n (placeReply x.bytes x.frees { k with held := [] } |> fun k => { k with held := xs }) else k

def execHeldReplyEntersFifo (c : Chan) (s : State) : Host.Outcome State Fault Refusal :=
  .next (settle (onChan c (fun k => admitHeld k.held.length k) s))

/-! ### Timeouts and holds -/

def timeoutCounter (cls : Nat) : Nat := if cls = 1 then P.sysCmdTimeoutA else if cls = 2 then P.sysCmdTimeoutB else P.sysCmdTimeoutC

/-- A class timeout: the command is rolled back with TIMEOUT (02 R53, 03 R88). It pauses while the command stalls on a
wake (02 R54). -/
def execCmdTimeout (c : Chan) (tag : Nat) (s : State) : Host.Outcome State Fault Refusal :=
  .next (settle (match s.running.find? (fun r => r.hdr.ch == c && r.hdr.tag == tag) with
    | none => s
    | some r =>
      match r.wait with
      | .domainWake _ => s
      | _ => queueEvent 0x0006 (cmdArg r.hdr r.op) r.cls (bump (timeoutCounter r.cls) (endCmd .timeout [] r s))))

/-- The hold of REPLY_DELAY on a command ends (18 R469). -/
def execReplyDelayEnd (c : Chan) (tag : Nat) (s : State) : Host.Outcome State Fault Refusal :=
  .next (settle (match s.running.find? (fun r => r.hdr.ch == c && r.hdr.tag == tag) with
    | none => s
    | some r =>
      match r.wait with
      | .delayStart => runCmd (progOf r.cmd) r (paramsOf r.cmd) (stopRunning r s)
      | .replyDelay => complete (progOf r.cmd) r (stopRunning r s)
      | _ => s))

/-- Every command that waits for something goes on to its completion. -/
def doneWaiting (w : Wait) (s : State) : State :=
  each (waitingFor w s) (fun r s => workDone (progOf r.cmd) r s) s

/-- Every command that waits for something ends with a status. -/
def failWaiting (w : Wait) (st : Status) (s : State) : State := each (waitingFor w s) (endCmd st []) s

end Sys2Proof.Machine
end

