-- ==== Sys2Proof/Machine/Resets.lean ====
section
/-! DEFINITION. The reset kinds, reset release, boot and READY (15 R421, R422, 19 R479, R480, R490). -/

namespace Sys2Proof.Machine

/-! ### Entering a reset (15 R421, R422) -/

/-- The kinds by the number that RESET_CAUSE gives them. -/
def lifeOf (kind : Nat) : Life :=
  match kind with
  | 0 => .por
  | 1 => .bor
  | 2 => .pin
  | 3 => .soft
  | _ => .wdog

/-- Severity, the most severe first: POR, BOR, PIN, WDOG, SOFT (15 R421). -/
def severity (kind : Nat) : Nat := if kind = 3 then 4 else if kind = 4 then 3 else kind

/-- The more severe of two kinds. -/
def worseKind (a b : Nat) : Nat := if severity a ≤ severity b then a else b

/-- Whether a kind resets CKG: POR, BOR, PIN, and the WDOG reset of a crystal failure. -/
def resetsCkg (kind : Nat) : Bool := decide (kind ≤ 2)

/-- The front window through a reset (02 R40): KEEP fields stay through PIN, SOFT and WDOG. -/
def resetFront (kind : Nat) (f : Front) : Front :=
  if kind ≤ 1 then { Front.reset with bootMode := f.bootMode, addrPins := f.addrPins }
  else { Front.reset with bootMode := f.bootMode, addrPins := f.addrPins, intMask := f.intMask, alertMask := f.alertMask,
                          groupEn := f.groupEn, groupAddr := f.groupAddr, groupMask := f.groupMask, scratch := f.scratch }

/-- The clocks through a reset (15 R421, 04 R93, R96): AON keeps its low-frequency source but at POR and BOR. -/
def resetClocks (kind : Nat) (k : Clocks) : Clocks :=
  if kind ≤ 1 then { Clocks.reset with dieTemp := k.dieTemp }
  else if kind = 2 then { Clocks.reset with dieTemp := k.dieTemp, lfCrystal := k.lfCrystal, calRef := k.calRef }
  else k

/-- A reset begins. POR, BOR and PIN are held until RESET_RELEASE; SOFT and WDOG are released at once. -/
def enterReset (kind : Nat) (s : State) : State :=
  let kind := s.supply.resetHeld.elim kind (worseKind kind)
  let held := resetsCkg kind
  let s := survive (lifeOf kind) s
  let s := { s with
    timebase := if held then 0 else s.timebase
    front := { resetFront kind s.front with resetCause := if held then 0 else kind }
    seq := Seq.reset
    alarm := if held then none else s.alarm
    clk := resetClocks kind s.clk
    tw := Tw.reset
    age := { s.age with readings := [], offCounts := [], countAt := 0, plan := none, due := [] }
    power := { Power.reset with on := if held then 1 else 0x805 }
    supply := { s.supply with
      rfArmed := s.supply.rfArmed && decide (1 < kind)
      brown := s.supply.brown && decide (1 < kind), deferral := false
      resetHeld := if held then some kind else none, booting := true } }
  if kind = 4 then bump P.pwrWdogResets s else s

/-- `VDD_AON` rises through 1.55 V (19 R478, R479); `order` is the violations of the power-up order seen. -/
def execPor (order : Nat) (s : State) : Host.Outcome State Fault Refusal :=
  .next (let s := parSet P.sysSupplyOrder (order % 8) (enterReset 0 s)
    if order % 8 = 0 then s else queueWhenRunning 0x0022 0 (order % 8) s)

/-- A monitored rail falls below its reset threshold (19 R479, R481). -/
def execBor (rail : Nat) (s : State) : Host.Outcome State Fault Refusal :=
  .next (if rail = 0 ∨ 3 < rail ∨ (rail = 2 ∧ !s.supply.rfArmed) then s
    else if s.supply.resetHeld = some 0 then s
    else parSet P.sysLastBorRail rail (enterReset 1 s))

/-- `RESET_N` low for 1 us (19 R480). -/
def execPinReset (s : State) : Host.Outcome State Fault Refusal := .next (enterReset 2 s)

/-- The release conditions have held for 1 ms (19 R480, R489, R490): straps are latched, `RESET_CAUSE` is set. -/
def execResetRelease (boot addrPins : Nat) (s : State) : Host.Outcome State Fault Refusal :=
  .next (match s.supply.resetHeld with
    | none => s
    | some kind => if s.clk.xtalHeld then s else
      { s with front := { s.front with bootMode := boot % 4, addrPins := addrPins % 4, resetCause := kind }
               supply := { s.supply with resetHeld := none } })

/-- The SOFT reset of RESET takes place (02 R59). -/
def execSoftResetTrigger (s : State) : Host.Outcome State Fault Refusal :=
  .next (if s.seq.softReset.isSome then enterReset 3 s else s)

/-! ### Boot (19 R490, 17 R455) -/

/-- SEQ runs and `READY` rises: RESET_REPORT, then what waited for SEQ; after POR and BOR the settling plan starts. -/
def riseReady (s : State) : State :=
  let cause := s.front.resetCause
  let waited := s.seq.atRun
  let s := { s with
    seq := { s.seq with running := true, waking := false, restarting := false, atRun := [] }
    supply := { s.supply with booting := false }
    front := { s.front with readyRise := true }
    power := { s.power with on := s.power.on ||| 0x807 } }
  let s := queueEvent 0x9005 cause (if cause = 4 then s.supply.wdogCause else 0) s
  let s := each waited (fun e s => queueEvent e.1 e.2.1 e.2.2 s) s
  if cause ≤ 1 then planDue 5 s else s

/-- The readings of a boot plan, and after POR or BOR the estimate of the powered hours (17 R451 to R454). -/
def bootCount (tops : List TopRead) (s : State) : State :=
  let s := each tops takeReading { s with age := { s.age with readings := [] } }
  if parGet s P.rckPlanLimits2 = 1 ∧ s.front.resetCause ≤ 1 then
    let (w, t) := typical s
    parSet P.rckPoweredHours (estimateHours (t / gainNow s - baseline w)) s
  else s

/-- Boot ends (19 R490): ROM check, OTP read, boot plan; `READY` rises when the plan has no knob left to raise. -/
def execBootReady (romOk : Bool) (tops : List TopRead) (s : State) : Host.Outcome State Fault Refusal :=
  .next (if !s.supply.booting || s.supply.resetHeld.isSome || !s.clk.pllLocked || s.front.romFail || s.age.plan.isSome then s
    else
      let (d, s) := draw s
      let s := { s with front := { s.front with otpValid := Config.otpCheckOk d, romFail := !romOk } }
      if !romOk || decide (2 ≤ s.front.bootMode) then s
      else
        let s := startPlan 1 (bootCount tops s)
        match s.age.plan with
        | some p => if biasNow s = p.biasTo ∧ vselNow s = p.vselTo then settle (riseReady (endPlan p s)) else s
        | none => s)

end Sys2Proof.Machine
end

