-- ==== Sys2Proof/Machine/Injections.lean ====
section
/-! DEFINITION. What an armed perturbation does to the event it provokes (18 R469, R470). -/

namespace Sys2Proof.Machine

/-- The perturbation, when it acts. -/
def acting (s : State) (n : Nat) : Option Pert := (smFind s.rattle.armed n).filter (fun p => !p.starting)

/-- One injection of a counted run is used up. -/
def useInjection (n : Nat) (s : State) : State :=
  match smFind s.rattle.armed n with
  | some p => setArmed (smPut s.rattle.armed n { p with left := p.left - 1 }) s
  | none => s

/-- A first check that fails leaves no second one: the main PLL has one, and RF_TUNE_WINDOW abandons its search (04 R98,
05 R129, 08 R227). -/
def lastCheck (id : Nat) (s : State) : Bool := id == 0 || (waitingFor (.lock id) s).any (fun r => r.op == 0x20)

/-- What the lock detector of a synthesiser reports at a check: LOCK_FAIL fails the first check, or both. -/
def lockVerdict (id : Nat) (second confirmed : Bool) (s : State) : Bool × State :=
  match acting s 6 with
  | some p =>
    let mode := bits p.setting 1 0
    if p.target ≠ id ∨ p.left = 0 ∨ mode = 2 ∨ (mode = 0 ∧ second) then (confirmed, s)
    else
      let s := if second then s else injected 6 s
      (false, if mode = 0 || second || lastCheck id s then useInjection 6 s else s)
  | none => (confirmed, s)

/-- Whether a frame or packet received for a target passes its CRC: CRC_FAIL fails the frames of its burst. -/
def crcVerdict (target : Nat) (ok : Bool) (s : State) : Bool × State :=
  match acting s 7 with
  | some p => if p.target ≠ target ∨ p.left = 0 then (ok, s) else (false, injected 7 (useInjection 7 s))
  | none => (ok, s)

end Sys2Proof.Machine
end

