-- ==== Sys2Proof/Machine/ClEvents.lean ====
section
/-! DEFINITION. The instants of the command link: beacons, slots, replies, joins, key changes, cuts (09 R255 to R281). -/

namespace Sys2Proof.Machine

/-! ### Elements (09 R260 to R264) -/

/-- Session numbers in rising order after one. -/
def after (n : Nat) : List Nat := (List.range 256).map (fun i => (n + 1 + i) % 256)

/-- What a beacon carries besides its fixed fields: type, target session, the ten data bytes before encryption. -/
structure Element where
  kind : Nat
  target : Nat
  data : List Byte
  deriving DecidableEq, Repr

/-- A HOP announcement that is pending: its order, session, kind, target and boundary. -/
structure Announcement where
  ses : Nat
  kind : Nat
  hz : Nat
  n : Nat
  sent : Nat
  deriving DecidableEq, Repr

/-- The announcements pending at a beacon, links before carriers. -/
def announcements (s : State) : List Announcement :=
  let one (kind : Nat) (ses : Option Nat) (h : Option Hop) : Option Announcement :=
    match ses, h with
    | some x, some h => if h.announce && decide (s.cl.b < h.period) then some ⟨x, kind, h.target, h.period, h.sent⟩ else none
    | _, _ => none
  (openLinks s).filterMap (fun p => one 0 p.2.session p.2.hop) ++
    (openCarriers s).filterMap (fun p => one 1 p.2.session p.2.retune)

/-- The better of two announcements: fewest times sent, earliest boundary; the one found first otherwise. -/
def betterAnn (a b : Announcement) : Announcement :=
  if b.sent < a.sent || (b.sent == a.sent && decide (b.n < a.n)) then b else a

/-- Bytes of a message with its length before it, and how many fragments of nine they make. -/
def msgStream (m : OutMsg) : List Byte := leBytes 1 m.bytes.length ++ m.bytes
def msgFragments (m : OutMsg) : Nat := ceilDiv (msgStream m).length 9

/-- The fragment control byte. -/
def fragCtrl (m : OutMsg) : Nat :=
  128 * b2n (m.next == 0) + 64 * b2n (m.next + 1 == msgFragments m) + 8 * m.next + 4 * b2n m.toggle + 2

/-- The element that the rules of R261 choose for the beacon at `s.cl.b`. -/
def chooseElement (s : State) : Element :=
  match announcements s with
  | a :: l =>
    let a := l.foldl betterAnn a
    ⟨1, a.ses, leBytes 1 a.kind ++ beBytes 4 a.hz ++ beBytes 2 a.n ++ [0, 0, 0]⟩
  | [] =>
    match (List.range 256).find? (fun n => (session s n).phase == .removing && (session s n).remove) with
    | some n => ⟨5, n, List.replicate 10 0⟩
    | none =>
      match (after s.cl.servedOther).find? (fun n => (session s n).phase == .assigned && (session s n).assign.isSome) with
      | some n =>
        let x := session s n
        ⟨2, n, beBytes 4 x.txId ++ beBytes 4 (x.assign.getD 0) ++ leBytes 1 x.flags ++ [0]⟩
      | none =>
        match (after s.cl.servedOther).find? (fun n => (session s n).phase == .joined &&
            (session s n).change.any (fun k => !k.switched && decide (s.cl.b < k.n))) with
        | some n =>
          let x := session s n
          let k := x.change.getD ⟨0, false, false, 0, false⟩
          ⟨3, n, leBytes 1 (k.half + 2 * ((k.n - s.cl.b) / 20 % 128)) ++ (x.pendKey.drop (8 * k.half)).take 8 ++
            leBytes 1 (x.epoch + 1)⟩
        | none =>
          match (after s.cl.served).find? (fun n => (session s n).out.any (fun m => decide (m.next < msgFragments m))) with
          | some n =>
            let m := (session s n).out.getD ⟨[], false, 0⟩
            ⟨4, n, leBytes 1 (fragCtrl m) ++ padTo 9 ((msgStream m).drop (9 * m.next))⟩
          | none => ⟨0, 0, List.replicate 10 0⟩

/-- The counter block of a command-link packet (09 R264). -/
def clCounter (dir slot ses b epoch : Nat) : List Byte :=
  leBytes 1 dir ++ leBytes 1 slot ++ leBytes 2 ses ++ leBytes 6 b ++ leBytes 4 epoch ++ [0, 0]

/-- Bytes XORed with the key stream of one packet. -/
def clCrypt (key : List Byte) (dir slot ses b epoch : Nat) (bs : List Byte) : List Byte :=
  xorBytes bs (aes128 key (clCounter dir slot ses b epoch))

/-- The MIC of a packet (09 R263). -/
def clMic (key : List Byte) (b slot : Nat) (bs : List Byte) : List Byte :=
  (cmac key (beBytes 6 b ++ leBytes 1 slot ++ bs)).take 4

/-- An element as transmitted: encrypted where its type says so, with its MIC. -/
def elementBytes (s : State) (e : Element) : List Byte :=
  let x := session s e.target
  let enc (bs : List Byte) : List Byte := clCrypt x.key 3 0xFF e.target s.cl.b x.epoch bs
  let data :=
    if e.kind = 3 then e.data.take 1 ++ enc ((e.data.drop 1).take 8) ++ e.data.drop 9
    else if e.kind = 4 ∧ x.flags.testBit 1 then e.data.take 1 ++ enc (e.data.drop 1)
    else e.data
  let body := leBytes 1 e.kind ++ leBytes 1 e.target ++ data
  body ++ (if e.kind = 0 then [0, 0, 0, 0] else clMic x.key s.cl.b 0xFF body)

/-- The channel number of a frequency (09 R253). -/
def clChannel (hz : Nat) : Nat := (hz - 2401000000) / 1000000

/-- The 33 bytes of a beacon body (09 R259). -/
def beaconBody (s : State) : List Byte :=
  let hop := s.cl.hop
  [0x10#8] ++ beBytes 3 (parGet s P.clSystemId) ++ beBytes 6 s.cl.b ++ leBytes 1 (parGet s P.clJoinEnable) ++
    leBytes 1 (hop.elim 0 (fun h => clChannel h.target)) ++ leBytes 1 (hop.elim 0 (fun h => (h.period - s.cl.b) / 20)) ++
    beBytes 4 s.cl.prevAcks ++ elementBytes s (chooseElement s)

/-! ### Beacons (09 R255, R256, R281) -/

/-- A denial by COEX_GNT. -/
def coexDenied (s : State) : State := queueCounted 0x500C sec1 0x500C 0 (bump P.clCoexDenials s)

/-- A beacon is abandoned: its superframe's slots are not received. The requests of its slot go on to the slot's end. -/
def abandonBeacon (s : State) : State :=
  bump P.clBeaconsAbandoned (onCl (fun c => { c with
    listening := false, beaconing := false, abandonedLast := true, txen := false }) s)

/-- The packet of a body on channel k: preamble, sync word, then body and CRC-16 scrambled from the first body bit, most significant
bits first; the ramps carry no bit (09 R254). -/
def clAir (k : Nat) (body : List Byte) : List Bool :=
  natBits 8 0x55 ++ natBits 32 0x3A5F0C96 ++
    scramble (BitVec.ofNat 15 (0x4000 + k)) (bitsOf body ++ natBits 16 (crc16 body))

/-- What a reply of `n` body bytes carries after its sync word on channel k: the body, and whether its CRC passes. -/
def clAirBody (k n : Nat) (air : List Bool) : List Byte × Bool :=
  let b := scramble (BitVec.ofNat 15 (0x4000 + k)) air
  let body := bytesOfBits (b.take (8 * n))
  (body, b.length == 8 * n + 16 && crc16 body == bitsNat (b.drop (8 * n)))

/-- A beacon that COEX_PRI marks (09 R281). -/
def clPriority (s : State) : Bool :=
  let kind := (chooseElement s).kind
  kind == 1 || kind == 3 || s.cl.abandonedLast || parGet s P.clCoexCfg2 == 1

/-- The beacon is radiated. -/
def sendBeacon (s : State) : State :=
  let body := beaconBody s
  onCl (fun c => { c with beacon := body, air := clAir (clChannel s.cl.freq) body, beaconing := true, listening := true,
                          abandonedLast := false, txen := true }) s

/-- The command link may radiate. -/
def clAble (s : State) : Bool := domOn s Dom.clr && !restarting s Dom.clr && !s.supply.brown && !unclocked s

/-- A radio synthesiser is locked; on a synchronised device its divider and accumulator start at a timebase value that is a multiple
of 32 (04 R106, R116). -/
def synthLocked (id : Nat) (s : State) : State :=
  let start := (now s + 31) / 32 * 32
  onSynth id (fun y => { y with phase := .locked, acc := if s.clk.synced then some start else y.acc }) s

/-- The command synthesiser takes a channel within a beacon slot (04 R110, R106): whether the check passes; none while a full
calibration comes first, so that no check falls in the slot (04 R112). -/
def lockChannel (hz : Nat) (ok : Bool) (s : State) : Option Bool × State :=
  let s := startLock 3 hz s
  if (synth s 3).phase = .calibrating then (none, s)
  else
    let (pass, s) := lockVerdict 3 false ok s
    if pass then (some true, synthLocked 3 s)
    else (some false, onSynth 3 (fun y => { y with phase := .retrying }) s)

/-- The frequency that a CL_START waiting for its lock names. -/
def startFreq (s : State) : Option Nat :=
  (s.running.find? (fun r => r.wait == beaconLock)).bind (fun r => match r.cmd with | .clStart _ f _ => some f | _ => none)

/-- The CL_STARTs that wait for a lock of the command synthesiser as it stands. -/
def clLockWaits (id : Nat) (s : State) : List Running :=
  if id = 3 && startFreq s == some s.clk.cmd.freq then waitingFor beaconLock s else []

/-- A failed first check ends the CL_STARTs that waited for it (04 R106). -/
def failClLock (s : State) : State :=
  let n := (waitingFor beaconLock s).length
  queueEvent 0x1009 3 n (bump P.clkLockRetries (failWaiting beaconLock .synthNotLocked s))

/-- A command-link hop is done at its boundary: the channel changes, CL_HOP completes (09 R276). -/
def hopChannel (lockOk : Bool) (s : State) : State :=
  match s.cl.hop with
  | some h =>
    if h.period ≤ period s then
      let (ok, s) := lockChannel h.target lockOk s
      doneWaiting .clHop (if ok = some false then queueEvent 0x1009 3 0 (bump P.clkLockRetries s) else s)
    else s
  | none => s

/-- CL_HOP_DONE. -/
def execClHopDone (lockOk : Bool) (s : State) : Host.Outcome State Fault Refusal :=
  .next (settle (hopChannel lockOk s))

/-- The start of a superframe: `b` is taken, the acknowledgements of the last one become those to send, and the turn-round to
transmission begins. -/
def newSuperframe (s : State) : State :=
  let s := onCl (fun c => { c with b := period s, prevAcks := c.acks, acks := 0, listening := false }) s
  let coex := parGet s P.clCoexCfg == 1
  onCl (fun c => { c with rxen := false, turning := true, coexReq := coex, coexPri := coex && clPriority s }) s

/-- A running command link sends its beacon, or abandons it. -/
def beaconOrNot (grant : Bool) (s : State) : State :=
  let coex := parGet s P.clCoexCfg == 1
  if coex && !grant then abandonBeacon (coexDenied s)
  else if !locked s 3 || !clAble s then abandonBeacon s
  else sendBeacon s

/-- A start goes on at the next beacon boundary. -/
def startLater (s : State) : State := onCl (fun c => { c with b := nextBeacon (period s + 1) }) s

/-- A CL_START whose synthesiser is locked is accepted, completes, and its first beacon goes out. -/
def startBeacon (grant : Bool) (s : State) : State :=
  let s := each (waitingFor beaconLock s) (fun r => resumeWork (progOf r.cmd) r) s
  let s := doneWaiting .clStart s
  if s.cl.phase = .running then beaconOrNot grant (newSuperframe s) else s

/-- The beacon slot of a link that is starting: its synthesiser locks, CL_START is accepted and completes. While the synthesiser
settles or calibrates the start waits for its lock instant (04 R107), and the first beacon for the next boundary. -/
def startSlot (grant lockOk : Bool) (s : State) : State :=
  if period s < s.cl.b || !clAble s then s
  else
    let f := (startFreq s).getD s.clk.cmd.freq
    match s.clk.cmd.phase with
    | .calibrating | .searching | .retrying => startLater s
    | p =>
      if p = .locked ∧ s.clk.cmd.freq = f then startBeacon grant s
      else
        match lockChannel f lockOk s with
        | (some true, t) => startBeacon grant t
        | (some false, t) => let t := failClLock t; if t.cl.phase = .starting then startLater t else t
        | (none, t) => startLater t

/-- BEACON_SLOT: the start of a superframe. -/
def beaconSlot (grant lockOk : Bool) (s : State) : State :=
  if period s % 20 ≠ 0 then s
  else
    let s := beaconEnds s
    match s.cl.phase with
    | .starting => startSlot grant lockOk s
    | .running => beaconOrNot grant (newSuperframe (hopChannel lockOk s))
    | .held =>
      let s := newSuperframe (hopChannel lockOk s)
      if clAble s && locked s 3 then
        beaconOrNot grant (queueEvent 0x500A 0 (period s % 2 ^ 32) (onCl (fun c => { c with phase := .running }) s))
      else abandonBeacon s
    | _ => s

def execBeaconSlot (grant lockOk : Bool) (s : State) : Host.Outcome State Fault Refusal :=
  .next (settle (beaconSlot grant lockOk s))

/-- `COEX_REQ` and `COEX_PRI` as driven: they rise the lead of `CL.COEX_CFG` before the beacon slot (09 R255, R281). -/
def coexNow (s : State) : Bool × Bool :=
  let b := if s.cl.phase = .starting then s.cl.b else s.cl.b + 20
  let lead := decide (b * periodLen ≤ now s + usTicks (parGet s P.clCoexCfg8))
  if parGet s P.clCoexCfg ≠ 1 ∨ s.cl.phase = .stopped ∨ s.cl.phase = .muted then (false, false)
  else (s.cl.coexReq || lead, s.cl.coexPri || (lead && clPriority (onCl (fun c => { c with b := b }) s)))

/-- COEX_GRANT_WITHDRAWN: the beacon ramps down and counts as abandoned (09 R281). -/
def execCoexGrantWithdrawn (s : State) : Host.Outcome State Fault Refusal :=
  .next (if s.cl.beaconing && parGet s P.clCoexCfg == 1 then abandonBeacon (bump P.clCoexAborts s) else s)

/-! ### Replies (09 R262 to R266, R272 to R277) -/

/-- An intrusion: reported at most once in 100 ms (09 R277). -/
def clIntrusion (ses detail : Nat) (s : State) : State :=
  queueLimited 0x500B (sec1 / 10) 0x500B ses detail (bump P.clIntrusions s)

/-- The key and epoch that verify a reply which shows the low byte of an epoch: while a change is pending, the key of that
epoch; otherwise the key in force (09 R263). -/
def replyKey (x : Session) (shown : Nat) : Option (List Byte × Nat) :=
  match x.change with
  | none => some (x.key, x.epoch)
  | some k =>
    if x.epoch % 256 = shown then some (x.key, x.epoch)
    else
      let other := if k.switched then x.epoch - 1 else x.epoch + 1
      if other % 256 = shown then some (x.pendKey, other) else none

/-- The progress of a key change that a valid reply brings (09 R272). -/
def keyReply (n shown : Nat) (both : Bool) (s : State) : State :=
  match (session s n).change with
  | none => s
  | some k =>
    let e := (session s n).epoch
    if k.switched then
      if shown = e % 256 then
        queueEvent 0x5005 n e (bump P.clKeyChanges (onSession n (fun x => { x with change := none, pendKey := [] }) s))
      else onSession n (fun x => { x with change := some { k with returning := true } }) s
    else if both && decide (s.cl.b + 20 < k.n) then onSession n (fun x => { x with change := some { k with confirmed := true } }) s
    else s

/-- What a reply says of the device's message: fragments held under a toggle; all held ends SESSION_SEND (09 R273). -/
def sendReplyHeld (n held : Nat) (toggle : Bool) (s : State) : State :=
  match (session s n).out with
  | none => s
  | some m =>
    let k := if toggle = m.toggle then held else 0
    if msgFragments m ≤ k then doneWaiting (.sessionSend n) s
    else onSession n (fun x => { x with out := some { m with next := k } }) s

/-- A message from a beltpack is complete (09 R274). -/
def messageIn (n : Nat) (m : InMsg) (s : State) : State :=
  let s := onSession n (fun x => { x with inn := none, lastIn := some m.toggle }) s
  if m.length = 0 ∨ 64 < m.length ∨ m.bytes.length < m.length then s
  else queueEvent 0x5004 n m.length (bump P.clMsgsReceived
    (onSession n (fun x => { x with msgLen := m.length, msg := m.bytes.take m.length }) s))

/-- A fragment from a beltpack (09 R260, R274). -/
def fragmentIn (n ctrl : Nat) (data : List Byte) (s : State) : State :=
  if !ctrl.testBit 1 then s
  else
    let toggle := ctrl.testBit 2
    let i := bits ctrl 5 3
    let x := session s n
    if x.lastIn = some toggle ∧ x.inn.isNone then s
    else
      let asm := x.inn.filter (fun m => m.toggle == toggle)
      let next : Option InMsg :=
        match asm with
        | some m => if i = m.next then some { m with next := i + 1, bytes := m.bytes ++ data } else none
        | none => if i = 0 ∧ ctrl.testBit 7 then some ⟨toggle, 1, fldAt data 0 1, data.drop 1⟩ else none
      match next with
      | some m => if ctrl.testBit 6 then messageIn n m s else onSession n (fun x => { x with inn := some m }) s
      | none => onSession n (fun x => { x with inn := asm }) s

/-- The bit of a slot in the acknowledgement bitmap is set. -/
def ackSlot (slot : Nat) (s : State) : State :=
  bump P.clRepliesOk (onCl (fun c => { c with acks := Nat.lor c.acks (2 ^ slot) }) s)

/-- The transition that a valid POLL_REPLY makes (09 R266). -/
def pollTransition (n : Nat) (s : State) : State :=
  match (session s n).phase with
  | .assigned => queueEvent 0x5001 n 0 (onSession n (fun x => { x with phase := .joined, assign := none }) s)
  | .lost => queueEvent 0x5001 n 1 (onSession n (fun x => { x with phase := .joined }) s)
  | _ => s

/-- A POLL_REPLY of the slot's session whose MIC verifies, its bytes decrypted. -/
def pollValid (slot n : Nat) (level : Int) (b : List Byte) (s : State) : State :=
  let s := onSession n (fun x => { x with
    level := level, heard := s.cl.b, battery := fldAt b 7 1, beaconLevel := sfldAt b 8 1, status := fldAt b 9 1, missed := 0 })
    (ackSlot slot s)
  let f := fldAt b 6 1
  fragmentIn n (fldAt b 10 1) ((b.drop 11).take 11) (sendReplyHeld n (f % 16) (f.testBit 4)
    (keyReply n (fldAt b 5 1) (f.testBit 5) (pollTransition n s)))

/-- A POLL_REPLY whose CRC and system ID pass. -/
def pollReply (slot : Nat) (level : Int) (b : List Byte) (s : State) : State :=
  let n := slotSession s slot
  let x := session s n
  if fldAt b 1 1 ≠ n || joinSlot s slot then clIntrusion n (beNat ((b.drop 2).take 3) + 2 ^ 31) s
  else
    match (if x.phase = .free then none else replyKey x (fldAt b 5 1)) with
    | none => bump P.clMicFails s
    | some (key, epoch) =>
      if clMic key s.cl.b slot (b.take 22) ≠ (b.drop 22).take 4 then bump P.clMicFails s
      else
        let plain := if x.flags.testBit 1 then
            b.take 7 ++ clCrypt key 4 slot n s.cl.b epoch ((b.drop 7).take 15) ++ b.drop 22
          else b
        pollValid slot n level plain s

/-- A JOIN whose CRC and system ID pass, in a join slot (09 R262, R266). -/
def joinIn (slot : Nat) (b : List Byte) (s : State) : State :=
  if !joinSlot s slot || fldAt b 1 1 ≠ slotSession s slot then s
  else
    let tx := beNat ((b.drop 5).take 4)
    match sessionOfTx s tx with
    | none => queueEvent 0x5003 0 tx (bump P.clJoinUnknown s)
    | some n =>
      if clMic (session s n).key s.cl.b slot (b.take 22) ≠ (b.drop 22).take 4 then bump P.clMicFails s
      else
        let s := ackSlot slot s
        if (session s n).phase = .removing then s
        else
          let s := if (session s n).phase = .joined then failSends (some n) s else s
          bump P.clJoins (onSession n (fun x => { x with
            phase := .assigned, assign := some (beNat ((b.drop 9).take 4)), missed := 0 }) s)

/-- Detections during a packet that are at least `CL.CAPTURE` [4:0] × 0.5 dB above it (09 R277); levels in 0.25 dBm. -/
def captures (pkt : ClPacket) (s : State) : Nat :=
  (pkt.later.filter (fun l => decide (pkt.level + 2 * (parGet s P.clCapture : Int) ≤ l))).length

/-- A packet that the receiver has kept to its end (09 R277). -/
def clPacketRead (slot : Nat) (pkt : ClPacket) (s : State) : State :=
  let (body, good) := clAirBody (clChannel s.cl.freq) 26 pkt.air
  let (ok, s) := crcVerdict 0x80 good s
  if !ok then bump P.clCrcFails s
  else
    let sys := beNat ((body.drop 2).take 3)
    if sys ≠ parGet s P.clSystemId then clIntrusion (slotSession s slot) sys s
    else
      match fldAt body 0 1 % 16 with
      | 1 => pollReply slot pkt.level body s
      | 2 => joinIn slot body s
      | _ => s

/-- A packet received in a slot (09 R277): the first capture abandons it, unless capture lock refuses every one. -/
def clPacketIn (slot : Nat) (pkt : ClPacket) (s : State) : State :=
  let s := beaconEnds s
  if s.cl.phase ≠ .running || !s.cl.listening || decide (30 ≤ slot) then s
  else if captures pkt s = 0 then clPacketRead slot pkt s
  else if parGet s P.clCapture8 = 1 then clPacketRead slot pkt (bumpBy (captures pkt s) P.clCaptureRefused s)
  else bump P.clCaptureSwitches s

/-- POLL_REPLY. -/
def execPollReply (slot : Nat) (pkt : ClPacket) (s : State) : Host.Outcome State Fault Refusal :=
  .next (settle (clPacketIn slot pkt s))

/-- JOIN. -/
def execJoin (slot : Nat) (pkt : ClPacket) (s : State) : Host.Outcome State Fault Refusal :=
  .next (settle (clPacketIn slot pkt s))

/-- A preamble with no sync word within 16 us (09 R277). -/
def execClPreambleFalseStart (s : State) : Host.Outcome State Fault Refusal :=
  .next (if s.cl.phase = .running && s.cl.listening then bump P.clFalseStarts s else s)

/-- A missed poll of a session (09 R266). While joins are closed an ADDED session has its slot too (09 R258); a REMOVING session's
polls are not counted: DESIGN CHOICE. -/
def missedPoll (n : Nat) (s : State) : State :=
  let miss (s : State) : State := bump P.clPollsMissed (onSession n (fun x => { x with missed := min 65535 (x.missed + 1) }) s)
  let late (s : State) : Bool := decide (parGet s P.clSessionTimeout ≤ (session s n).missed)
  match (session s n).phase with
  | .assigned =>
    let s := miss s
    if late s then onSession n (fun x => { x with phase := .added, assign := none }) s else s
  | .joined =>
    let s := miss s
    if late s then queueEvent 0x5002 n (session s n).missed (failSends (some n) (onSession n (fun x => { x with phase := .lost }) s))
    else s
  | .lost => miss s
  | .added => miss s
  | _ => s

/-- The coexistence pins at the end of a slot: they stay high for a requested slot that follows. -/
def slotPins (slot : Nat) (s : State) : State :=
  let more := slotRequested s (slot + 1)
  onCl (fun c => { c with coexReq := more, coexPri := c.coexPri && more }) s

/-- REPLY_SLOT_END: a received slot without a valid reply is a missed poll (09 R266, R281). -/
def execReplySlotEnd (slot : Nat) (grant : Bool) (s : State) : Host.Outcome State Fault Refusal :=
  .next (if (s.cl.phase ≠ .running ∧ s.cl.phase ≠ .held) ∨ 30 ≤ slot then s
    else
      let s := beaconEnds s
      if s.cl.phase ≠ .running || !s.cl.listening then slotPins slot s
      else
        let denied := slotRequested s slot && !grant
        let s := if denied then coexDenied s
          else if s.cl.acks.testBit slot || joinSlot s slot then s
          else missedPoll (slotSession s slot) s
        settle (slotPins slot s))

/-! ### Sessions (09 R268, R272) -/

/-- SESSION_REMOVED, when its reason holds. -/
def execSessionRemoved (n reason : Nat) (s : State) : Host.Outcome State Fault Refusal :=
  let x := session s n
  let holds := match reason with
    | 1 => !x.remove
    | 2 => s.cl.phase != .running
    | 3 => decide (x.removeAt + sec1 ≤ now s)
    | _ => false
  .next (if x.phase = .removing && holds then queueEvent 0x500D n reason (onSession n (fun _ => Session.reset) s) else s)

/-- KEY_CHANGE_BOUNDARY: a confirmed change switches the session to the new epoch, an unconfirmed one moves on. -/
def execKeyChangeBoundary (n : Nat) (s : State) : Host.Outcome State Fault Refusal :=
  .next (match (session s n).change with
    | some k =>
      if k.switched || decide (period s < k.n) then s
      else if k.confirmed then
        onSession n (fun x => { x with
          epoch := (x.epoch + 1) % 2 ^ 32, key := x.pendKey, pendKey := x.key, change := some { k with switched := true } }) s
      else onSession n (fun x => { x with change := some { k with n := k.n + 20 * parGet s P.clKeyLead, half := 0 } }) s
    | none => s)

/-- At the boundary after a reply that showed the old epoch, the device returns to it and schedules the change again. -/
def keyReturn (n : Nat) (s : State) : State :=
  match (session s n).change with
  | some k =>
    if k.returning then
      let e := ((session s n).epoch + 2 ^ 32 - 1) % 2 ^ 32
      queueEvent 0x5006 n e (bump P.clKeyResyncs (onSession n (fun x => { x with
        epoch := e, key := x.pendKey, pendKey := x.key, change := some ⟨keyBoundary s, false, false, 0, false⟩ }) s))
    else s
  | none => s

/-- Every return that is due at a boundary. -/
def keyReturns (s : State) : State := each (s.sessions.map Prod.fst) keyReturn s

/-- An announcement that was never sent when its boundary arrives (09 R261). -/
def unannounced (kind n : Nat) (h : Hop) (s : State) : State :=
  if h.announce && h.sent == 0 then queueEvent 0x5007 (256 * kind + n) h.target (bump P.clHopUnannounced s) else s

/-! ### Cuts (09 R280) -/

/-- The radiation of the command link stops; a beacon in progress is abandoned. -/
def clSilence (s : State) : State :=
  let s := if s.cl.beaconing then abandonBeacon s else s
  onCl (fun c => { c with listening := false, txen := false }) s

/-- Brown hold begins: HELD, or with `SYS.TX_AUTO_RESUME` 0 MUTED; a CL_START in progress ends with BAD_STATE. -/
def clBrownCut (s : State) : State :=
  let auto := parGet s P.sysTxAutoResume == 1
  let s := if s.cl.phase = .starting then failClStart s else s
  if s.cl.phase = .running || (s.cl.phase = .held && !auto) then
    queueEvent 0x5009 0 2 (bump P.clBrownCuts (if auto then onCl (fun c => { c with phase := .held }) (clSilence s) else clQuiet .muted (clSilence s)))
  else s

/-- A lock fault (cause 3) or a CLR restart (cause 4): HELD. -/
def clFaultCut (cause : Nat) (s : State) : State :=
  if s.cl.phase = .running then
    queueEvent 0x5009 0 cause (bump P.clFaultCuts (onCl (fun c => { c with phase := .held }) (clSilence s)))
  else s

end Sys2Proof.Machine
end

