-- ==== Sys2Proof/Machine/TxEvents.lean ====
section
/-! DEFINITION. The instants of downlink transmission: start boundary, ramp ends, cuts and resumption (08 R236, R243 to
R248). -/

namespace Sys2Proof.Machine

/-! ### Ends of commands that wait on carriers -/

/-- TX_DISABLE and CARRIER_CLOSE go on when none of their carriers ramps down (08 R234, R245). -/
def doneRamps (s : State) : State :=
  each (s.running.filter (fun r => match r.wait with | .rampDown m => rampingOf m s == 0 | _ => false))
    (fun r s => workDone (progOf r.cmd) r s) s

/-- TX_ENABLE completes when none of its carriers is starting, nor HELD since a cut in its start sequence. -/
def doneStarts (s : State) : State :=
  each (s.running.filter (fun r => match r.wait, r.cmd with
      | .txStart, .txEnable _ m => (maskBits 16 m).all (fun c =>
          (carrier s c).phase != .starting && (carrier s c).phase != .held)
      | _, _ => false))
    (fun r s => workDone (progOf r.cmd) r s) s

/-! ### Ramp-down (08 R245, R246) -/

/-- The ramps that may end now: a stop finishes its frame and ramps over 8 symbols, a cut does not wait for the frame. -/
def rampsDue (s : State) : List Nat :=
  ((openCarriers s).filter (fun p => p.2.phase == .stopping &&
    (p.2.stopCause == 3 || s.supply.brown || decide ((p.2.m + 1) * periodLen + 2048 ≤ now s)))).map Prod.fst

/-- Ramps that a brown hold began have ended: one cut is counted (08 R248, R249). -/
def countBrown (ending : List Nat) (before s : State) : State :=
  if ending.any (fun c => (carrier before c).stopCause == 3) then bump P.txBrownCuts s else s

/-- TX_RAMP_DOWN_END: the last ramp ends and `PA_MUTE_N` falls. -/
def execTxRampDownEnd (s : State) : Host.Outcome State Fault Refusal :=
  let due := rampsDue s
  .next (settle (doneRamps (paRelease (countBrown due s (each due rampEnded s)))))

/-- `PA_EN` falls `TX.PA_OFF_DELAY` after the last ramp (08 R246). -/
def execPaOffDelayExpiry (s : State) : Host.Outcome State Fault Refusal :=
  .next (if s.tx.offDelay && decide (s.tx.offSince + usTicks (parGet s P.txPaOffDelay) ≤ now s) then { s with tx := { s.tx with paEn := false, enAt := none, offDelay := false } } else s)

/-! ### Start and resumption (08 R244, R248) -/

/-- The PA pins are high once carriers radiate. -/
def paUp (s : State) : State :=
  { s with tx := { s.tx with paEn := true, paMute := true, enAt := none, muteAt := none, offDelay := false } }

/-- TX_START_BOUNDARY: carriers whose boundary m has come are ON. -/
def execTxStartBoundary (s : State) : Host.Outcome State Fault Refusal :=
  let due := ((openCarriers s).filter (fun p => p.2.phase == .starting && decide (p.2.m ≤ period s))).map Prod.fst
  .next (if due = [] || !mayRadiate s then s
    else settle (doneStarts (each due (fun c s =>
      queueEvent 0x4001 c ((carrier s c).m % 2 ^ 32) (onCarrier c (fun q => { q with phase := .on }) s)) (paUp s))))

/-- TX_RESUMED: HELD carriers whose resumption boundary has come restart with ramp and preamble. -/
def execTxResumed (s : State) : Host.Outcome State Fault Refusal :=
  let due := ((openCarriers s).filter (fun p => p.2.phase == .held && p.2.m != 0 && decide (p.2.m ≤ period s))).map Prod.fst
  .next (if due = [] || !mayRadiate s then s
    else settle (doneStarts (each due (fun c s =>
      queueEvent 0x4003 c ((carrier s c).m % 2 ^ 32) (onCarrier c (fun q => { q with phase := .on }) s)) (paUp s))))

/-! ### Cuts (08 R248) -/

/-- Loss of lock of the TX LO or the main PLL (cause 4), or a TXD restart (cause 5): radiation stops at once, the carriers
are HELD, `PA_MUTE_N` falls and `PA_EN` stays. A carrier that is starting radiates nothing yet: it is HELD without TX_STOPPED and
without a count, and its TX_ENABLE completes at the resumption, with TX_RESUMED: DESIGN CHOICE. -/
def txFaultCut (cause : Nat) (s : State) : State :=
  let ending := ((openCarriers s).filter (fun p => p.2.phase == .stopping)).map Prod.fst
  let cut := ((openCarriers s).filter (fun p => p.2.phase == .on || p.2.phase == .starting)).map Prod.fst
  let held := ((openCarriers s).filter (fun p => p.2.phase == .held)).map Prod.fst
  let on := cut.filter (fun c => (carrier s c).phase == .on)
  let s := countBrown ending s (each ending (fun c s => rampEnded c (cutAir [] c s)) s)
  let s := each on (fun c s => queueEvent 0x4002 c cause s) s
  let s := each (cut ++ held) (fun c => cutAir [] c ∘ onCarrier c (fun q => { q with phase := .held, m := 0, stopCause := cause })) s
  let s := if on = [] then s else bump P.txFaultCuts s
  let s := if ending = [] && cut = [] then s
    else { s with tx := { s.tx with paEn := paEnNow s, enAt := none, paMute := false, muteAt := none } }
  doneRamps (if cut = [] && held = [] then paRelease s else s)

/-- Brown hold begins: carriers that radiate ramp down, and the cut is counted when they have; a start sequence ends; a HELD carrier
stays so, or is open, which is a cut of its own where none radiates (08 R243, R248). -/
def txBrownCut (s : State) : State :=
  let s := failStarts s
  let auto := parGet s P.sysTxAutoResume == 1
  let on := ((openCarriers s).filter (fun p => p.2.phase == .on)).map Prod.fst
  let held := ((openCarriers s).filter (fun p => p.2.phase == .held)).map Prod.fst
  let s := each on (fun c => cutAir airRamp c ∘ onCarrier c (fun q => { q with phase := .stopping, stopCause := 3, m := period s })) s
  let s := each held (fun c s => if auto then onCarrier c (fun q => { q with m := 0 }) s
    else queueEvent 0x4002 c 3 (onCarrier c (fun q => { q with phase := .opened, m := 0 }) s)) s
  paRelease (if on = [] && held ≠ [] && !auto then bump P.txBrownCuts s else s)

/-! ### Retunes (08 R236) -/

/-- CARRIER_RETUNED: the boundary after the one at which the carrier's NCO moved. -/
def execCarrierRetuned (c : Nat) (s : State) : Host.Outcome State Fault Refusal :=
  .next (match (carrier s c).retune with
    | some r =>
      if (carrier s c).retuning && decide (r.period < period s) then
        queueEvent 0x4005 c r.target (bump (P.txRetunes c)
          (each [P.txRetuneTarget c, P.txRetunePeriodLo c, P.txRetunePeriodHi c] (fun k => parSet k 0)
            (onCarrier c (fun q => { q with retune := none, retuning := false }) s)))
      else s
    | none => s)

/-- At boundary n a carrier moves its NCO; the frame of that period is not sent. -/
def carrierMove (c : Nat) (s : State) : State :=
  match (carrier s c).retune with
  | some r =>
    if decide (r.period ≤ period s) && !(carrier s c).retuning then
      parSet (P.txFreq c) r.target (onCarrier c (fun q => { q with freq := r.target, retuning := true }) s)
    else s
  | none => s

end Sys2Proof.Machine
end

