-- ==== Sys2Proof/Machine/Restarts.lean ====
section
/-! DEFINITION. Domain restarts, domain watchdogs, stage timeouts and deadline misses (03 R82 to R88, 04 R98). -/

namespace Sys2Proof.Machine

/-! ### Domain restart (03 R84) -/

/-- A domain whose outputs are concealed: it is off, restarts, its watchdog has expired, or nothing feeds it (03 R84, R87,
04 R95, R98). -/
def domDown (s : State) (d : Nat) : Bool := !domOn s d || restarting s d || s.rck.wdog.contains d || unclocked s

/-- The outputs of one of the domains fade in after a restart. -/
def fadesIn (s : State) (ds : List Nat) : Bool := ds.any (fun d => (smFind s.rck.fading d).isSome)

/-- A block of a fade whose shape is free. -/
def freeFade (d : Nat) (x : List Int) : List Int :=
  (List.range 24).map (fun i => clampI (-8388608) 8388607 (Config.fadeSample d i (x.getD i 0)))

/-- A block as it fades in, when one of the domains does. -/
def fadeIn (ds : List Nat) (x : List Int) (s : State) : List Int × State :=
  if fadesIn s ds then (freeFade s.free x, (draw s).2) else (x, s)

/-- Synthesisers that were in use mute and begin their band search again (04 R106, R108). -/
def researchSynth (id : Nat) (s : State) : State :=
  let y := synth s id
  if y.phase = .off ∨ y.phase = .calibrating then s else startLock id y.freq s

/-- A chain that adapts begins again from its gain after POR. -/
def resetChain (c : Chain) : Chain := if c.fixed then c else { c with gain := Chain.reset.gain, step := 0, quiet := 0 }

/-- The main PLL and every synthesiser lose lock: outputs are muted, transmitters are cut, time is to be bridged (04 R98). -/
def pllDown (s : State) : State :=
  let s := { s with clk := { s.clk with pllLocked := false, bridging := true } }
  clFaultCut 3 (txFaultCut 4 (each [1, 2, 3] researchSynth s))

/-- What the reset of a domain clears: data memories, filter states, tracking states. The outputs of the present period stand. -/
def restartEffect (d : Nat) (s : State) : State :=
  if d = Dom.rfa then
    let s := { s with rf := { s.rf with a := resetChain s.rf.a, b := resetChain s.rf.b } }
    searchLanes (txFaultCut 4 (each [1, 2] researchSynth s))
  else if d = Dom.chz ∨ d = Dom.dmd then searchLanes s
  else if d = Dom.abc then
    startAbc s
  else if d = Dom.txd then txFaultCut 5 s
  else if d = Dom.clr then researchSynth 3 (clFaultCut 4 s)
  else if d = Dom.aud then
    onAudio (fun a => { a with past := [], ports := smMap Port.reset (fun _ p => { p with fade := 0 }) a.ports }) s
  else if d = Dom.ana then
    { s with inst := { s.inst with
        refReady := false, fa := { s.inst.fa with conv := none }, fb := { s.inst.fb with conv := none }
        cdac := smMap Cdac.reset (fun _ c => { c with out := 0, acc := 0, phase := 0, pending := none }) s.inst.cdac } }
  else if d = Dom.ckg then refreshOuts (pllDown s)
  else s

/-- A restart begins: it is counted and reported, and the domain is reset. AON is never restarted, and SEQ by its own
watchdog only (02 R526). -/
def restartDomain (d cause : Nat) (s : State) : State :=
  if d < 2 || decide (11 < d) || !domOn s d || restarting s d then s
  else
    let s := queueEvent 0xA005 d cause (parSet P.rckLastRestartDomain d (bump P.rckDomainRestarts s))
    let s := { s with rck := { s.rck with restarts := s.rck.restarts ++ [d], wdog := s.rck.wdog.filter (fun e => e != d)
                                          gapped := if d = Dom.ckg then [] else s.rck.gapped } }
    restartEffect d s

/-- The domain runs again from its shadow configuration. -/
def restartEnds (d : Nat) (s : State) : State :=
  let s := { s with rck := { s.rck with
    restarts := s.rck.restarts.filter (fun e => e != d), fading := smPut s.rck.fading d 2 } }
  let s := serveDomain d s
  let s := if d = Dom.abc then startAbc s else if d = Dom.ana then startAna s else outsFor d s
  planResume s

/-- DOMAIN_RESTART: the restart of a domain completes; CKG's needs the main PLL locked. -/
def execDomainRestart (d : Nat) (s : State) : Host.Outcome State Fault Refusal :=
  .next (if !restarting s d || (d == Dom.ckg && !s.clk.pllLocked) then s else settle (restartEnds d s))

/-- The watchdog of a domain has counted 10 ms since its count began afresh (03 R87, R88). -/
def dogDue (s : State) (d : Nat) : Bool := (smFind s.rck.servedAt d).all (fun t => decide (t + sec1 / 100 ≤ now s))

/-- DOMAIN_WDOG: the domain's outputs are concealed, and it is restarted at the next boundary; paused while the domain
restarts (03 R87, R88). -/
def execDomainWdog (d : Nat) (s : State) : Host.Outcome State Fault Refusal :=
  .next (if d < 2 || decide (11 < d) || !domOn s d || restarting s d || s.rck.wdog.contains d || !dogDue s d then s
    else queueEvent 0xA012 d 0 (bump P.rckDomainWdog { s with rck := { s.rck with wdog := s.rck.wdog ++ [d] } }))

/-! ### Deadline misses (03 R82 to R86) -/

/-- The detail of DEADLINE_MISS (03 R91). -/
def missDetail (w : WorkRef) (rattle : Bool) : Nat := 2 ^ 24 * w.kind + 65536 * b2n rattle + w.index

/-- Whether an item is admitted and runs. -/
def admittedWork (s : State) (w : WorkRef) : Bool := s.rck.charges.any (fun c => c.work == w && c.old != noPrice)

/-- A miss of an item, counted once per period, and not while its domain or CKG restarts. `told` are the domains whose event of
this period is queued; the result adds this one. -/
def countMiss (x : Late) (told : List Nat) (s : State) : State × List Nat :=
  if s.rck.missed.contains x.work || !admittedWork s x.work || restarting s x.domain || restarting s Dom.ckg ||
      s.rck.wdog.contains x.domain then (s, told)
  else
    let s := { s with rck := { s.rck with missed := s.rck.missed ++ [x.work] } }
    if s.supply.brown then (bump P.rckBrownMisses s, told)
    else
      let s := bump P.rckDeadlineMiss s
      if told.contains x.domain then (s, told)
      else
        let s := queueEvent 0xA001 x.domain (missDetail x.work x.rattle) s
        (raiseAlert (fun f => { f with alertDeadline := true }) s, told ++ [x.domain])

/-- Every miss of a boundary, and the domains it offends. -/
def countMisses (late : List Late) (s : State) : State × List Nat :=
  late.foldl (fun (x : State × List Nat) l => countMiss l x.2 x.1) (s, [])

/-- The boundary at which the output of an item's work of the present period is due (01 R25, 03 R73): two periods later at
LC10 for a link's or a carrier's frame, the next boundary for other work. Rods and the modulator serve a frame in the last period
before it is due: DEDUCED. -/
def dueAfter (s : State) (d : Nat) (w : WorkRef) : Nat :=
  if d = Dom.abc ∨ d = Dom.txd then period s + 1
  else if w.kind = wkLink then period s + 2 + (link s w.index).cls
  else if w.kind = wkCarrier then period s + 2 + (carrier s w.index).cls
  else period s + 1

/-- Whether a STRETCH of at least 2 µs acts on the domain in the present period (18 R469): a stage timeout of the domain is
then the provoked one (03 R86, 18 R470). -/
def stretched (s : State) (d : Nat) : Bool :=
  match smFind s.rattle.armed 1 with
  | some p => !p.starting && decide (p.target = d) && decide (2000 ≤ bits p.setting 15 0) && decide (p.age % bits p.setting 31 16 = 0)
  | none => false

/-- STAGE_TIMEOUT: the stage is reset; an item whose output it replaces misses its deadline at the boundary at which that
output is due, which reports it late (03 R87, R88). -/
def execStageTimeout (d stage : Nat) (work : Option WorkRef) (s : State) : Host.Outcome State Fault Refusal :=
  .next (if decide (11 < d) || !domOn s d || restarting s d then s
    else
      let s := queueEvent 0xA010 d stage (bump P.rckStageTimeouts s)
      match work with
      | some w => { s with rck := { s.rck with stalled := s.rck.stalled ++ [(dueAfter s d w, ⟨d, w, stretched s d⟩)] } }
      | none => s)

/-- One miss for each admitted item whose output falls due in a gap of the main PLL, of the domain CKG (04 R98): at the
boundaries that the bridge of the timebase has passed, and at those before CKG runs again. -/
def gapMisses (s : State) : State :=
  let items := ((s.rck.charges.filter (fun c => c.old != noPrice && decide (c.work.kind ≤ 8))).map Charge.work).filter
    (fun w => !s.rck.gapped.contains w)
  let s := { s with rck := { s.rck with gapped := s.rck.gapped ++ items } }
  if s.supply.brown then bumpBy items.length P.rckBrownMisses s
  else match items with
    | [] => s
    | w :: _ =>
      let s := queueEvent 0xA001 Dom.ckg (missDetail w false) (bumpBy items.length P.rckDeadlineMiss s)
      raiseAlert (fun f => { f with alertDeadline := true }) s

end Sys2Proof.Machine
end

