-- ==== Sys2Proof/Machine/ClockEvents.lean ====
section
/-! DEFINITION. Crystals, main PLL, reference, synthesisers, calibration and cascade synchronisation (04 R92 to R118). -/

namespace Sys2Proof.Machine

/-! ### Crystals (04 R92 to R94) -/

/-- XTAL_QUALIFIED: the oscillator runs outside a reset, in the reset of its own failure, and not in HIBERNATE. -/
def execXtalQualified (s : State) : Host.Outcome State Fault Refusal :=
  .next (if (s.supply.resetHeld.isSome && !s.clk.xtalHeld) || (s.power.state == 4 && !s.power.waking) then s
    else refreshOuts (onClk (fun k => { k with xtalQual := true, xtalMeant := true }) s))

/-- XTAL_FAIL: every domain but AON is in a WDOG reset, CKG included; the timebase is frozen and not reset. A crystal that fails
again in the hold that follows is counted, and has to qualify again. -/
def execXtalFail (s : State) : Host.Outcome State Fault Refusal :=
  .next (if !s.clk.xtalMeant then s
    else if s.clk.xtalHeld then
      (if s.clk.xtalQual then onClk (fun k => { k with xtalQual := false }) (bump P.clkXtalFails s) else s)
    else if s.supply.resetHeld.isSome then s
    else
      let tb := s.timebase
      let s := enterReset 4 (bump P.clkXtalFails s)
      { s with
        timebase := tb
        clk := { Clocks.reset with xtalMeant := true, xtalHeld := true, bridging := true, lfCrystal := s.clk.lfCrystal,
                                   dieTemp := s.clk.dieTemp, calRef := s.clk.calRef }
        power := { s.power with on := 1 }
        supply := { s.supply with resetHeld := some 4, wdogCause := 1 } })

/-- XTAL_FAIL_RELEASE: the crystal has qualified again for 10 ms; `lf` cycles were counted while the reset was held. -/
def execXtalFailRelease (lf boot addrPins : Nat) (s : State) : Host.Outcome State Fault Refusal :=
  .next (if !s.clk.xtalHeld || !s.clk.xtalQual then s
    else
      queueWhenRunning 0x1008 0 lf { s with
        clk := { s.clk with xtalHeld := false }
        front := { s.front with bootMode := boot % 4, addrPins := addrPins % 4, resetCause := 4 }
        power := { s.power with on := 0x805 }
        supply := { s.supply with resetHeld := none } })

/-- LF_CRYSTAL_TAKEOVER (04 R93). -/
def execLfCrystalTakeover (s : State) : Host.Outcome State Fault Refusal :=
  .next (onClk (fun k => { k with lfCrystal := true }) s)

/-- LF_SOURCE_CHANGE: AON returns to the RC oscillator (04 R93). -/
def execLfSourceChange (s : State) : Host.Outcome State Fault Refusal :=
  .next (if s.clk.lfCrystal then queueWhenRunning 0x100A 1 0 (onClk (fun k => { k with lfCrystal := false }) s) else s)

/-! ### Main PLL (04 R95 to R98) -/

/-- The timebase goes on, advanced by the low-frequency cycles counted (04 R97). -/
def bridge (lf : Nat) (s : State) : State :=
  if s.clk.bridging then
    onClk (fun k => { k with bridging := false }) { s with timebase := s.timebase + BitVec.ofNat 64 (3750 * lf) }
  else s

/-- MAIN_PLL_LOCK_CHECK: lock is declared, or the sequence begins again. -/
def execMainPllLockCheck (confirmed : Bool) (lf : Nat) (s : State) : Host.Outcome State Fault Refusal :=
  .next (if !s.clk.xtalQual || s.clk.pllLocked || s.supply.resetHeld.isSome || (decide (2 < s.power.state) && !s.power.waking) then s
    else
      let (ok, s) := lockVerdict 0 false confirmed s
      if !ok then s
      else
        let before := period s
        let s := refreshOuts (bridge lf (onClk (fun k => { k with pllLocked := true }) s))
        if restarting s Dom.ckg && decide (before < period s) then gapMisses s else s)

/-- A lock fault is counted, and reported at most once per synthesiser in any 10 ms (04 R108). -/
def lockFault (id band : Nat) (loss : Bool) (s : State) : State :=
  queueLimited (0x1001 * 65536 + id) (sec1 / 100) 0x1001 id (band % 64 + (if loss then 2 ^ 31 else 0)) (bump P.clkLockFaults s)

/-- The main PLL loses lock in service (04 R98). -/
def pllLost (s : State) : State :=
  if !s.clk.pllLocked then s else refreshOuts (lockFault 0 0 true (restartDomain Dom.ckg 3 (pllDown s)))

def execMainPllLockLost (s : State) : Host.Outcome State Fault Refusal := .next (settle (pllLost s))

/-! ### Reference (04 R99 to R103) -/

/-- REF_QUALIFIED: the reference is tracked from the correction in force. -/
def execRefQualified (s : State) : Host.Outcome State Fault Refusal :=
  .next (if refMode s = 0 ∨ s.clk.refState = 2 ∨ s.clk.refState = 3 then s else onClk (fun k => { k with refState := 2 }) s)

/-- REF_LOCKED: the correction in force, which has moved since the last boundary by a period's slew at most. -/
def execRefLocked (correction : Int) (s : State) : Host.Outcome State Fault Refusal :=
  .next (if s.clk.refState ≠ 2 then s
    else
      let s := onClk (fun k => { k with refState := 3, refCorr := slewTo 5 (2 * correction) k.refCorr }) s
      queueEvent 0x1003 (refMode s) (uint 32 (refOffset s)) s)

/-- REF_LOST: the correction is frozen at its average over the preceding second, which at the slew limit lies within 2.5 ppm of
the correction in force (04 R100, R102). -/
def execRefLost (cause : Nat) (average : Int) (s : State) : Host.Outcome State Fault Refusal :=
  .next (if s.clk.refState ≠ 2 ∧ s.clk.refState ≠ 3 then s
    else queueEvent 0x1002 (refMode s) cause (bump P.clkRefLosses
      (onClk (fun k => { k with refState := 4, refCorr := slewTo 5000 (2 * average) k.refCorr }) s)))

/-- HOLDOVER_END: the correction slews to zero (04 R103). -/
def execHoldoverEnd (s : State) : Host.Outcome State Fault Refusal :=
  .next (if s.clk.refState ≠ 4 then s
    else queueEvent 0x1004 (refMode s) (uint 32 (refOffset s)) (bump P.clkHoldoverEnds (onClk (fun k => { k with refState := 5 }) s)))

/-- RETURN_TO_CRYSTAL_DONE: the correction has reached zero. -/
def execReturnToCrystalDone (s : State) : Host.Outcome State Fault Refusal :=
  .next (if s.clk.refState = 5 ∧ s.clk.refCorr = 0 then onClk (fun k => { k with refState := 0 }) s else s)

/-! ### RF_CALIBRATE's work (04 R112, 05 R139, 08 R229) -/

/-- A part of RF_CALIBRATE's work ends: bit 0 synthesisers, bit 1 image, bit 2 quadrature. -/
def calPart (b : Nat) (s : State) : State :=
  each (waitingFor .calibrate s) (fun r s =>
    let left := r.aux - Nat.land r.aux (2 ^ b)
    if left = 0 then workDone (progOf r.cmd) { r with aux := left } s else putRunning { r with aux := left } s) s

/-- A part of RF_CALIBRATE's work is still to be done. -/
def calWants (b : Nat) (s : State) : Bool := (waitingFor .calibrate s).any (fun r => r.aux.testBit b)

/-- The image work ends with fast mode over and every record measured. -/
def imagePart (s : State) : State :=
  if calWants 1 s && !s.clk.rx.inCal && s.rf.imageCal != 1 && !s.rf.priv.any (fun r => r.measuring) then calPart 1 s else s

/-- A synthesiser has ended its part: image or quadrature work begins, and with the last one the part ends. -/
def synthPart (id : Nat) (s : State) : State :=
  let s := onSynth id (fun y => { y with inCal := false }) s
  let s := if id = 1 && calWants 1 s then startImageWork s else s
  let s := if id = 2 && calWants 2 s then startQcal s else s
  if calWants 0 s && !(s.clk.rx.inCal || s.clk.tx.inCal || s.clk.cmd.inCal) then calPart 0 s else s

/-- FULL_SYNTH_CALIBRATION_DONE: the band search and relock follow; a synthesiser without a frequency, or in a domain that is
off, has no lock to return to. -/
def execFullSynthCalibrationDone (id : Nat) (s : State) : Host.Outcome State Fault Refusal :=
  .next (let y := synth s id
    if id = 0 ∨ 3 < id ∨ y.phase ≠ .calibrating then s
    else
      let s := onSynth id (fun y => { y with calDue := false, phase := .off }) s
      if y.freq ≠ 0 ∧ domOn s (synthDomain id) then startLock id y.freq s
      else
        let s := if (waitingFor (.lock id) s).isEmpty then s else relockWindow id s
        settle (if y.inCal then synthPart id s else s))

/-- TX_QUADRATURE_CALIBRATION_DONE (08 R227, R229). -/
def execTxQuadratureCalibrationDone (s : State) : Host.Outcome State Fault Refusal :=
  .next (if !s.tx.qcal then s
    else settle (calPart 2 (doneWaiting .qcal { s with tx := { s.tx with qcal := false } })))

/-! ### Synthesisers (04 R106 to R108) -/

/-- A synthesiser that could lock now. -/
def synthAble (id : Nat) (s : State) : Bool :=
  decide (1 ≤ id ∧ id ≤ 3) && s.clk.pllLocked && domOn s (synthDomain id) && !restarting s (synthDomain id)

/-- Lock is declared: every waiting request goes on (04 R107); background image calibration runs (05 R133). -/
def lockDeclared (id band : Nat) (s : State) : State :=
  let was := (synth s id).inCal
  let s := synthLocked id (onSynth id (fun y => { y with band := band % 64 }) s)
  let s := each (waitingFor (.lock id) s ++ clLockWaits id s) (fun r => resumeWork (progOf r.cmd) r) s
  let s := if was then synthPart id s else s
  let s := if id = 1 then { s with rf := { s.rf with scan := s.rf.scan.map (fun c => { c with began := now s }) } } else s
  let s := if id = 1 && s.rf.imageCal == 0 && rxEdge s != 0 then { s with rf := { s.rf with imageCal := 2 } } else s
  if id = 2 then planResume s else s

/-- The first check fails: the requests end, and the output stays muted (04 R106). -/
def firstCheckFails (id band : Nat) (s : State) : State :=
  let w := waitingFor (.lock id) s ++ clLockWaits id s
  let s := onSynth id (fun y => { y with phase := .retrying, band := band % 64 }) s
  queueEvent 0x1009 id w.length (bump P.clkLockRetries (each w (endCmd .synthNotLocked []) s))

/-- The second check fails: LOCK_FAULT, the requests end, the band search begins again; RF_CALIBRATE ends with HW_FAULT. -/
def secondCheckFails (id band : Nat) (s : State) : State :=
  let y := synth s id
  let w := waitingFor (.lock id) s ++ clLockWaits id s
  let s := lockFault id band false (startLock id y.freq (onSynth id (fun y => { y with band := band % 64 }) s))
  let s := each w (endCmd .synthNotLocked []) s
  if y.inCal then failWaiting .calibrate .hwFault s else s

/-- SYNTH_LOCK_CHECK: a fixed instant of R106. -/
def execSynthLockCheck (id : Nat) (confirmed : Bool) (band : Nat) (s : State) : Host.Outcome State Fault Refusal :=
  .next (if !synthAble id s then s
    else
      let second := (synth s id).phase == .retrying
      if (synth s id).phase ≠ .searching ∧ !second then s
      else
        let (ok, s) := lockVerdict id second confirmed s
        settle (if ok then lockDeclared id band s else if second then secondCheckFails id band s else firstCheckFails id band s))

/-- Lock is lost after it was declared: muted, counted, relocked; the transmitters are cut (04 R108). -/
def synthLost (id band : Nat) (s : State) : State :=
  if !locked s id || id == 0 || decide (3 < id) then s
  else
    let s := lockFault id band true (researchSynth id s)
    if id = 2 then txFaultCut 4 s else if id = 3 then clFaultCut 3 s else s

def execSynthLockLost (id band : Nat) (s : State) : Host.Outcome State Fault Refusal := .next (settle (synthLost id band s))

/-! ### Temperature (04 R111, R112, 05 R138, 08 R229) -/

/-- Eight degrees Celsius in units of 0.1. -/
def temp8 : Int := 80

/-- A temperature-triggered calibration: locked synthesisers are trimmed in lock, those on their way to lock at their lock
instant, those powered down calibrate at their next lock request. A trim in lock ends by the next reading of the temperature, 10 ms
later: DESIGN CHOICE. -/
def tempCal (s : State) : State :=
  let mask (f : SynthPhase → Bool) : Nat := ([1, 2, 3].map (fun id => b2n (f (synth s id).phase) * 2 ^ id)).sum
  let full := mask (fun p => p == .off)
  let trim := mask (fun p => p != .off)
  let s := each [1, 2, 3] (fun id => onSynth id (fun y =>
    if y.phase = .off then { y with calDue := true } else { y with trim := true })) s
  let s := onClk (fun k => { k with calDeferred := false }) (recordCal s)
  let s := if full = 0 then s else queueEvent 0x1007 full 2 s
  if trim = 0 then s else queueEvent 0x1007 trim 3 s

/-- `PRIV_CAL` records that the temperature makes stale (05 R138). -/
def stalePriv (t : Int) (s : State) : State :=
  each (List.range 8) (fun i s =>
    let r := s.rf.priv.getD i PrivRec.reset
    if r.valid && !r.stale && decide (temp8 ≤ |t - r.temp|) then
      queueEvent 0x2005 (r.link.getD 0xFF) (uint 32 (t - r.temp)) (onPriv i (fun r => { r with stale := true }) s)
    else s) s

/-- TX_CAL_STALE, once until the next calibration (08 R229). -/
def staleTx (t : Int) (s : State) : State :=
  let q := parInt s 16 P.txQcalTemp
  if !s.tx.staleSent && decide (temp8 ≤ |t - q|) then
    queueEvent 0x4007 0 (uint 32 (t - q)) { s with tx := { s.tx with staleSent := true } }
  else s

/-- TEMP_SAMPLE: the first reading is what later ones are compared with until a calibration records one. DEDUCED. -/
def execTempSample (t : Int) (s : State) : Host.Outcome State Fault Refusal :=
  .next (if !s.seq.running then onClk (fun k => { k with dieTemp := t }) s
    else
      let s := onClk (fun k => { k with dieTemp := t, calRef := some (k.calRef.getD t) }) s
      let s := each [1, 2, 3] (fun id s => if locked s id then onSynth id (fun y => { y with trim := false }) s else s) s
      let s := staleTx t (stalePriv t s)
      if decide (|t - s.clk.calRef.getD t| < temp8) || s.clk.calDeferred then s
      else if s.supply.brown then onClk (fun k => { k with calDeferred := true }) s
      else tempCal s)

/-! ### Cascade synchronisation (04 R115 to R118) -/

/-- Whether an LO is in use: it is locked or on its way to lock (04 R116). -/
def loInUse (id : Nat) (s : State) : Bool := (synth s id).phase != .off

/-- SYNC_INSTANT: an armed one-shot loads the timebase with P × 61 440 and resets the dividers, and the divider and accumulator
of each LO not in use. The primary's instant is its own boundary P; a follower's is its SYNC_IN edge plus CLK.SYNC_COMP. -/
def execSyncInstant (s : State) : Host.Outcome State Fault Refusal :=
  .next (let role := parGet s P.clkSyncRole
    let p := parGet s P.clkSyncPeriodLo + 2 ^ 32 * parGet s P.clkSyncPeriodHi
    if parGet s P.clkSyncArm ≠ 1 ∨ role = 0 ∨ !s.clk.pllLocked ∨ (role = 1 ∧ now s ≠ p * periodLen) then s
    else
      let s := { s with timebase := BitVec.ofNat 64 (p * periodLen), clk := { s.clk with synced := true, divPhase := p * periodLen } }
      let s := each [1, 2] (fun id s => if loInUse id s then s else onSynth id (fun y => { y with acc := some (p * periodLen) }) s) s
      let s := if role = 2 then followerEdge (p * periodVco : Nat) s else s
      queueEvent 0x1005 role (p % 2 ^ 32) (parSet P.clkSyncArm 0 s))

/-- SYNC_MONITOR_EDGE: a follower compares its sync instant with its own boundary, and repeats the edge (04 R115, R118). -/
def execSyncMonitorEdge (error : Int) (s : State) : Host.Outcome State Fault Refusal :=
  .next (if parGet s P.clkSyncArm ≠ 2 ∨ parGet s P.clkSyncRole ≠ 2 then s
    else
      let b : Nat := (now s + periodLen / 2) / periodLen * periodVco
      let s := parSet P.clkSyncError (uint 16 (clampI (-32768) 32767 error)) (followerEdge (b + error) s)
      if 4 < |error| then queueEvent 0x1006 0 (uint 32 error) (bump P.clkSyncSlips s) else s)

end Sys2Proof.Machine
end

