-- ==== Sys2Proof/Machine/RfEvents.lean ====
section
/-! DEFINITION. The receive front end's events: image calibration, privileged calibration, scanning, and what a period
boundary does to the gain and the ages of the plan (05 R125 to R128, R133 to R147, 04 R113, R114). -/

namespace Sys2Proof.Machine

def onRf (f : Rf → Rf) (s : State) : State := { s with rf := f s.rf }

/-! ### Image calibration (05 R133 to R140) -/

/-- IMAGE_CAL_FAST_END: the time of fast mode is over and normal mode follows. -/
def execImageCalFastEnd (s : State) : Host.Outcome State Fault Refusal :=
  .next (if s.rf.imageCal ≠ 1 ∨ now s < s.rf.fastUntil then s else settle (imagePart (onRf (fun r => { r with imageCal := 2 }) s)))

/-- A chain of an aerial, 0 A, 1 B. -/
def onChain (aerial : Nat) (f : Chain → Chain) (s : State) : State :=
  onRf (fun r => if aerial = 0 then { r with a := f r.a } else { r with b := f r.b }) s

def chain (aerial : Nat) (s : State) : Chain := if aerial = 0 then s.rf.a else s.rf.b

/-- Boundaries of 1 s. -/
def secPeriods : Nat := 2000

/-- IMAGE_CAL_ALARM: the estimate has been below 55 dB for 1 s outside fast mode, once until it recovers. -/
def execImageCalAlarm (aerial irr : Nat) (s : State) : Host.Outcome State Fault Refusal :=
  .next (if 1 < aerial ∨ 55 ≤ irr ∨ s.rf.imageCal = 1 ∨ (chain aerial s).below < secPeriods ∨ (chain aerial s).irrAlarmed then s
    else queueEvent 0x2002 aerial irr (onChain aerial (fun c => { c with irr := irr % 256, irrAlarmed := true }) s))

/-- The path that the lanes of a link take: at once where the instant is a boundary, else from the next one (05 R136, R137). -/
def pathFrom (on : Bool) (t : Nat) (l : Link) : Link :=
  if t % periodLen = 0 then { l with onPriv := on, privNext := none } else { l with privNext := some on }

/-- PRIV_CAL_DONE: the tone has run for 2 periods, and the record measured now is valid; the coefficients are its own (05 R135,
R137). The event is queued for the records that RF_CALIBRATE measures; LINK_PRIVILEGE queues its own as it completes, and a
measurement after a hop, of which the rules name no event, queues none: DESIGN CHOICE. -/
def execPrivCalDone (n : Nat) (aRe aIm bRe bIm : Int) (s : State) : Host.Outcome State Fault Refusal :=
  .next (match privOf s n with
    | none => s
    | some i =>
      if measured s ≠ some n ∨ !s.rf.toneAt.any (fun t => decide (t + 2 * periodLen ≤ now s)) then s
      else
        let w (v : Int) : Int := clampI (-32768) 32767 v
        let s := withTone (onPriv i (fun r => { r with
          valid := true, stale := false, measuring := false, temp := s.clk.dieTemp, freq := (link s n).freq
          aRe := w aRe, aIm := w aIm, bRe := w bRe, bIm := w bIm })) s
        let s := onLink n (pathFrom true (now s)) s
        let s := if calWants 1 s && (waitingFor (.privCal n) s).isEmpty then queueEvent 0x2004 n i s else s
        settle (imagePart (doneWaiting (.privCal n) s)))

/-! ### Scanning (04 R113, R114, 05 R145, R146) -/

/-- The greatest of 0 to 255 whose level, -150 dBm plus half a dB each, `p / q` in units of 10^-21 W reaches. -/
def halfDbs (p q : Nat) : Nat :=
  searchUp (fun v => decide ((1000 * q) ^ 20 * 10 ^ v ≤ p ^ 20)) [128, 64, 32, 16, 8, 4, 2, 1] 0

/-- A measurement as PEAK and MEAN code it (05 R147): below -149.5 dBm it records 1, above -22.5 dBm 255. Between two codes, up or
down is free: DESIGN CHOICE. -/
def levelCode (d k p q : Nat) : Nat :=
  let v := halfDbs p q
  max 1 (min 255 (v + if (1000 * q) ^ 20 * 10 ^ v = p ^ 20 then 0 else b2n (Config.roundUp d k)))

/-- The scan is linear (04 R113). -/
def linearScan (s : State) : Bool := parGet s P.clkRampProfile == 1

/-- The lane that sweeps a frequency, and 16 times the travel at which it comes there, from the start of its part (04 R113). -/
def sweepAt (sc : Scan) (f : Nat) : Nat × Nat :=
  let w := sc.stop - sc.start
  let k := min 15 (16 * (f - sc.start) / max w 1)
  (k, 16 * (f - sc.start) - k * w)

/-- Whether the lanes have travelled `x / 16` Hz since the sweep began, at `CLK.RAMP_RATE` Hz per ms. -/
def travelled (sc : Scan) (s : State) (x : Nat) : Bool :=
  decide (x * 122880 ≤ 16 * parGet s P.clkRampRate * (now s - sc.began))

/-- The step of travel that a measurement belongs to. -/
def sweepStep (sc : Scan) (f : Nat) : Nat :=
  let (k, x) := sweepAt sc f
  16 * (x / (16 * max sc.step 1)) + k

/-- Whether a scan measures a frequency in the present dwell: of its lanes, or of the sweep so far, once in a step of travel;
inside the window at which the RX LO stands (04 R113, R114, 05 R145). -/
def scanHits (sc : Scan) (s : State) (f : Nat) : Bool :=
  (if linearScan s then decide (sc.start ≤ f ∧ f ≤ sc.stop) && travelled sc s (sweepAt sc f).2 && !sc.seen.contains (sweepStep sc f)
    else (dwellFreqs sc.f sc.step sc.stop).contains f) && withinRx (loEdge s) f

/-- The power samples of the aerial that RFR.SCAN_AERIAL selects. -/
def scanSamples (s : State) (x : ScanMeas) : List Nat := if parGet s P.rfrScanAerial = 0 then x.a else x.b

/-- One measurement joins the bin that it belongs to: the maximum and the linear mean of its samples (05 R145, R146). -/
def addMeas (d : Nat) (s : State) (m : SMap BinMeas) (x : ScanMeas) : SMap BinMeas :=
  let l := scanSamples s x
  let b := (x.hz - 470000000) / 130000
  let o := smGet ⟨0, 0, 0⟩ m b
  if l.isEmpty then m
  else smPut m b ⟨max o.peak (levelCode d (2 * x.hz) (l.foldl max 0) 1), o.sum + levelCode d (2 * x.hz + 1) l.sum l.length, o.count + 1⟩

/-- The measurements of a dwell join the pass. -/
def measureDwell (meas : List ScanMeas) (sc : Scan) (s : State) : Scan :=
  meas.foldl (fun c x => if scanHits c s x.hz
    then { c with pass := addMeas s.free s c.pass x, seen := if linearScan s then sweepStep c x.hz :: c.seen else c.seen } else c) sc

/-- The RX LO moves where the dwell at F needs it; the dwell begins at the lock instant. -/
def moveLo (s : State) : State :=
  match s.rf.scan with
  | some sc =>
    if linearScan s then s
    else match dwellMove sc s with
      | some e => startLock 1 (e - 8000000) (onRf (fun r => { r with scanReturn := true }) s)
      | none => s
  | none => s

/-- SCAN_DWELL_END: the lanes' measurements; in the staircase, once the dwell is over, F rises by 16 steps. -/
def execScanDwellEnd (meas : List ScanMeas) (s : State) : Host.Outcome State Fault Refusal :=
  .next (match s.rf.scan with
    | none => s
    | some sc =>
      if !locked s 1 then s
      else if linearScan s then (draw (onRf (fun r => { r with scan := some (measureDwell meas sc s) }) s)).2
      else if sc.stop < sc.f ∨ now s < sc.began + usTicks (parGet s P.clkRampDwell) then s
      else
        let c := { measureDwell meas sc s with f := sc.f + 16 * sc.step, began := now s, loFree := loFree s }
        let s := (draw (onRf (fun r => { r with scan := some c }) s)).2
        if sc.stop < c.f then s else moveLo s)

/-- A pass joins the measurements of the scan. -/
def joinPass (total : SMap BinMeas) (p : Nat × BinMeas) : SMap BinMeas :=
  let o := smGet ⟨0, 0, 0⟩ total p.1
  smPut total p.1 ⟨max o.peak p.2.peak, o.sum + p.2.sum, o.count + p.2.count⟩

/-- The average of MEAN over every measurement of the scan in a bin; where it is no whole code, up or down is free. DESIGN
CHOICE. -/
def meanCode (m : BinMeas) (b : Nat) (s : State) : Nat :=
  m.sum / m.count + (if m.sum % m.count = 0 then 0 else b2n (Config.roundUp s.free b))

/-- Write a bin that the pass measured. -/
def writeBin (total : SMap BinMeas) (b : Nat) (s : State) : State :=
  let m := smGet ⟨0, 0, 0⟩ total b
  onRf (fun r => { r with bins := smSet PlanBin.reset r.bins b ⟨m.peak, meanCode m b s, some r.ageTicks⟩ }) s

/-- SCAN_PASS_END: the pass is merged into `SPECTRUM_PLAN`; the scan ends with its last pass or begins the next. -/
def execScanPassEnd (s : State) : Host.Outcome State Fault Refusal :=
  .next (match s.rf.scan with
    | none => s
    | some sc =>
      if (if linearScan s then !travelled sc s (sc.stop - sc.start) else decide (sc.f ≤ sc.stop)) then s
      else
        let total := sc.pass.foldl joinPass sc.total
        let s := (draw (each (sc.pass.map Prod.fst) (writeBin total) s)).2
        let sc := { sc with done := sc.done + 1, f := sc.start, began := now s, loFree := loFree s, seen := [], pass := [], total := total }
        let s := parSet P.rfrScanPasses (min 255 sc.done) (onRf (fun r => { r with scan := some sc }) s)
        settle (if sc.passes = sc.done then endScan s else moveLo s))

/-! ### The period boundary (05 R126 to R128, R134, R147) -/

/-- The gain that takes effect at a boundary. -/
def gainStep (c : Chain) : Chain := { c with gain := c.gain + c.step, step := 0 }

/-- What the period's measurements make of a chain in auto mode (05 R126): the step is for the boundary that ends it. -/
def agc (t rms : Int) (clip : Nat) (c : Chain) : Chain :=
  if c.fixed then c
  else if 4 ≤ clip ∨ 100 * (t + 3) < rms then { c with step := if -6 < c.gain then -3 else 0, quiet := 0 }
  else if rms < 100 * (t - 6) ∧ clip = 0 then
    if 40 ≤ c.quiet + 1 then { c with step := if c.gain < 30 then 3 else 0, quiet := 0 }
    else { c with quiet := c.quiet + 1 }
  else { c with quiet := 0 }

/-- The overload of a period: counted, and reported while the chain has no gain left to give. -/
def overload (aerial clip : Nat) (s : State) : State :=
  if clip < 4 then s
  else
    let s := bump (if aerial = 0 then P.rfrAdcOverloadsA else P.rfrAdcOverloadsB) s
    if (chain aerial s).gain = -6 then queueLimited (0x2001 * 65536 + aerial) (sec1 / 10) 0x2001 aerial clip s else s

/-- One chain at a boundary: overload of the period, automatic gain, its step, its IRR estimate. -/
def chainTick (aerial : Nat) (rms : Int) (clip irr : Nat) (s : State) : State :=
  let s := overload aerial clip s
  let t := parInt s 8 P.rfrAgcTarget
  let s := onChain aerial (agc t rms clip) s
  let s := if (chain aerial s).step = 0 then s else bump P.rfrAgcSteps s
  let low := decide (irr < 55)
  let fast := s.rf.imageCal == 1
  onChain aerial (fun c => { gainStep c with
    irr := irr % 256, irrAlarmed := c.irrAlarmed && low, below := if low && !fast then min secPeriods (c.below + 1) else 0 }) s

/-- Background calibration runs: the RX LO is locked and stands where the taps belong. While the scanner has moved it the taps are
kept (05 R134). -/
def tapsRun (s : State) : Bool := s.rf.imageCal != 0 && locked s 1 && !s.rf.scanReturn

/-- A tap after an update: the blind adaptation sets it free; in normal mode it moves by at most 1/1024 of its magnitude (05
R133). -/
def nextTap (fast : Bool) (old new : Int × Int) : Int × Int :=
  let sq (x y : Int) : Int := x * x + y * y
  if fast || decide (sq (new.1 - old.1) (new.2 - old.2) * 2 ^ 20 ≤ sq old.1 old.2) then new else old

/-- The taps of a chain are updated. -/
def moveTaps (fast : Bool) (d k : Nat) (c : Chain) : Chain :=
  { c with taps := (List.range 8).map (fun i =>
      nextTap fast (c.taps.getD i (0, 0)) (Config.imageTap d (2 * (8 * k + i)), Config.imageTap d (2 * (8 * k + i) + 1))) }

/-- The background filters: every period in fast mode, every 10 ms in normal mode (05 R133). -/
def imageTick (s : State) : State :=
  let fast := s.rf.imageCal == 1
  if !tapsRun s || (!fast && period s % 20 != 0) then s
  else
    let (d, s) := draw s
    onRf (fun r => { r with a := moveTaps fast d 0 r.a, b := moveTaps fast d 1 r.b }) s

/-- Lanes that change to or from the privileged path at a boundary (05 R136, R137). -/
def privTick (s : State) : State :=
  each ((openLinks s).filter (fun p => p.2.privNext.isSome)) (fun p s =>
    tuneLanes p.1 (onLink p.1 (fun l => { l with onPriv := l.privNext.getD l.onPriv, privNext := none }) s)) s

/-- Powered time passes, from which the age of every measured bin is counted. -/
def ageBins (s : State) : State := onRf (fun r => { r with ageTicks := r.ageTicks + 1 }) s

/-- The receive front end at a period boundary. -/
def rfTick (env : PeriodEnv) (s : State) : State :=
  let s := if domOn s Dom.rfa && !restarting s Dom.rfa && !unclocked s then
      imageTick (chainTick 1 env.rmsB env.clipB env.irrB (chainTick 0 env.rmsA env.clipA env.irrA s)) else s
  ageBins (privTick s)

end Sys2Proof.Machine
end

