-- ==== Sys2Proof/Machine/LinkEvents.lean ====
section
/-! DEFINITION. The instants of a demodulator lane: detections, frames, losses, intrusions, superblocks (06 R168, R183 to
R191, 07 R192 to R217). -/

namespace Sys2Proof.Machine

/-! ### Time and detection (07 R196 to R199) -/

/-- Ticks of one uplink symbol, and of one lane sample. -/
def symTicks : Nat := 512
def laneSample : Nat := 128

/-- The distance of two instants within the period. -/
def phaseGap (a b : Nat) : Nat :=
  let d := (a % periodLen + periodLen - b % periodLen) % periodLen
  min d (periodLen - d)

/-- The period whose boundary is nearest to an instant. -/
def nearPeriod (t : Nat) : Nat := (t + periodLen / 2) / periodLen

/-- A lane works: its link is open, its domains run, the RX LO is locked. -/
def laneRuns (s : State) (n : Nat) : Bool :=
  (link s n).isOpen && !(link s n).starting && locked s 1 &&
    [Dom.rfa, Dom.chz, Dom.dmd].all (fun d => domOn s d && !restarting s d) && !unclocked s

/-- A detection that an intrusion bar covers (07 R204). -/
def barred (p : Nat) (l : Link) (start : Nat) (df : Rat) : Bool :=
  l.bars.any (fun b => decide (p < b.untilPeriod) && decide (phaseGap start b.phase ≤ 2 * symTicks) &&
    decide (|df - b.df| ≤ 5000))

/-- A preamble that the other tracker holds, or, after a hop, the preamble that the ACTIVE tracker expects (07 R197,
R223). -/
def preambleTaken (l : Link) (k start : Nat) : Bool :=
  let o := trk l (1 - k)
  (candidate o && decide (dist start o.cand < 4 * symTicks)) ||
    (l.hopping.isSome && o.phase == .active && decide (start ≤ o.start) && decide (o.start ≤ start + 32 * symTicks))

/-- A sync word at the timing that the other tracker holds or follows (07 R197). -/
def syncTaken (l : Link) (k start : Nat) : Bool :=
  let o := trk l (1 - k)
  (o.phase == .verify || o.phase == .active) && decide (phaseGap start o.start ≤ 2 * symTicks)

/-- A new candidate. -/
def newCandidate (ph : TrkPhase) (start : Nat) (df tau : Rat) (power : Nat) : Tracker :=
  { Tracker.reset with phase := ph, cand := start, start := start, df := df, tau := tau, level := power, training := ph == .pre }

/-- A tracker takes a candidate. -/
def takeCandidate (n k : Nat) (t : Tracker) (s : State) : State := onLink n (onTrk k (fun _ => t)) s

/-- A detection of a tracker in WATCH: at the capture level it starts a capture, or is refused by the lock (07 R201 to
R203). -/
def tryCapture (n k : Nat) (t : Tracker) (s : State) : State :=
  if !reaches t.level (trk (link s n) (1 - k)).level (parNow s (P.linkCapture n)) then s
  else if parNow s (P.linkCapture8 n) = 1 then bump (P.linkCaptureRefused n) s
  else takeCandidate n k t s

/-- A detection of a tracker in SEARCH or WATCH; `taken`: R197 excludes it. -/
def detected (n k : Nat) (taken : Bool) (t : Tracker) (s : State) : State :=
  let l := link s n
  if taken || barred (period s) l t.start t.df then s
  else match (trk l k).phase with
    | .search => takeCandidate n k t s
    | .watch => tryCapture n k t s
    | _ => s

/-- Whether a level reaches the -112 dBm of the preamble detector (07 R196). -/
def preambleLevel (power : Nat) : Bool := decide (10 ^ 34 ≤ power ^ 5)

/-- PREAMBLE_DETECTED. -/
def execPreambleDetected (n k start : Nat) (a b : Window) (s : State) : Host.Outcome State Fault Refusal :=
  let l := link s n
  let power := max a.power b.power
  .next (match preambleFires l.range a b with
    | some (df, tau) =>
      if !laneRuns s n || decide (1 < k) || !preambleLevel power then s
      else detected n k (preambleTaken l k start) (newCandidate .pre start df tau power) s
    | none => s)

/-- The sync word of a preamble that a tracker holds: its own Δf within 2 kHz and its symbol phase, and no later than 24 symbols after
the detection, which is the end of the 16 symbols of the window (07 R198). Symbol phases within one lane sample are equal:
DESIGN CHOICE. -/
def ownSync (t : Tracker) (start : Nat) (df : Rat) : Bool :=
  let d := (start + symTicks - t.cand % symTicks) % symTicks
  decide (|df - t.df| ≤ 2000) && decide (min d (symTicks - d) ≤ laneSample) &&
    decide (t.cand + 16 * symTicks ≤ start + laneSample) && decide (start ≤ t.cand + 32 * symTicks + laneSample)

/-- SYNC_WORD_DETECTED, from the windows of the two aerials. -/
def execSyncWordDetected (n k start bin : Nat) (w : Window × Window) (s : State) : Host.Outcome State Fault Refusal :=
  let l := link s n
  let t := trk l k
  let power := max w.1.power w.2.power
  .next (if !laneRuns s n || decide (1 < k) || !syncFires l.range bin w.1 w.2 then s
    else if t.phase = .pre then
      (if ownSync t start (binOffset bin) then takeCandidate n k { t with phase := .verify, start := start, level := power } s else s)
    else detected n k (syncTaken l k start) (newCandidate .verify start (binOffset bin) 0 power) s)

/-- A tracker gives up its candidate: SEARCH, or WATCH beside an ACTIVE one. -/
def giveUp (n k : Nat) (s : State) : State :=
  onLink n (fun l =>
    let ph := if (trk l (1 - k)).phase = .active then TrkPhase.watch else .search
    { onTrk k (fun _ => { Tracker.reset with phase := ph }) l with tie := l.tie.filter (fun v => v.trk != k) }) s

/-- A false start is counted. -/
def falseStart (n k : Nat) (s : State) : State := bump (P.linkFalseStarts n) (giveUp n k s)

/-- PRE_TIMEOUT: 24 symbols after the detection, which is the end of its window of 16, without the sync word. -/
def execPreTimeout (n k : Nat) (s : State) : Host.Outcome State Fault Refusal :=
  let t := trk (link s n) k
  .next (if 1 < k ∨ t.phase ≠ .pre ∨ now s < t.cand + 40 * symTicks then s else falseStart n k s)

/-! ### Equalising a frame (07 R205 to R211) -/

/-- A frame equalised: tap sets at the sync word and after the frame, the loop errors of a preamble, aerial, samples and symbols of
that aerial. -/
structure LaneFrame where
  a0 : Taps
  b0 : Taps
  a : Taps
  b : Taps
  pre : Rat × Rat
  aerial : Nat
  z : List Int
  syms : List Sym

/-- The taps after the last `left` symbols of a preamble, whose values alternate and end negative, and those symbols. -/
def preTrain (c : EqCfg) (z : List Int) : Nat → Nat → Taps → Taps × List Sym
  | 0, _, t => (t, [])
  | left + 1, j, t =>
    let zs := zWindow z j
    let d : Int := (if left % 2 = 0 then -1 else 1) * (if c.range then 1 else 3)
    let y := dfeOut t zs
    let u := if c.freeze then t else dfeAdapt c.mf c.mb t zs (d * y1 - y)
    let (v, l) := preTrain c z left (j + 1) { u with d := (d :: t.d).take 4 }
    (v, ⟨y, d⟩ :: l)

/-- A frame on both aerials, from the link's tap sets or, with the preamble before it, from those of acquisition. -/
def demodulate (s : State) (n : Nat) (training fresh : Bool) (f : RxFrame) : LaneFrame :=
  let l := link s n
  let less := if training then 2 else 0
  let c (sel : Bool) : EqCfg :=
    { range := l.range, mf := parNow s (P.linkDfeCfg n) - less, mb := parNow s (P.linkDfeCfg4 n) - less
      freeze := parNow s (P.linkDfeCfg8 n) == 1, selected := sel, fr := s.free }
  let (a0, pa) := if fresh then preTrain (c false) f.a.z f.a.pre 0 Taps.reset else (l.tapsA, [])
  let (b0, pb) := if fresh then preTrain (c false) f.b.z f.b.pre 0 Taps.reset else (l.tapsB, [])
  let za := f.a.z.drop (2 * f.a.pre)
  let zb := f.b.z.drop (2 * f.b.pre)
  let (a1, sa) := equalise (c false) za 8 0 a0
  let (b1, sb) := equalise (c false) zb 8 0 b0
  let aerial := chooseAerial (parNow s (P.linkDiversity n)) (parNow s (P.linkDiversity8 n)) l.aerial (errSum sa) (errSum sb)
  let (a2, ta) := equalise (c (aerial == 0)) za 112 8 a1
  let (b2, tb) := equalise (c (aerial == 1)) zb 112 8 b1
  { a0 := a0, b0 := b0, a := a2, b := b2, aerial := aerial, z := if aerial = 0 then za else zb
    pre := if aerial = 0 then preambleErrors l.range f.a.z pa else preambleErrors l.range f.b.z pb
    syms := if aerial = 0 then sa ++ ta else sb ++ tb }

/-- The samples of a frame as the run-ahead buffer holds them: they are the last that came in. -/
def reread (buf z : List Int) : List Int := if z.length ≤ 360 then buf.drop (buf.length - z.length) else z

/-- The samples of a frame enter the run-ahead buffers, from which it is decoded. -/
def fillBuffers (n : Nat) (f : RxFrame) (s : State) : State × RxFrame :=
  let put (old z : List Int) : List Int := (old ++ z).drop ((old ++ z).length - 360)
  let s := onLink n (fun l => { l with bufA := put l.bufA f.a.z, bufB := put l.bufB f.b.z }) s
  (s, { f with a := { f.a with z := reread (link s n).bufA f.a.z }, b := { f.b with z := reread (link s n).bufB f.b.z } })

/-- The data bits of a frame's decisions. -/
def frameBits (range : Bool) (l : List Sym) : List Bool :=
  ((List.range 120).filter (fun i => (knownSymbol range i).isNone)).flatMap (fun i =>
    symbolBits range (l.getD i ⟨0, 0⟩).d)

/-! ### Due frames and losses (07 R193, R212, R214) -/

/-- The boundary at which a frame is due: a synchronised transmitter, that of a link with a session, by its period, another
by the start of its sync word (01 R25). -/
def dueOf (l : Link) (start : Nat) : Nat :=
  (if l.session.isSome then nearPeriod start else ceilDiv start periodLen) + 2 + l.cls

/-- A loss is declared for a slot that nothing holds. -/
def putLoss (n b : Nat) (s : State) : State :=
  onLink n (fun l => { l with due := if (smFind l.due b).isSome then l.due else smPut l.due b ⟨none, 1, false, false⟩ }) s

/-- Both trackers return to SEARCH after the last loss that the hold allows (07 R198). -/
def linkLost (n : Nat) (s : State) : State := queueEvent 0x3002 n (link s n).losses (onLink n searchLane s)

/-- A declared loss of the ACTIVE tracker's frame. -/
def declareLoss (n b : Nat) (s : State) : State :=
  let s := putLoss n b (onLink n (fun l => { l with
    losses := l.losses + 1, lastOk := false
    hopping := l.hopping.map (fun h => { h with concealed := h.concealed + 1 }) }) s)
  if parNow s (P.linkHoldFrames n) ≤ (link s n).losses then linkLost n s else s

/-- FRAME_SLIP: 1 frame dropped, 2 slot empty (07 R212). -/
def frameSlip (n d : Nat) (s : State) : State := queueEvent 0x300A n d (bump (P.linkFrameSlips n) s)

/-- A decoded frame takes its slot, `xs` none where its block is concealed: a frame that finds another one there is dropped; a slot
left empty before it is a loss. -/
def putFrame (n b : Nat) (xs : Option (List Int)) (e : Rat) (gap : Bool) (s : State) : State :=
  let l := link s n
  let old := smFind l.due b
  if old.any DueFrame.decoded then
    frameSlip n 1 (onLink n (fun l => { l with due := (old.map (fun d => smPut l.due b { d with dropped := true })).getD l.due }) s)
  else
    let s := if gap && decide (period s + 1 < b) && (smFind l.due (b - 1)).isNone && l.session.isNone then
        putLoss n (b - 1) (frameSlip n 2 s) else s
    onLink n (fun l => { l with due := smPut l.due b ⟨xs, e, true, false⟩ }) s

/-! ### Superblocks and messages (06 R183 to R187, 07 R216, R217) -/

/-- A superblock is discarded, and with it the message in assembly. -/
def sbDiscard (n : Nat) (s : State) : State := bump (P.linkSbDiscarded n) (onLink n (fun l => { l with msg := none }) s)

/-- The fields that differ between two superblocks, as the mask of SUPERBLOCK_CHANGED. -/
def sbMask (old : Option (List Byte)) (sb : List Byte) : Nat :=
  match old with
  | none => 127
  | some o =>
    let d (i n : Nat) : Nat := b2n ((o.drop i).take n != (sb.drop i).take n)
    d 1 4 + 2 * d 5 12 + 4 * d 17 1 + 8 * d 18 1 + 16 * d 19 1 + 32 * d 20 1 + 64 * d 29 1

/-- A message is complete. -/
def msgDone (n : Nat) (bs : List Byte) (s : State) : State :=
  let s := each (List.range 16) (fun i => parSet (P.linkMsg0 n i) (fldAt bs (4 * i) 4)) s
  queueEvent 0x3009 n bs.length (parSet (P.linkMsgLen n) bs.length s)

/-- The fragment of an accepted superblock. A first fragment whose index is not 0 is dropped, and so is a message that grows past 64
bytes, each with what was in assembly: DESIGN CHOICE. -/
def msgFragment (n : Nat) (sb : List Byte) (s : State) : State :=
  let (first, last, i, bs) := sbFragment sb
  if bs = [] then s
  else
    let m : Option MsgAsm :=
      if first then (if i = 0 then some ⟨1, bs⟩ else none)
      else match (link s n).msg with
        | some m => if m.next = i then some ⟨(i + 1) % 8, m.bytes ++ bs⟩ else none
        | none => none
    let m := m.filter (fun m => decide (m.bytes.length ≤ 64))
    let s := onLink n (fun l => { l with msg := if last then none else m }) s
    match m with
    | some m => if last then msgDone n m.bytes s else s
    | none => s

/-- An accepted superblock is copied. -/
def sbAccept (n : Nat) (sb : List Byte) (s : State) : State :=
  let mask := sbMask (link s n).sbLast sb
  let s := parSet (P.linkSbTxid n) (beNat ((sb.drop 1).take 4)) (parSet (P.linkSbStatus n) (fldAt sb 17 4) s)
  let s := each (List.range 3) (fun i => parSet (P.linkSbName0 n i) (fldAt sb (5 + 4 * i) 4)) s
  let s := parSet (P.linkSbFlags n) (fldAt sb 29 1) (parSet (P.linkSbFlags8 n) 1 s)
  let s := bump (P.linkSbAccepted n) (onLink n (fun l => { l with sbLast := some sb }) s)
  msgFragment n sb (if mask = 0 then s else queueEvent 0x3008 n mask s)

/-- The 32 bytes of a superblock are in (06 R184, 07 R216). -/
def sbComplete (n : Nat) (sb : List Byte) (s : State) : State :=
  let id := beNat ((sb.drop 1).take 4)
  if !superblockOk sb then sbDiscard n s
  else match (link s n).session with
    | some x =>
      if (session s x).txId = id then sbAccept n sb s
      else queueEvent 0x3003 (n + 256) id (bump (P.linkIntrusions n) (sbDiscard n s))
    | none => sbAccept n sb s

/-- The metadata byte of a decoded frame joins its superblock, which takes 32 frames in order (06 R183, R184). -/
def sbStep (n fc md : Nat) (s : State) : State :=
  let l := link s n
  let last := (l.sbNext + 63) % 64
  let going := l.sb ≠ [] ∨ l.sbBad
  let other := going ∧ (fc / 32 ≠ last / 32 ∨ fc % 32 < last % 32)
  let s := if other then sbDiscard n s else s
  let sb := if other then [] else l.sb
  let bad := if other ∨ ¬going then decide (fc % 32 ≠ 0) else l.sbBad || decide (fc ≠ l.sbNext)
  let sb := if bad then [] else sb ++ [BitVec.ofNat 8 md]
  if fc % 32 = 31 then
    let s := onLink n (fun l => { l with sb := [], sbBad := false, sbNext := (fc + 1) % 64 }) s
    if bad then sbDiscard n s else sbComplete n sb s
  else onLink n (fun l => { l with sb := sb, sbBad := bad, sbNext := (fc + 1) % 64 }) s

/-! ### Decoded frames (06 R178 to R191, 07 R213) -/

/-- Whether a session requires encryption (06 R188). -/
def linkEncrypted (s : State) (l : Link) : Bool := l.session.any (fun x => (session s x).flags % 2 == 1)

/-- Key and epoch of a session for a frame of a period: a confirmed change holds from its boundary n on (06 R189, 09 R272). -/
def frameKey (x : Session) (p : Nat) : List Byte × Nat :=
  match x.change with
  | some c =>
    if c.switched && decide (p < c.n) then (x.pendKey, (x.epoch + 2 ^ 32 - 1) % 2 ^ 32)
    else if !c.switched && c.confirmed && decide (c.n ≤ p) then (x.pendKey, (x.epoch + 1) % 2 ^ 32)
    else (x.key, x.epoch)
  | none => (x.key, x.epoch)

/-- The samples of a frame's audio field; none: INVALID. The half-band filter of a range link is free (06 R181). -/
def frameAudio (s : State) (n : Nat) (v : Verdict) : Option (List Int) :=
  let l := link s n
  let p := nearPeriod v.start
  let bs := match l.session with
    | some x =>
      if linkEncrypted s l then
        let (key, epoch) := frameKey (session s x) p
        frameCrypt key 1 (b2n l.range) v.airId p epoch v.audio
      else v.audio
    | none => v.audio
  (tallyDecode (if l.range then tallyRange else tallyNormal) bs).map (fun x =>
    if l.range then (List.range 24).map (fun i => clamp24 (Config.halfBand s.free i x)) else x)

/-- A frame of the link that passed its CRC is checked, decoded and delivered. -/
def deliverFrame (n : Nat) (v : Verdict) (gap : Bool) (s : State) : State :=
  let l := link s n
  let b := dueOf l v.start
  if linkEncrypted s l && v.fc != nearPeriod v.start % 64 then putFrame n b none 1 gap (bump (P.linkFcRejects n) s)
  else
    let s := sbStep n v.fc v.md (bump (P.linkFramesOk n) s)
    match frameAudio s n v with
    | none => putFrame n b none 1 gap (bump (P.linkBlocksInvalid n) s)
    | some x =>
      let s := (draw s).2
      if toneHits s n then putFrame n b none 1 gap s else putFrame n b (some x) v.err gap s

/-! ### Outcomes of a frame (07 R198 to R204, R223, R224) -/

/-- A frame that passed its CRC, from what the lane made of it: the loops move from the tracker's values. -/
def verdictOf (s : State) (n k : Nat) (f : RxFrame) (q : LaneFrame) (u : UpFrame) : Verdict :=
  let l := link s n
  let t := trk l k
  let sf := parNow s (P.linkLoopCfg n)
  let st := parNow s (P.linkLoopCfg4 n)
  { trk := k, start := f.start
    df := t.df + q.pre.1 / 2 ^ (sf - 1) + freqStep l.range sf q.syms
    tau := t.tau + q.pre.2 / 2 ^ (st - 1) + timeStep st q.z q.syms
    powerA := f.a.power, powerB := f.b.power, aerial := q.aerial, tapsA := q.a, tapsB := q.b
    err := frameError l.range q.syms, airId := u.airId, fc := u.fc, md := u.md, audio := u.audio }

/-- The level of a frame: the larger of its aerials' (07 R201), each as the frame itself gives it, before the smoothing of R209:
DESIGN CHOICE. -/
def frameLevel (v : Verdict) : Nat := max v.powerA v.powerB

/-- The aerial of a frame, and the levels of both. -/
def measureFrame (n : Nat) (f : RxFrame) (q : LaneFrame) (s : State) : State :=
  let s := if (link s n).aerial = q.aerial then s else bump (P.linkDiversitySwitches n) s
  onLink n (fun l => { l with
    aerial := q.aerial, rssiA := smooth l.rssiA f.a.power, rssiB := smooth l.rssiB f.b.power }) s

/-- The timing offset of a sync word from the nearest boundary, in sixteenths of a lane sample (07 R208). -/
def timingOffset (start : Nat) : Int := nearest 3 ((start : Int) - (nearPeriod start * periodLen : Nat)) 8

/-- The length of a frame as an unsynchronised transmitter that was ACTIVE shows it: the drift of its sync word is spread over the
frames since the last decoded one (07 R199). DESIGN CHOICE: the manual does not say how the symbol rate is tracked. -/
def trackedLen (l : Link) (t : Tracker) (start : Nat) : Nat :=
  if l.session.isSome || t.phase != .active || l.hopping.isSome then periodLen
  else ((t.len : Int) + ((start : Int) - t.start) / ((l.losses : Int) + 1)).toNat

/-- The updates of taps and loops that a passed frame confirms; the tracker is ACTIVE and follows it. -/
def follow (n : Nat) (v : Verdict) (s : State) : State :=
  let l := link s n
  let len := trackedLen l (trk l v.trk) v.start
  onLink n (fun l => { onTrk v.trk (fun _ =>
      { phase := .active, cand := v.start, start := v.start + len, len := len, df := v.df, tau := v.tau
        level := frameLevel v, training := false }) l with
    tapsA := v.tapsA, tapsB := v.tapsB, losses := 0, lastOk := true, fOff := nearestRat 5 v.df, tOff := timingOffset v.start }) s

/-- The first frame on the new frequency is verified, by boundary n + 1 + `LINK.HOP_FALLBACK` (07 R224). -/
def hopDone (n : Nat) (s : State) : State :=
  match (link s n).hopping with
  | some h =>
    if period s < h.period + 1 + parNow s (P.linkHopFallback n) then
      queueEvent 0x3005 n h.concealed (bump (P.linkHops n) (onLink n (fun l => { l with hopping := none }) s))
    else s
  | none => s

/-- An intrusion, with its bar (07 R204). -/
def intrusion (n : Nat) (v : Verdict) (s : State) : State :=
  let p := period s
  let df := nearestRat 5 v.df
  queueEvent 0x3003 n v.airId (bump (P.linkIntrusions n) (onLink n (fun l => { l with
    bars := l.bars.filter (fun b => decide (p < b.untilPeriod) &&
        !(decide (phaseGap v.start b.phase ≤ 2 * symTicks) && decide (|df - b.df| ≤ 5000))) ++
      [⟨v.start % periodLen, df, p + 33⟩] }) s))

/-- A candidate's frame passes with the link's air ID: acquisition or capture; the other tracker goes to WATCH, and its candidate is
dropped uncounted (07 R198, R202). -/
def verified (n : Nat) (v : Verdict) (s : State) : State :=
  let o := trk (link s n) (1 - v.trk)
  let s := onLink n (fun l => { onTrk (1 - v.trk) (fun _ => { Tracker.reset with phase := .watch }) l with tie := none }) (follow n v s)
  if o.phase = .active then hopDone n (deliverFrame n v false (bump (P.linkCaptureSwitches n) s))
  else
    let l := link s n
    let s := queueEvent 0x3001 n (256 * v.aerial + 512 * uint 23 l.fOff) s
    let s := deliverFrame n v false s
    let ok := ((smFind (link s n).due (dueOf l v.start)).bind DueFrame.x).isSome
    hopDone n (onLink n (fun l => { l with mean := some (if ok then v.err else 1) }) s)

/-- What a candidate's frame that passed its CRC leads to when no other one competes with it (07 R198). -/
def settleVerdict (n : Nat) (v : Verdict) (s : State) : State :=
  if v.airId = (link s n).air then verified n v s else giveUp n v.trk (intrusion n v s)

/-- A verdict that waited for the other tracker takes effect. -/
def settleTie (n : Nat) (s : State) : State :=
  match (link s n).tie with
  | some v => settleVerdict n v (onLink n (fun l => { l with tie := none }) s)
  | none => s

/-- Both trackers pass for frames of one period: the one whose air ID matches counts, of two the one with the higher level, on equal
levels T0; the other frame is dropped uncounted (07 R200). -/
def settleBoth (n : Nat) (v w : Verdict) (s : State) : State :=
  let mine (x : Verdict) : Bool := x.airId == (link s n).air
  let first := decide (frameLevel w < frameLevel v) || (frameLevel v == frameLevel w && v.trk == 0)
  if mine v && (first || !mine w) then verified n v s
  else if mine w then verified n w s
  else settleVerdict n v (settleVerdict n w s)

/-- A candidate's frame has passed: while the other tracker verifies a frame of the same period it waits. -/
def passed (n : Nat) (v : Verdict) (s : State) : State :=
  let l := link s n
  let o := trk l (1 - v.trk)
  match l.tie with
  | some w => settleBoth n v w (onLink n (fun l => { l with tie := none }) s)
  | none =>
    if o.phase == .verify && nearPeriod o.start == nearPeriod v.start then onLink n (fun l => { l with tie := some v }) s
    else settleVerdict n v s

/-- A frame of a candidate (07 R198). -/
def verifyFrame (n k : Nat) (f : RxFrame) (s : State) : State :=
  let l := link s n
  let q := demodulate s n (trk l k).training true f
  let u := uplinkParse l.range (frameBits l.range q.syms)
  let (ok, s) := crcVerdict n u.isSome s
  match u with
  | some u =>
    if ok then passed n (verdictOf s n k f q u) (measureFrame n f q s) else settleTie n (falseStart n k s)
  | none => settleTie n (falseStart n k s)

/-- The ACTIVE tracker loses a frame: snapshots stand, the next sync word is expected one frame later. -/
def loseFrame (n k : Nat) (q : LaneFrame) (b : Nat) (s : State) : State :=
  declareLoss n b (onLink n (fun l => { onTrk k (fun t => { t with start := t.start + t.len }) l with
    tapsA := q.a0, tapsB := q.b0 }) s)

/-- While a capture candidate is verified, the ACTIVE tracker's frame is abandoned and lost (07 R202). -/
def abandonFrame (n k : Nat) (s : State) : State :=
  let l := link s n
  let b := dueOf l (trk l k).start
  declareLoss n b (bump (P.linkRunaheadUndos n)
    (onLink n (onTrk k (fun t => { t with start := t.start + t.len })) s))

/-- The frame of the period before a hop, which arrives after the NCOs have moved (07 R223): it is decoded as usual, and the preloaded
tracker is not touched. -/
def lateFrame (n k : Nat) (f : RxFrame) (s : State) : State :=
  let l := link s n
  let q := demodulate s n false false f
  let u := uplinkParse l.range (frameBits l.range q.syms)
  let s := bump (P.linkRunaheadUndos n) (measureFrame n f q s)
  let (ok, s) := crcVerdict n u.isSome s
  let b := dueOf l f.start
  match u with
  | some u =>
    let v := verdictOf s n k f q u
    if !ok then declareLoss n b (bump (P.linkFramesCrcFail n) s)
    else if u.airId ≠ l.air then declareLoss n b (intrusion n v s)
    else deliverFrame n v false (onLink n (fun l => { l with losses := 0 }) s)
  | none => declareLoss n b (bump (P.linkFramesCrcFail n) s)

/-- The window of an ACTIVE tracker, symbols to either side (07 R199, R223). -/
def syncWindow (l : Link) : Nat := if l.hopping.isSome then 2 else min 8 (2 + l.losses)

/-- The frame is that of the first period after a hop, whose taps begin as at acquisition. -/
def firstAfterHop (l : Link) (start : Nat) : Bool := l.hopping.any (fun h => decide (nearPeriod start ≤ h.period + 1))

/-- A frame of the ACTIVE tracker (07 R198, R211). -/
def activeFrame (n k : Nat) (f : RxFrame) (s : State) : State :=
  let l := link s n
  let t := trk l k
  if l.hopping.any (fun h => decide (nearPeriod f.start < h.period)) then lateFrame n k f s
  else if syncWindow l * symTicks < dist f.start t.start then s
  else if capturing l then abandonFrame n k s
  else
    let q := demodulate s n t.training (firstAfterHop l f.start) f
    let u := uplinkParse l.range (frameBits l.range q.syms)
    let undo := decide (1 < |f.syncErr|) || q.aerial != l.aerial || l.hopping.isSome
    let s := measureFrame n f q (if undo then bump (P.linkRunaheadUndos n) s else s)
    let (ok, s) := crcVerdict n u.isSome s
    let b := dueOf l f.start
    match u with
    | some u =>
      let v := verdictOf s n k f q u
      if !ok then loseFrame n k q b (bump (P.linkFramesCrcFail n) s)
      else if u.airId ≠ l.air then loseFrame n k q b (intrusion n v s)
      else hopDone n (deliverFrame n v l.hopping.isNone (follow n v s))
    | none => loseFrame n k q b (bump (P.linkFramesCrcFail n) s)

/-- UPLINK_FRAME: a frame of a tracker that verifies or is ACTIVE. A verdict of the same tracker that still waits takes effect
first. -/
def execUplinkFrame (n : Nat) (f : RxFrame) (s : State) : Host.Outcome State Fault Refusal :=
  .next (if !laneRuns s n || decide (1 < f.tracker) then s
    else
      let s := if (link s n).tie.any (fun v => v.trk == f.tracker) then settleTie n s else s
      let (t, f) := fillBuffers n f s
      match (trk (link s n) f.tracker).phase with
      | .verify => verifyFrame n f.tracker f t
      | .active => activeFrame n f.tracker f t
      | _ => s)

/-- SYNC_WINDOW_CLOSE: no sync word in the window of the ACTIVE tracker (07 R198, R199, R211). -/
def execSyncWindowClose (n : Nat) (s : State) : Host.Outcome State Fault Refusal :=
  let l := link s n
  .next (match activeTrk l with
    | some k =>
      let t := trk l k
      if !laneRuns s n || decide (now s < t.start + syncWindow l * symTicks) then s
      else if capturing l then abandonFrame n k s
      else
        let s := if firstAfterHop l t.start then
            onLink n (fun l => { l with tapsA := Taps.reset, tapsB := Taps.reset }) s else s
        declareLoss n (dueOf l t.start) (bump (P.linkFramesNoSync n) (bump (P.linkRunaheadUndos n)
          (onLink n (onTrk k (fun t => { t with start := t.start + t.len })) s)))
    | none => s)

/-- INTRUSION_BAR_END: bars whose 32 periods have passed are gone (07 R204). -/
def execIntrusionBarEnd (n : Nat) (s : State) : Host.Outcome State Fault Refusal :=
  .next (onLink n (fun l => { l with bars := l.bars.filter (fun b => decide (period s < b.untilPeriod)) }) s)

/-- LANE_REACQUIRE: a lane without an outcome for two due periods returns to SEARCH; frequency, taps and loops stay (07
R193). -/
def execLaneReacquire (n : Nat) (s : State) : Host.Outcome State Fault Refusal :=
  .next (if !(link s n).isOpen ∨ (link s n).silent < 2 then s
    else queueEvent 0x3010 n 0 (bump (P.linkLaneReacq n) (onLink n (fun l =>
      let t (x : Tracker) : Tracker := { x with phase := .search, training := false }
      { searchLane l with t0 := t l.t0, t1 := t l.t1 }) s)))

end Sys2Proof.Machine
end

