-- ==== Sys2Proof/Machine/LinkHops.lean ====
section
/-! DEFINITION. Hops of a link, and what a period boundary does to a link: output, concealment, quality, automatic hops (07
R193, R214, R215, R219 to R224). -/

namespace Sys2Proof.Machine

/-! ### Alternates (07 R219, R220) -/

/-- Frequencies that a choice is tested against: open links, running carriers, pending targets. -/
def hopSet (s : State) : List Nat :=
  (openLinks s).flatMap (fun p => p.2.freq :: p.2.hop.toList.map Hop.target) ++
    ((openCarriers s).filter (fun p => carrierEnabled p.2)).map (fun p => p.2.freq) ++
    (openCarriers s).flatMap (fun p => p.2.retune.toList.map Hop.target)

/-- Whether a frequency is an eligible alternate of a link. -/
def eligible (s : State) (n f : Nat) : Bool :=
  let k := coordOf s 0
  f != 0 && f != (link s n).freq && insideWindow (rxEdge s) f && permitted s.rf.perm false f &&
    (openLinks s).all (fun p => p.1 == n ||
      (p.2.freq :: p.2.hop.toList.map Hop.target).all (fun g => decide (k.spLink ≤ dist f g))) &&
    im3Ok k (hopSet s) f

/-- The level that a running scan gives an alternate: the largest MEAN of its band, 256 where a bin was never measured. -/
def scanRank (s : State) (f : Nat) : Nat :=
  ((bandBins f (halfBandOf false)).getD []).foldl (fun m b =>
    let x := smGet PlanBin.reset s.rf.bins b
    max m (if x.peak = 0 then 256 else x.mean)) 0

/-- The eligible alternates with their levels, in order. -/
def alternates (s : State) (n : Nat) (levels : List Nat) : List (Nat × Nat) :=
  (List.range 8).filterMap (fun j =>
    let f := smGet 0 s.rf.alt (8 * n + j)
    if eligible s n f then some (f, if s.rf.scan.isSome then scanRank s f else levels.getD j 0) else none)

/-- The lowest level wins, a tie goes to the lower alternate. -/
def bestAlternate : List (Nat × Nat) → Option (Nat × Nat)
  | [] => none
  | x :: l => some (l.foldl (fun b y => if y.2 < b.2 then y else b) x)

/-- HOP_ALT_CHOSEN: the choice at the boundary that ends the measuring period. -/
def execHopAltChosen (n : Nat) (levels : List Nat) (s : State) : Host.Outcome State Fault Refusal :=
  let l := link s n
  let p := period s
  .next (if !l.isOpen || !l.measuring then s
    else
      let s := onLink n (fun l => { l with measuring := false }) s
      if l.hop.isSome then s
      else
        let s := onLink n (fun l => { l with lastHop := some p }) s
        match bestAlternate (alternates s n levels) with
        | some a => scheduleHop n a.1 (nextBeacon (p + parNow s (P.linkHopLead n))) false s
        | none => queueEvent 0x3007 n (linkLqNow l) (bump (P.linkHopNoAlt n) s))

/-- Whether an automatic hop is considered for a link at this boundary (07 R219). -/
def considersHop (s : State) (n : Nat) : Bool :=
  let l := link s n
  l.isOpen && !l.starting && parNow s (P.linkHopCfg16 n) == 1 && parNow s (P.linkLqHopThreshold n) != 0 && l.session.isSome &&
    clRunning s && l.hop.isNone && !l.measuring &&
    l.lastHop.all (fun h => decide (h + parNow s (P.linkHopHoldoff n) ≤ period s)) &&
    decide (parNow s (P.linkHopCfg n) ≤ l.low)

/-! ### The hop boundary and the fallback (07 R223, R224) -/

/-- The lanes of a link have moved; a link on the privileged path is measured again at its new frequency (05 R137). -/
def remeasure (n : Nat) (s : State) : State :=
  tuneLanes n (match privOf s n with
    | some i => withTone (onPriv i (fun r => { r with measuring := true }))
        (onLink n (fun l => { l with onPriv := false, privNext := none }) s)
    | none => s)

/-- HOP_BOUNDARY: the NCOs move, the lane enters HOP, the tracker is preloaded. -/
def execHopBoundary (n : Nat) (s : State) : Host.Outcome State Fault Refusal :=
  .next (match (link s n).hop with
    | some h =>
      if period s < h.period then s
      else
        let s := settleTie n s
        let l := link s n
        let k := (activeTrk l).getD 0
        let t := trk l k
        let start := (h.period + 1) * periodLen
        let on : Tracker := { phase := .active, cand := start, start := start, len := t.len, df := t.df * h.target / l.freq,
                              tau := t.tau, level := t.level, training := true }
        let off : Tracker := { Tracker.reset with phase := .watch }
        let s := clearHopFields n (parSet (P.linkFreq n) h.target (unannounced 0 n h s))
        remeasure n (onLink n (fun l => { l with
          freq := h.target, hop := none, hopping := some { h with old := l.freq, concealed := 0 }, lastHop := some h.period
          t0 := if k = 0 then on else off, t1 := if k = 0 then off else on }) s)
    | none => s)

/-- HOP_FAILED: no frame was verified by the limit; the NCOs move back and the lane enters SEARCH. -/
def execHopFailed (n : Nat) (s : State) : Host.Outcome State Fault Refusal :=
  .next (match (link s n).hopping with
    | some h =>
      if period s < h.period + 2 + parNow s (P.linkHopFallback n) then s
      else remeasure n (queueEvent 0x3006 n h.target (bump (P.linkHopFails n) (parSet (P.linkFreq n) h.old
        (onLink n (fun l => { searchLane l with freq := h.old, hopping := none }) s))))
    | none => s)

/-! ### The period boundary (07 R193, R214, R215, R223) -/

/-- The frame of the hop period is absent and lost. -/
def hopLoss (n : Nat) (s : State) : State :=
  let l := link s n
  match l.hopping with
  | some h => if h.period + 1 = period s then declareLoss n (h.period + 2 + l.cls) s else s
  | none => s

/-- A lane that follows a transmitter has an outcome for the frame that ended two periods ago. -/
def hasOutcome (l : Link) (b : Nat) : Bool :=
  (activeTrk l).isNone || l.due.any (fun d => decide (b + l.cls ≤ d.1))

/-- The block of a period, decoded or concealed (07 R215): link after, and whether it is concealed. -/
def linkBlock (fade : Nat) (x : Option (List Int)) (l : Link) : Link × Bool :=
  match x with
  | some x =>
    match l.conceal with
    | some c => ({ l with out := crossFade x (concealBlock c fade), conceal := none }, false)
    | none => ({ l with out := x }, false)
  | none =>
    let c := l.conceal.getD (concealStart l.hist)
    ({ l with out := concealBlock c fade, conceal := some { c with k := min 1536 (c.k + 24) } }, true)

/-- A verdict that has waited until its frame's period and the one after it are over. -/
def lateTie (n : Nat) (s : State) : State :=
  if (link s n).tie.any (fun v => decide (nearPeriod v.start + 2 ≤ period s)) then settleTie n s else s

/-- What is due enters the mean, with 1 where it is output with concealment (07 R214). -/
def meanDue (d : Option DueFrame) (hid : Bool) (l : Link) : Link :=
  match d with
  | some d => if laneBlind l then l else { l with mean := meanStep l.mean (if hid then 1 else d.err) }
  | none => l

/-- After a dropped frame the next one is cross-faded from the concealment of the frame that is missing (07 R212, 01 R25): DESIGN
CHOICE. -/
def dropHeard (d : Option DueFrame) (l : Link) : Link :=
  if d.any DueFrame.dropped && l.conceal.isNone then { l with conceal := some (concealStart l.hist) } else l

/-- A link at a boundary; `missed`: the work of its output missed the deadline (03 R83). -/
def linkTick (missed : Bool) (n : Nat) (s : State) : State :=
  let s := hopLoss n (lateTie n s)
  let l := link s n
  let d := smFind l.due (period s)
  let b := period s
  let ds := [Dom.rfa, Dom.chz, Dom.dmd, Dom.abc]
  let x := if missed || !laneRuns s n || ds.any (domDown s) then none else d.bind DueFrame.x
  let (l, hid) := linkBlock (parNow s (P.linkConcealFade n)) x l
  let (out, s) := fadeIn ds l.out s
  let l := meanDue d hid { l with out := out }
  let silent := if hasOutcome l b then 0 else l.silent + 1
  let l := { l with
    silent := silent
    due := l.due.filter (fun d => decide (b < d.1))
    hist := (l.hist ++ l.out).drop (l.hist.length + l.out.length - 480)
    low := if linkLqNow l < parNow s (P.linkLqHopThreshold n) then min 65535 (l.low + 1) else 0 }
  let s := onLink n (fun _ => dropHeard d l) s
  let s := if hid then bump (P.linkFramesConcealed n) s else s
  if considersHop s n then onLink n (fun l => { l with measuring := true }) s else s

/-- Every open link at a boundary. -/
def linksTick (missed : List WorkRef) (s : State) : State :=
  each ((openLinks s).filter (fun p => !p.2.starting)) (fun p s => linkTick (missed.contains ⟨wkLink, p.1⟩) p.1 s) s

end Sys2Proof.Machine
end

