-- ==== Sys2Proof/Machine/AudioFlow.lean ====
section
/-! DEFINITION. The samples that the router moves: delays, routes, buses, destinations, ramps at zero crossings, taps (11
R328 to R338). A block of a source for a period holds the samples that leave a port output slot in that period when they
are routed there directly. -/

namespace Sys2Proof.Machine

/-! ### Blocks (11 R328) -/

/-- A block of 24 samples of 24 bits. -/
def block24 (x : List Int) : List Int := (List.range 24).map (fun i => clamp24 (x.getD i 0))

/-- A source delivers a block for the period; six periods are kept. -/
def pushBlock (src : Nat) (x : List Int) (s : State) : State :=
  onAudio (fun a =>
    let l := (block24 x :: smGet [] a.past src).take 6
    { a with past := if l.all (fun b => b.all (fun v => v == 0)) then smErase a.past src else smPut a.past src l }) s

/-- The block of a source in the present period is replaced. -/
def setBlock (src : Nat) (x : List Int) (s : State) : State :=
  pushBlock src x (onAudio (fun a => { a with past := smSet [] a.past src ((smGet [] a.past src).drop 1) }) s)

/-- The present block of a source. -/
def headBlock (s : State) (src : Nat) : List Int := (smGet [] s.audio.past src).headD []

/-- A source's samples `d` samples late. -/
def delayed (past : List (List Int)) (d : Nat) : List Int :=
  let flat := past.reverse.flatten
  (List.range 24).map (fun i => if d + 24 ≤ flat.length + i then flat.getD (flat.length + i - 24 - d) 0 else 0)

/-- The delay of a route against a direct route to a port: a local input reaches other destinations 0.5 ms later. -/
def moveDelay (s : State) (src dst : Nat) : Nat :=
  routeDelay s src dst + (match srcOf src, dstOf dst with
    | some (.mic _), some (.portOut _ _) => 0
    | some (.mic _), some (.localOut _) => 0
    | some (.mic _), some _ => 24
    | _, _ => 0)

/-! ### Routes, buses, destinations (11 R330, R333) -/

/-- A route that delivers samples. -/
def delivering (r : Route) : Bool := r.active && (r.inUse || r.fading)

/-- The samples of a route before and after its gain. -/
def routeIn (s : State) (r : Route) : List Int := delayed (smGet [] s.audio.past r.src) (moveDelay s r.src r.dst)
def routeBlock (s : State) (r : Route) : List Int × Bool := rampBlock r.ramp (routeIn s r)

def isBusSrc (i : Nat) : Bool := match srcOf i with | some (.bus _) => true | _ => false

/-- The routes from buses, or the others, take their samples of the period. -/
def runRoutes (bus : Bool) (s : State) : State :=
  onAudio (fun a => { a with routes := smMap Route.reset (fun _ r =>
    if delivering r && isBusSrc r.src == bus then { r with out := (routeBlock s r).1 }
    else if delivering r then r else { r with out := [] }) a.routes }) s

/-- The sum of the routes that deliver to a destination. -/
def sumInto (s : State) (dst : Nat) : List Int :=
  let rs := (s.audio.routes.filter (fun p => delivering p.2 && p.2.dst == dst)).map (fun p => p.2.out)
  (List.range 24).map (fun i => (rs.map (fun x => x.getD i 0)).sum)

/-- The buses that a delivering route feeds. -/
def liveBuses (s : State) : List Nat :=
  (List.range 32).filter (fun b => s.audio.routes.any (fun p => delivering p.2 && p.2.dst == 0x1200 + b))

/-- The destinations other than buses that a delivering route feeds. -/
def liveDests (s : State) : List Nat :=
  ((s.audio.routes.filter (fun p => delivering p.2 && (busOfDst p.2.dst).isNone)).map (fun p => p.2.dst)).dedup

/-- The samples of every route, bus and destination in the present period; nothing flows while AUD, or for buses ABC, is
down. `bad` are buses and routes whose work missed its deadline: their samples are a fade of the last block, whose shape is
free. -/
def runRouter (bad : List WorkRef) (s : State) : State :=
  let old := s
  let s := runRoutes false s
  let spoil (w : WorkRef) (last : List Int) (x : List Int) : List Int :=
    if bad.contains w then freeFade s.free last else x
  let spoilt (n : Nat) (r : Route) : Route :=
    let x := spoil ⟨wkRoute, n⟩ (route old n).out r.out
    { r with out := if r.out = [] then [] else x }
  let s := onAudio (fun a => { a with routes := smMap Route.reset spoilt a.routes }) s
  let s := each (liveBuses s) (fun b s =>
    let x := if domDown s Dom.abc then [] else
      spoil ⟨wkBus, b⟩ (((smGet [] old.audio.past (0x200 + b)).drop 1).headD []) (rampBlock (bus s b).ramp (sumInto s (0x1200 + b))).1
    setBlock (0x200 + b) (if fadesIn s [Dom.abc] then freeFade s.free x else x) s) s
  let s := runRoutes true s
  let dest := (if domDown s Dom.aud then [] else liveDests s).foldl (fun m d =>
    let x := block24 (sumInto s d)
    smSet (List.replicate 24 0) m d (if fadesIn s [Dom.aud] then freeFade s.free x else x)) []
  onAudio (fun a => { a with dest := dest }) s

/-- The samples at a destination in the present period. -/
def destBlock (s : State) (d : Nat) : List Int := smGet (List.replicate 24 0) s.audio.dest d

/-! ### Ramps (11 R334, R335) -/

/-- The channel that a ramp watches: the source of a route, the sum of a bus. -/
def zcChannel (s : State) (isBus : Bool) (n : Nat) : List Int :=
  if isBus then sumInto s (0x1200 + n) else routeIn s (route s n)

/-- A zero crossing lies at a sample: it and the one before it have a product that is 0 or negative. The pair that spans a boundary
counts where the search watched the period before: DESIGN CHOICE. -/
def crossesAt (edge : Option Int) (x : List Int) (i : Nat) : Bool :=
  if i = 0 then edge.any (fun e => decide (e * x.getD 0 0 ≤ 0)) else decide (x.getD (i - 1) 0 * x.getD i 0 ≤ 0)

/-- The first zero crossing of a block. -/
def firstCrossing (edge : Option Int) (x : List Int) : Option Nat := (List.range 24).find? (crossesAt edge x)

/-- At the end of a period a ramp that still waits keeps the last sample of its channel. -/
def Ramp.watch (x : List Int) (r : Ramp) : Ramp := { r with edge := if r.phase = 1 then some (x.getD 23 0) else none }

/-- The ramp of a route or bus. -/
def rampOf (s : State) (isBus : Bool) (n : Nat) : Ramp := if isBus then (bus s n).ramp else (route s n).ramp

def onRamp (isBus : Bool) (n : Nat) (f : Ramp → Ramp) (s : State) : State :=
  if isBus then onBus n (fun b => { b with ramp := f b.ramp }) s else onRoute n (fun r => { r with ramp := f r.ramp }) s

/-- ZERO_CROSSING: the ramp begins at the first crossing of the period, and the samples of the period follow it. -/
def execZeroCrossing (isBus : Bool) (n sample : Nat) (s : State) : Host.Outcome State Fault Refusal :=
  .next (if (rampOf s isBus n).phase ≠ 1 ∨ firstCrossing (rampOf s isBus n).edge (zcChannel s isBus n) ≠ some sample then s
    else runRouter [] (onRamp isBus n (Ramp.fire sample) s))

/-- `AUD.ZC_TIMEOUT` in ticks. -/
def zcLimit (s : State) : Nat := parGet s P.audZcTimeout * 122880

/-- ZC_TIMEOUT: no crossing was found; the ramp begins at the first sample of the period. -/
def execZcTimeout (isBus : Bool) (n : Nat) (s : State) : Host.Outcome State Fault Refusal :=
  let r := rampOf s isBus n
  .next (if r.phase ≠ 1 ∨ now s < r.since + zcLimit s then s
    else runRouter [] (onRamp isBus n (Ramp.fire 0) (bump P.audZcTimeouts s)))

/-- ROUTE_FADE_END: a cleared route is at off; it is removed at the next boundary. -/
def execRouteFadeEnd (n : Nat) (s : State) : Host.Outcome State Fault Refusal :=
  .next (if (route s n).fading && (route s n).ramp.endsNow then onRoute n (fun r => { r with ended := true }) s else s)

/-! ### What the end of a period does (11 R330, R331, R333, R338) -/

/-- The blocks of the period that ends are counted where they saturated, and the ramps go on. -/
def closeBlocks (s : State) : State :=
  let rs := (s.audio.routes.filter (fun p => delivering p.2 && (routeBlock s p.2).2)).length
  let bs := ((liveBuses s).filter (fun b => (rampBlock (bus s b).ramp (sumInto s (0x1200 + b))).2)).length
  let s := if domDown s Dom.aud then s else bumpBy rs P.audRouteSats (bumpBy bs P.audBusSats s)
  onAudio (fun a => { a with
    routes := smMap Route.reset (fun n r => { r with ramp := r.ramp.advance.watch (zcChannel s false n) }) a.routes
    buses := smMap Bus.reset (fun n b => { b with ramp := b.ramp.advance.watch (zcChannel s true n) }) a.buses }) s

/-- A sample in a tap buffer. -/
def tapBytes (packing : Nat) (x : Int) : List Nat :=
  (List.range packing).map (fun i => uint (8 * packing) x / 2 ^ (8 * i) % 256)

/-- A tap writes the samples of its route, then its pointer moves. -/
def writeTap (t : Nat) (s : State) : State :=
  let p := tap s t
  let r := route s p.route
  if p.length = 0 ∨ !delivering r ∨ domDown s Dom.aud ∨ domDown s Dom.mem then s
  else
    let bytes := (List.range 24).flatMap (fun i => tapBytes p.packing (r.out.getD i 0))
    let s := { s with mem := smSetList 0 s.mem p.wr bytes }
    let w := p.wr + bytes.length
    let wraps := decide (p.start + p.length ≤ w)
    let s := onTap t (fun p => { p with wr := if wraps then p.start else w }) s
    if wraps then
      let s := bump (P.audTapWraps t) s
      queueLimited (0x6008 * 65536 + t) (sec1 / 10) 0x6008 t (parGet s (P.audTapWraps t)) s
    else s

/-- Every tap whose route has run. -/
def writeTaps (s : State) : State := each (List.range 16) writeTap s

/-- Routes whose fade has ended are removed (11 R331). -/
def removeEnded (s : State) : State :=
  each ((s.audio.routes.filter (fun p => p.2.fading && (p.2.ended || !p.2.active))).map Prod.fst) (fun n s =>
    let d := (route s n).dst
    let s := endWork ⟨wkRoute, n⟩ (onRoute n (fun _ => Route.reset) s)
    match busOfDst d with
    | some b => recostBus b s
    | none => s) s

/-- At a boundary admitted routes become ACTIVE, and changed gains begin their search (11 R334). -/
def startRamps (s : State) : State :=
  let wait := parGet s P.audZcEnable == 1
  let t := now s
  let live (n : Nat) : Bool := (chargeOf s ⟨wkRoute, n⟩).any (fun c => c.old != noPrice)
  onAudio (fun a => { a with
    routes := smMap Route.reset (fun n r => { r with
      active := r.active || (r.inUse && live n), ramp := if live n then r.ramp.start t wait else r.ramp }) a.routes
    buses := smMap Bus.reset (fun _ b => { b with ramp := b.ramp.start t wait }) a.buses }) s

end Sys2Proof.Machine
end

