-- ==== Sys2Proof/Machine/Serial.lean ====
section
/-! DEFINITION. The serial frames of the audio ports (11 R313 to R316) and the rate matcher of an ASRC port (11 R312, R317). -/

namespace Sys2Proof.Machine

/-! ### Slots (11 R313, R314) -/

/-- Frames of a port in a period. -/
def portFrames (c : PortCfg) : Nat := if c.rate = 1 then 48 else 24

/-- The bits that a sample puts into a slot, as a number. -/
def slotWord (c : PortCfg) (v : Int) : Nat :=
  if c.slotBits = 16 then uint 16 (clampI (-32768) 32767 ((v + 128) / 256))
  else if c.slotBits = 24 then uint 24 v
  else uint 24 v * 256

/-- The sample that a slot's bits carry. -/
def wordSample (c : PortCfg) (w : Nat) : Int :=
  if c.slotBits = 16 then sint 16 w * 256 else if c.slotBits = 24 then sint 24 w else sint 24 (w / 256)

/-- The value that a slot carries of a sample. -/
def slotValue (c : PortCfg) (v : Int) : Int := wordSample c (slotWord c v)

/-! ### Frames (11 R313) -/

/-- Bit-clock cycles of a frame. -/
def frameLen (c : PortCfg) : Nat := c.slots * c.slotBits

/-- Cycles from the frame start to frame bit 0. -/
def frameDelay (s : State) (p : Nat) (c : PortCfg) : Nat :=
  if c.format = 0 then 1 else if c.format = 1 then 0 else 1 - parGet s (P.audPortCfg2 p)

/-- The cycle of a frame in which frame bit `j` is sent and sampled; one past the last is cycle 0 of the next frame. -/
def bitCycle (s : State) (p j : Nat) : Nat := j + frameDelay s p (port s p).cfg

/-- `Pn_FSYNC` of a master in a cycle of its frame. -/
def fsyncHigh (s : State) (p cycle : Nat) : Bool :=
  let c := (port s p).cfg
  let first := decide (2 * cycle < frameLen c)
  let x := if c.format = 0 then !first else if c.format = 1 then first else cycle == 0
  x != (parGet s (P.audPortCfg1 p) == 1)

/-- `Pn_BCLK` of a master in the first half of a cycle, which begins at the sampling edge, and in the second, at whose beginning
`Pn_DOUT` changes. -/
def bclkHigh (s : State) (p : Nat) (second : Bool) : Bool := (!second) != (parGet s (P.audPortCfg p) == 1)

/-- Whether `Pn_FSYNC` going to a level is the transition that begins a frame: falling in I2S, rising otherwise. -/
def startsFrame (s : State) (p : Nat) (level : Bool) : Bool :=
  level == (((port s p).cfg.format != 0) != (parGet s (P.audPortCfg1 p) == 1))

/-- `Pn_DOUT` in frame bit `j` of frame `i` of the present period: most significant bit first; none: released (11 R315). -/
def doutBit (s : State) (p i j : Nat) : Option Bool :=
  let q := port s p
  let k := j / q.cfg.slotBits
  if q.cfg.outMask.testBit k then
    some ((slotWord q.cfg ((smGet [] q.outBlocks k).getD i 0)).testBit (q.cfg.slotBits - 1 - j % q.cfg.slotBits))
  else if q.cfg.drive = 0 then some false else none

/-- The sample of slot `k` in a frame that comes in, from the levels at its sampling edges. -/
def dinSample (s : State) (p k : Nat) (frame : List Bool) : Int :=
  let c := (port s p).cfg
  wordSample c (bitsNat ((frame.drop (bitCycle s p (k * c.slotBits))).take c.slotBits))

/-! ### The rate matcher (11 R312, R317) -/

/-- Whether an ASRC port resamples: at 96 kHz, and as a slave. A master at 48 kHz has a ratio of exactly 1, and its samples pass:
DEDUCED. -/
def resamples (c : PortCfg) : Bool := !isSlip c && (c.rate == 1 || c.role == 1)

/-- `n` samples that the rate matcher makes of a block: their values are free. -/
def resample (d n : Nat) (x : List Int) : List Int := (List.range n).map (fun i => clamp24 (Config.asrcSample d i x))

/-- A block as the frames of a port carry it, before the slots. -/
def toFrames (c : PortCfg) (d : Nat) (x : List Int) : List Int := if resamples c then resample d (portFrames c) x else x

/-- The samples of a slot's frames as a block for the router. -/
def fromFrames (c : PortCfg) (d : Nat) (x : List Int) : List Int := if resamples c then resample d 24 x else x

end Sys2Proof.Machine
end

