-- ==== Sys2Proof/Machine/PortEvents.lean ====
section
/-! DEFINITION. The instants of the audio ports: start, stop, loss, return, rate changes, glitches, slips, and what a period
boundary does to a port (11 R314 to R327, 18 R471). Without a clock the port engines are held stopped (04 R95). -/

namespace Sys2Proof.Machine

/-! ### Start and stop (11 R320 to R322) -/

/-- PORT_START_INSTANT: at S an ARMED port begins frames. A master's ratio is exact, so its ASRC has acquired; a slip port
centres its buffers and does not fade. -/
def execPortStartInstant (p : Nat) (s : State) : Host.Outcome State Fault Refusal :=
  .next (match (port s p).phase, (port s p).startAt with
    | .armed, some t =>
      if now s < t || !domOn s Dom.aud || unclocked s then s
      else
        let slip := isSlip (port s p).cfg
        queueEvent 0x6005 p (t % 2 ^ 32) (parSet P.audStartTimeLo (t % 2 ^ 32) (parSet P.audStartTimeHi (t / 2 ^ 32)
          (onPort p (fun q => { q with phase := .running, startAt := none, differs := 0
                                       acquired := !slip && q.cfg.role == 0, fade := if slip then 2 else 0 }) s)))
    | _, _ => s)

/-- START_TRIG: a qualified edge; S is the first grid instant at least 10 us later. The ball is ignored while its bank is off
(19 R475). -/
def execStartTrig (s : State) : Host.Outcome State Fault Refusal :=
  .next (if !domOn s Dom.aud || unclocked s || !s.supply.ioaOn then s
    else
      let t := ceilDiv (now s + 1229) 2560 * 2560
      each (List.range 6) (fun p => onPort p (fun q =>
        if q.phase == .armed && q.start == 1 && q.startAt.isNone then { q with startAt := some t } else q))
        (bump P.audStartTrigs s))

/-- PORT_STOP commands whose ports have all stopped complete. -/
def donePortStops (s : State) : State :=
  each (s.running.filter (fun r => match r.wait with | .portStop m => portsStopping m s == 0 | _ => false))
    (fun r s => workDone (progOf r.cmd) r s) s

/-- PORT_STOPPED: the fade of 1 ms of a stopping port has ended, and the frame with it. -/
def execPortStopped (p : Nat) (s : State) : Host.Outcome State Fault Refusal :=
  let q := port s p
  .next (if !q.stopping || unclocked s || decide (now s < q.stopAt + 122880) then s
    else settle (donePortStops (queueEvent 0x6006 p q.stopCause (onPort p (fun q => { q with
      phase := .stopped, stopping := false, acquired := false, differs := 0, fade := 0, outBlocks := [], slip := none, spoilt := false }) s))))

/-! ### Loss and return (11 R324, R325) -/

/-- A slave port that has a clock. -/
def clocked (q : Port) : Bool :=
  q.cfg.role == 1 && (q.phase == .running || q.phase == .reacquiring || q.phase == .rateMuted)

/-- PORT_LOST: the clock is absent, or a count error. -/
def execPortLost (p cause : Nat) (s : State) : Host.Outcome State Fault Refusal :=
  .next (if !clocked (port s p) || unclocked s then s
    else queueEvent 0x6001 p cause (bump (P.audPortLost p)
      (onPort p (fun q => { q with phase := .lost, acquired := false, differs := 0, gridRun := 0 }) s)))

/-- PORT_EDGES_RETURN: the port realigns. -/
def execPortEdgesReturn (p : Nat) (s : State) : Host.Outcome State Fault Refusal :=
  .next (if (port s p).phase = .lost ∧ !unclocked s then onPort p (fun q => { q with phase := .reacquiring }) s else s)

/-- PORT_RETURNED: the port runs again and fades in. -/
def execPortReturned (p us : Nat) (s : State) : Host.Outcome State Fault Refusal :=
  .next (if (port s p).phase = .reacquiring ∧ !unclocked s then
      queueEvent 0x6002 p us (onPort p (fun q => { q with phase := .running, acquired := !isSlip q.cfg, fade := 0, differs := 0 }) s)
    else s)

/-- ASRC_ACQUIRED: the inputs and outputs fade in. -/
def execAsrcAcquired (p : Nat) (s : State) : Host.Outcome State Fault Refusal :=
  .next (if (port s p).phase = .running ∧ !isSlip (port s p).cfg ∧ !unclocked s then onPort p (fun q => { q with acquired := true }) s else s)

/-- A glitch spoils one input frame, which is counted and reported. -/
def glitch (p : Nat) (s : State) : State :=
  queueCounted (0x6003 * 65536 + p) sec1 0x6003 p (bump (P.audPortGlitches p) (onPort p (fun q => { q with spoilt := true }) s))

/-- PORT_GLITCH: a frame whose count is off by one. -/
def execPortGlitch (p : Nat) (s : State) : Host.Outcome State Fault Refusal :=
  .next (if (port s p).cfg.role = 1 ∧ (port s p).phase = .running ∧ !unclocked s then glitch p s else s)

/-- A slip port slips one frame in both directions: one is filled and one dropped, whichever clock is the faster (11 R318). -/
def slipFrame (p : Nat) (faster : Bool) (s : State) : State :=
  queueCounted (0x6007 * 65536 + p) sec1 0x6007 p (bump (P.audPortUnderruns p) (bump (P.audPortOverruns p)
    (onPort p (fun q => { q with slip := some faster }) s)))

/-- PORT_SLIP. -/
def execPortSlip (p : Nat) (faster : Bool) (s : State) : Host.Outcome State Fault Refusal :=
  .next (if isSlip (port s p).cfg ∧ (port s p).cfg.role = 1 ∧ (port s p).phase = .running ∧ !unclocked s then slipFrame p faster s
    else s)

/-! ### Rate changes (11 R323, R326) -/

/-- The measured rate as PORT_RATE_CHANGE carries it. -/
def rateHz (q : Port) : Nat := (nearest 8 q.rate 1000).toNat % 2 ^ 31

/-- The port follows the measured class, as PORT_CONFIG would with every other field kept. -/
def followRate (p : Nat) (s : State) : State :=
  let q := port s p
  if parGet s (P.audPortAutoFollow p) ≠ 1 ∨ portClass q = 0 then s
  else
    let c := { q.cfg with rate := portClass q - 1 }
    match portCheck p c s with
    | (.ok, t) => applyPortCfg p c (commitWork (portWork p c t) t)
    | (_, t) => queueEvent 0x6004 p (rateHz q + 2 ^ 31) t

/-- A port whose class has changed is muted. -/
def muteRate (p : Nat) (s : State) : State :=
  let s := onPort p (fun q => { q with phase := .rateMuted, acquired := false, differs := 0 }) s
  followRate p (queueEvent 0x6004 p (rateHz (port s p)) (bump (P.audPortRateChanges p) s))

/-- The grid flag after a measurement of 2 ms in which no frame start lay further than `off` ticks from its grid instant: set by 100 ms
within 1 µs, cleared by more than 2 µs (11 R316). -/
def gridStep (off : Nat) (q : Port) : Port :=
  let run := if off ≤ 122 then min 50 (q.gridRun + 1) else 0
  { q with gridRun := run, onGrid := if 246 ≤ off then false else q.onGrid || run == 50 }

/-- What a measurement of the frame rate shows (11 R316, R317, R323). -/
def measuredPort (rate : Nat) (ratio : Int) (off : Nat) (q : Port) : Port :=
  gridStep off { q with rate := rate, ratio := if isSlip q.cfg then 0 else ratio }

/-- PORT_RATE_MEASURED: the measurement of 2 ms. -/
def execPortRateMeasured (p rate : Nat) (ratio : Int) (off : Nat) (s : State) : Host.Outcome State Fault Refusal :=
  let q := port s p
  .next (if !clocked q || unclocked s then s
    else
      let s := onPort p (measuredPort rate ratio off) s
      let cls := portClass (port s p)
      let same := cls == cfgClass q.cfg
      match q.phase with
      | .running =>
        if same then onPort p (fun q => { q with differs := 0 }) s
        else if q.differs = 0 then onPort p (fun q => { q with differs := 1 }) s
        else muteRate p s
      | .reacquiring => if same then s else muteRate p s
      | _ =>
        if same then onPort p (fun q => { q with phase := .reacquiring }) s
        else if cls = portClass q then s else followRate p s)

/-! ### The period boundary -/

/-- A port that carries audio. -/
def portUp (s : State) (q : Port) : Bool :=
  q.phase == .running && (isSlip q.cfg || q.acquired) && !q.stopping && !domDown s Dom.aud

/-- A block under the port's own fade (11 R322 to R326). -/
def portFade (up : Bool) (fade d : Nat) (x : List Int) : List Int :=
  if up then (if fade < 2 then freeFade d x else x)
  else if 0 < fade then freeFade d x else List.replicate 24 0

/-- The fill of a frame that a direction lacks: the previous sample of its slot, or zero (11 R318). -/
def fillWith (s : State) (p : Nat) (previous : Int) : Int := if parGet s (P.audPortCfg3 p) = 1 then 0 else previous

/-- The samples of a slot of a slip port from the frames of a period: the one that a glitch has spoilt is replaced by the one before
it; a slip drops one, or fills one. Both fall at the first frame of the period: DESIGN CHOICE (11 R318, R325). -/
def slipIn (s : State) (p k : Nat) (x : List Int) : List Int :=
  let q := port s p
  let before := (headBlock s (0x100 + 32 * p + k)).getLastD 0
  let x := if q.spoilt then before :: x.drop 1 else x
  match q.slip with
  | some true => x.drop 1
  | some false => fillWith s p before :: x
  | none => x

/-- The samples that an output slot of a slip port carries in a period: a slip adds a filled frame, or drops one. -/
def slipOut (s : State) (p k : Nat) (x : List Int) : List Int :=
  match (port s p).slip with
  | some true => fillWith s p ((smGet [] (port s p).outBlocks k).getLastD 0) :: x
  | some false => x.drop 1
  | none => x

/-- The block of an input slot: of a slip port from its frames, of an ASRC port from the rate matcher; or of the looped output slot. -/
def portInput (env : PeriodEnv) (p k : Nat) (s : State) : List Int :=
  let q := port s p
  if q.loopback then fromFrames q.cfg s.free (smGet [] q.outBlocks k)
  else if isSlip q.cfg then
    ((env.lines.find? (fun b => b.port == p)).map (fun b => slipIn s p k (b.frames.map (dinSample s p k)))).getD []
  else ((env.ports.find? (fun b => b.port == p && b.slot == k)).map PortBlock.samples).getD []

/-- The input slots of a port deliver their blocks; `missed`: the port's work missed its deadline (11 R319). -/
def portSources (env : PeriodEnv) (missed : List WorkRef) (p : Nat) (s : State) : State :=
  let q := port s p
  let up := portUp s q
  each (maskBits 32 q.cfg.inMask) (fun k s =>
    let x := if missed.contains ⟨wkPort, p⟩ then [] else portFade up q.fade s.free (block24 (portInput env p k s))
    pushBlock (0x100 + 32 * p + k) (if (smFind q.newSlots k).isSome then freeFade s.free x else x) s) s

/-- The output slots of a port carry their blocks, frame by frame; where the interior missed its deadline each frame is filled (11
R312 to R319). -/
def portSlots1 (missed : List WorkRef) (p : Nat) (s : State) : State :=
  let q := port s p
  let n := portFrames q.cfg
  let up := portUp s q
  let fill (k : Nat) : List Int := List.replicate n (fillWith s p ((smGet [] q.outBlocks k).getLastD 0))
  let out (k : Nat) : List Int :=
    if missed.contains ⟨wkPort, p⟩ then fill k
    else if !up then List.replicate n 0
    else
      let x := portFade up q.fade s.free (destBlock s (0x1100 + 32 * p + k))
      (toFrames q.cfg s.free (if (smFind q.newSlots k).isSome then freeFade s.free x else x)).map (slotValue q.cfg)
  let blocks := (maskBits 32 q.cfg.outMask).foldl (fun m k => smSet (List.replicate n 0) m k (slipOut s p k (out k))) []
  onPort p (fun q => { q with
    outBlocks := if q.phase == .running then blocks else []
    fade := if up then min 2 (q.fade + 1) else q.fade - 1
    slip := none
    spoilt := false
    newSlots := (q.newSlots.filter (fun x => 1 < x.2)).map (fun x => (x.1, x.2 - 1)) }) s

/-- New masks take effect; a newly used ASRC channel fades in (11 R327). -/
def portMasks (p : Nat) (s : State) : State :=
  match (port s p).next with
  | none => s
  | some c =>
    let q := port s p
    let fresh := if isSlip c then [] else (maskBits 32 (Nat.lor c.inMask c.outMask)).filter (fun k =>
      !(Nat.lor q.cfg.inMask q.cfg.outMask).testBit k)
    showPort p c (onPort p (fun q => { q with cfg := c, next := none, newSlots := fresh.map (fun k => (k, 2)) }) s)

/-- The ports at a boundary, before the router and after it. -/
def portsIn (env : PeriodEnv) (missed : List WorkRef) (s : State) : State :=
  each (List.range 6) (portSources env missed) (each (List.range 6) portMasks s)
def portsOut (missed : List WorkRef) (s : State) : State := each (List.range 6) (portSlots1 missed) s

end Sys2Proof.Machine
end

