-- ==== Sys2Proof/Machine/AnalogEvents.lean ====
section
/-! DEFINITION. The instants of local analog audio: sequences, jacks, speaker faults, bias limits, and what a period boundary
does to inputs and outputs (12 R342 to R362). -/

namespace Sys2Proof.Machine

def onAnalog (f : Analog → Analog) (s : State) : State := { s with ana := f s.ana }

/-! ### Sequences (12 R342 to R355) -/

/-- An object reaches the state its sequence runs to; an output begins at its set gain. -/
def sequenceEnds (t : Nat) (s : State) : State :=
  let o := ana s t
  let gain := outGain s t
  onAna t (fun _ =>
    if o.up then { o with phase := 2, ramp := if t < 6 then o.ramp else Ramp.at gain } else AnaObj.reset) s

/-- ANALOG_SEQUENCE_END: the sequence of an object ends, and with it the command that waits for it. -/
def execAnalogSequenceEnd (t : Nat) (s : State) : Host.Outcome State Fault Refusal :=
  .next (if ((ana s t).phase ≠ 1 ∧ (ana s t).phase ≠ 3) ∨ now s < (ana s t).endAt then s else settle (doneWaiting (.analogSeq t) (sequenceEnds t s)))

/-! ### Jacks (12 R357 to R359) -/

/-- JACK_CHANGED: a debounced change acts on every output that follows the jack; none comes within a debounce time of the last, or of
the start of ANA (12 R357 to R359). -/
def execJackChanged (jack : Nat) (inserted : Bool) (s : State) : Host.Outcome State Fault Refusal :=
  let (was, since) := if jack = 1 then (s.ana.jack1, s.ana.jack1At) else (s.ana.jack2, s.ana.jack2At)
  .next (if domDown s Dom.ana || decide (jack ≠ 1 ∧ jack ≠ 2) || was == inserted ||
      decide (now s < since + msTicks (parGet s P.audJackState8)) then s
    else
      let s := onAnalog (fun a => if jack = 1 then { a with jack1 := inserted, jack1At := now s }
        else { a with jack2 := inserted, jack2At := now s }) s
      reviseJacks (queueEvent 0x6010 jack (b2n inserted) (bump P.audJackChanges s)))

/-! ### The speaker (12 R356) -/

/-- The speaker is clamped at once: FAULT, or until its restart, 100 ms or the 10 ms of a recovered supply later. A sequence that it
interrupts has ended: DESIGN CHOICE. -/
def clampSpeaker (why : Nat) (stays : Bool) (s : State) : State :=
  let s := queueEvent 0x6011 0 (why + 256 * b2n stays) (bump P.audSpkFaults s)
  doneWaiting (.analogSeq 8) (onAnalog (fun a => { a with spkRestart := !stays, spkDue := now s + msTicks (if why = 1 then 100 else 10) })
    (onAna 8 (fun _ => { AnaObj.reset with phase := if stays then 4 else 0 }) s))

/-- The speaker drives its pins. -/
def speakerLive (s : State) : Bool :=
  !domDown s Dom.ana && ((ana s 8).phase == 1 || (ana s 8).phase == 2 || (ana s 8).phase == 3)

/-- SPK_OVERCURRENT: the third within 1 s leaves the speaker in FAULT. -/
def execSpkOvercurrent (s : State) : Host.Outcome State Fault Refusal :=
  .next (if !speakerLive s then s
    else
      let l := now s :: s.ana.spkFaults.filter (fun t => now s < t + sec1)
      settle (clampSpeaker 1 (decide (3 ≤ l.length)) (onAnalog (fun a => { a with spkFaults := l }) s)))

/-- SPK_UNDERVOLTAGE. -/
def execSpkUndervoltage (s : State) : Host.Outcome State Fault Refusal :=
  .next (if !speakerLive s then s else settle (clampSpeaker 2 false s))

/-- SPK_RESTART: the speaker starts again, where it is still to run. -/
def execSpkRestart (s : State) : Host.Outcome State Fault Refusal :=
  .next (if !s.ana.spkRestart || domDown s Dom.ana || decide (now s < s.ana.spkDue) then s else reviseAna 8 (onAnalog (fun a => { a with spkRestart := false }) s))

/-! ### Bias outputs (12 R349) -/

/-- MICBIAS_LIMIT: a bias output, 1 or 2, enters its current limit. -/
def execMicbiasLimit (bias : Nat) (s : State) : Host.Outcome State Fault Refusal :=
  let o := ana s (3 + bias)
  .next (if domDown s Dom.ana || decide (bias ≠ 1 ∧ bias ≠ 2) || o.phase == 0 || o.limit then s
    else queueEvent 0x6012 bias 0 (bump P.audMicbiasLimits (onAna (3 + bias) (fun o => { o with limit := true }) s)))

/-- MICBIAS_CURRENT_LIMIT_RECOVERY. -/
def execMicbiasCurrentLimitRecovery (bias : Nat) (s : State) : Host.Outcome State Fault Refusal :=
  .next (if bias = 1 ∨ bias = 2 then onAna (3 + bias) (fun o => { o with limit := false }) s else s)

/-! ### The period boundary (12 R342, R344, R346, R348) -/

/-- The ramp of an object goes on at a crossing of its channel, or after `AUD.ZC_TIMEOUT`. -/
def anaCross (t : Nat) (x : List Int) (s : State) : State :=
  let r := (ana s t).ramp
  if r.phase ≠ 1 then s
  else match firstCrossing r.edge x with
    | some i => onAna t (anaRampFire t i) s
    | none => if now s < r.since + zcLimit s then s else onAna t (anaRampFire t 0) (bump P.audZcTimeouts s)

def anaAdvance (t : Nat) (x : List Int) (s : State) : State := onAna t (fun o => { o with ramp := o.ramp.advance.watch x }) s

/-- Clipped samples of an ADC block. -/
def clips (x : List Int) : Nat := (x.filter (fun v => decide (8388607 ≤ |v|))).length

/-- An input delivers its block. -/
def micSource (env : PeriodEnv) (i : Nat) (s : State) : State :=
  let x := block24 (env.mics.getD i [])
  if domDown s Dom.ana then pushBlock (0x400 + i) [] s
  else
    let s := anaCross i x s
    let b := micBlock s i s.free x
    anaAdvance i x (pushBlock (0x400 + i) b (draw s).2)

/-- Inputs that clipped in the period that ends. -/
def micClips (env : PeriodEnv) (s : State) : State :=
  let l := (List.range 4).filter (fun i => !domDown s Dom.ana && (ana s i).phase != 0 && decide (0 < clips (env.mics.getD i [])))
  let s := if l = [] then s else bump P.audLocalClips s
  each l (fun i s => queueLimited (0x6013 * 65536 + i) sec1 0x6013 i (clips (env.mics.getD i [])) s) s

/-- The inputs at a boundary. -/
def micsIn (env : PeriodEnv) (s : State) : State := each (List.range 4) (micSource env) (micClips env s)

/-- Gain changes begin their search. -/
def anaRamps (s : State) : State :=
  let wait := parGet s P.audZcEnable == 1
  each [0, 1, 2, 3, 6, 7, 8] (fun t s => onAna t (anaRampStart t (now s) wait) s) s

/-! ### Local outputs (12 R350 to R354) -/

/-- The block of a local output: its destination under attenuation or mute; while its sequence runs, a fade of free shape behind the
charge pump's 2 ms or the speaker's 20 ms of common mode, in which it is silent. -/
def outputBlock (s : State) (t : Nat) (x : List Int) : List Int :=
  let o := ana s t
  let lead := outLen t - msTicks 1
  let p := anaPos s t
  if domDown s Dom.ana then []
  else if o.phase = 2 then (rampBlock o.ramp x).1
  else if o.phase = 1 then (if p + periodLen ≤ lead then [] else freeFade s.free x)
  else if o.phase = 3 then (if p ≤ lead then [] else freeFade s.free x)
  else []

/-- The greatest sample whose differential peak lies below 0.9 of `VDD_SPK`, in mV: a sine of 0 dBFS gives 3.10 V rms (12 R353). -/
def spkTop (vdd : Nat) : Nat := isqrt (((9 * vdd * 8388607) ^ 2 - 1) / (2 * 31000 ^ 2))

/-- Whether the speaker's limiter acts: a peak had to be held down in the present period, or has been in the 500 ms of its release and
the 1 ms of its action. -/
def limiterActs (s : State) : Bool := s.ana.limitAt.any (fun t => decide (now s < t + 501 * 122880))

/-- A sample behind the limiter, which never exceeds the limit nor the sample itself; between them it is free. -/
def limited (d top i : Nat) (v : Int) : Int :=
  let m : Int := min v.natAbs top
  if 0 ≤ v then clampI 0 m (Config.limiterSample d i v) else clampI (-m) 0 (Config.limiterSample d i v)

/-- The speaker's block behind its peak limiter. -/
def spkOut (vdd : Nat) (x : List Int) (s : State) : List Int × State :=
  let top := spkTop vdd
  let s := if x.any (fun v => decide (top < v.natAbs)) then onAnalog (fun a => { a with limitAt := some (now s) }) s else s
  (if limiterActs s then (List.range 24).map (fun i => limited s.free top i (x.getD i 0)) else x, s)

/-- The samples of every local output. -/
def localOuts (vdd : Nat) (s : State) : State :=
  let hp := (List.range 4).map (fun i => (i, outputBlock s (6 + i / 2) (destBlock s (0x1400 + i))))
  let (spk, s) := spkOut vdd (outputBlock s 8 (destBlock s 0x1404)) s
  onAnalog (fun a => { a with outs := (hp ++ [(4, spk)]).filter (fun x => !x.2.isEmpty) }) (draw s).2

/-- The outputs follow their channel, the left of a headphone output: DESIGN CHOICE. -/
def anaOut (env : PeriodEnv) (s : State) : State :=
  let x (s : State) (t : Nat) : List Int := destBlock s (0x1400 + 2 * (t - 6))
  let s := each [6, 7, 8] (fun t s => anaCross t (x s t) s) s
  each [6, 7, 8] (fun t s => anaAdvance t (x s t) s) (localOuts env.vddSpk s)

end Sys2Proof.Machine
end

