-- ==== Sys2Proof/Machine/PowerEvents.lean ====
section
/-! DEFINITION. The power controller's events: acknowledgements and refusals of an entry, its rollback, sleep and wake,
idle gating, wakes on demand, the time alarm (02 R60, 15 R408 to R419). -/

namespace Sys2Proof.Machine

/-! ### Refused and abandoned entries (15 R412, R413) -/

/-- A domain refuses, or its delay expires: rollback, accounting, BAD_STATE with the domain (15 R412, 02 R61). -/
def refuseEntry (d cause : Nat) (s : State) : State :=
  match s.power.entry with
  | none => s
  | some e =>
    let s := entryRefused e.target d cause (rollback s)
    each (waitingFor .powerEntry s) (endCmd .badState [BitVec.ofNat 8 d]) s

/-- A wake source abandons the entry (15 R413). -/
def abandonEntry (s : State) : State :=
  if s.power.entry.isNone then s
  else
    let s := bump P.pwrWakeAborts (rollback s)
    failWaiting .powerEntry .aborted s

/-- ENTRY_ABORTED: the abort point that follows the fire of a wake source (15 R413). -/
def execEntryAborted (s : State) : Host.Outcome State Fault Refusal :=
  .next (if s.power.entry.any Entry.abort then settle (abandonEntry s) else s)

/-! ### Sleep (15 R416, R419, R422, 02 R61) -/

/-- The offset that AON records at entry, 0.001 ppm: the low-frequency clock's, or what remains of the RC oscillator's after
its trim to within 50 ppm. -/
def sleepOffset (s : State) : Int × State :=
  if s.clk.lfCrystal then (Config.lfPpm (now s), s)
  else
    let (d, s) := draw s
    (clampI (-50000) 50000 (Config.openInt d), s)

/-- The entry to LISTEN or HIBERNATE completes: AON alone runs. The request's tag leaves flight without a further reply. -/
def enterSleep (target : Nat) (s : State) : State :=
  let (ppm, s) := sleepOffset s
  let s := survive (if target = 3 then .listen else .hibernate) (bump P.pwrSleeps s)
  let k := { s.clk with refState := 0, refCorr := 0 }
  refreshOuts { s with
    clk := if target = 4 then { k with xtalQual := false, xtalMeant := false } else k
    front := { s.front with resetCause := 0, wakeReason := 0, tbLatch := 0 }
    power := { s.power with state := target, entry := none, waking := false, wakeSources := 0, on := 1,
                            sleepLfRc := !s.clk.lfCrystal, sleepPpm := ppm } }

/-- Every domain asked has acknowledged. -/
def entryComplete (target : Nat) (s : State) : State :=
  if 2 < target then enterSleep target s
  else startDue (doneWaiting .powerEntry s)

/-- DOMAIN_ENTRY_ACK: the domain asked completes its action and is switched off; the next is asked (15 R411). -/
def execDomainEntryAck (d : Nat) (s : State) : Host.Outcome State Fault Refusal :=
  .next (match s.power.entry with
    | none => s
    | some e =>
      if e.ask.head? != some d || !entryDone d s then s
      else
        let s := stopDomain d s
        let e := { (s.power.entry.getD e) with ask := nextAsked (e.ask.drop 1) s, askedAt := now s, stopped := d :: e.stopped }
        let s := onPower (fun p => { p with entry := some e }) s
        settle (match e.ask with
          | [] => entryComplete e.target s
          | n :: _ =>
            if e.abort then abandonEntry s
            else if refusalOf s n ≠ 0 then refuseEntry n (refusalOf s n) s
            else askDomain n s))

/-- The longest delay of a domain before it acknowledges, ms (15 R408). -/
def delayMs (d : Nat) : Nat :=
  if d = Dom.txd then 12 else if d = Dom.aud then 3 else if d = Dom.ana then 30 else if d = Dom.seq then 10 else 1

/-- The longest wake on demand of a domain, µs (15 R408). -/
def wakeUs (d : Nat) : Nat :=
  if d = Dom.rfa then 300 else if d = Dom.ana then 200 else if d = Dom.txd ∨ d = Dom.clr then 150 else 100

/-- POWER_HANDSHAKE_TIMEOUT: the domain asked has not acknowledged within its maximum delay (15 R411). -/
def execPowerHandshakeTimeout (d : Nat) (s : State) : Host.Outcome State Fault Refusal :=
  .next (match s.power.entry with
    | none => s
    | some e => if e.ask.head? = some d && elapsed s (e.askedAt + msTicks (delayMs d)) then settle (refuseEntry d 2 s) else s)

/-! ### Idle gating (15 R408) -/

/-- The settings that ANA shows: of its objects, its converters and outputs. -/
def anaTouched (s : State) : Bool :=
  (List.range 10).any (fun t => (List.range 4).any (fun f =>
    (anaRange t f).isSome && anaSet s t f != porValue (anaKey t f))) ||
  fieldTable.any (fun f => decide (0x8000 ≤ f.pid ∧ f.pid < 0x9000) && f.acc != .ro &&
    (smFind s.par (key f.pid f.lo)).isSome) ||
  s.par.any (fun p => decide (0x8020 * 32 ≤ p.1 ∧ p.1 < 0x9000 * 32) && (fieldsOf (p.1 / 32)).any (fun f => f.acc != .ro)) ||
  [s.inst.fa, s.inst.fb].any (fun f => f.channel != Fine.reset.channel || f.order != Fine.reset.order ||
    f.notch != Fine.reset.notch || f.trigger != Fine.reset.trigger || f.delay != Fine.reset.delay || f.d != Fine.reset.d ||
    f.tag != Fine.reset.tag || f.conv.isSome) ||
  s.inst.stream.isSome || s.inst.cdac.any (fun c => c.2.target != 0 || c.2.range != 0 || c.2.phase != 0)

/-- Whether a domain is busy (15 R408). -/
def domBusy (s : State) (d : Nat) : Bool :=
  let links := !(openLinks s).isEmpty
  let carriers := !(openCarriers s).isEmpty
  if d = Dom.abc then s.rods.any (fun r => r.2.phase != .free && r.2.phase != .loaded)
  else if d = Dom.dmd then links
  else if d = Dom.chz then links || s.rf.scan.isSome
  else if d = Dom.txd then carriers
  else if d = Dom.clr then s.cl.phase != .stopped || clStarting s
  else if d = Dom.rfa then links || carriers || s.rf.scan.isSome || s.tx.qcal || !(waitingFor .calibrate s).isEmpty ||
    [1, 2].any (fun i => (synth s i).phase == .calibrating)
  else if d = Dom.aud then s.audio.ports.any (fun p => p.2.phase != .unconfigured) ||
    s.audio.routes.any (fun r => r.2.inUse || r.2.active) || s.audio.taps.any (fun t => t.2.length != 0)
  else if d = Dom.ana then anaTouched s
  else true

/-- Whether a domain may be idle-gated: allowed and on, neither busy nor held, gating enabled. -/
def mayGate (s : State) (d : Nat) : Bool :=
  decide (3 ≤ d ∧ d ≤ 10) && parGet s P.pwrIdleDelay != 0 && decide (s.power.state ≤ 2) && domOn s d && !domBusy s d &&
    !s.power.held.getLsbD d

/-- Every period counts towards the idle time of a domain that may be gated. -/
def countIdle (s : State) : State :=
  each (List.range 12) (fun d s => onPower (fun p => { p with
    idle := if mayGate s d then smPut p.idle d (smGet 0 p.idle d + 1) else smErase p.idle d }) s) s

/-- IDLE_GATE: the domain has been neither busy nor held for `PWR.IDLE_DELAY`. A domain that an entry is asking answers the
entry. -/
def execIdleGate (d : Nat) (s : State) : Host.Outcome State Fault Refusal :=
  .next (if mayGate s d && decide (2 * parGet s P.pwrIdleDelay ≤ smGet 0 s.power.idle d) &&
      !(s.power.entry.any (fun e => e.ask.contains d)) then
      onPower (fun p => { p with idle := smErase p.idle d }) (stopDomain d s)
    else s)

/-! ### Wakes on demand (15 R409, 02 R54) -/

/-- Stalled commands none of whose domains is off go on. -/
def resumeStalled (s : State) : State :=
  each (s.running.filter (fun r => match r.wait with
      | .domainWake _ => ((progOf r.cmd).needs s).all (domOn s)
      | _ => false))
    (fun r s => beginWork (progOf r.cmd) r (stopRunning r s)) s

/-- DOMAIN_WAKE_DONE: the domain runs, `us` after its wake began. -/
def execDomainWakeDone (d us : Nat) (s : State) : Host.Outcome State Fault Refusal :=
  .next (if !s.power.coming.contains d || !domAllowed s.power.state d then s
    else
      let stalled := s.running.any (fun r => match r.wait with | .domainWake _ => ((progOf r.cmd).needs s).contains d | _ => false)
      let s := startDomain d s
      let s := if stalled then parSet P.pwrWakeStallMax (max (parGet s P.pwrWakeStallMax) (min us 65535)) s else s
      settle (planResume (resumeStalled s)))

/-- DOMAIN_WAKE_FAULT: the wake exceeds its maximum; every command stalled on it ends with HW_FAULT. -/
def execDomainWakeFault (d : Nat) (s : State) : Host.Outcome State Fault Refusal :=
  .next (if !s.power.coming.contains d || !elapsed s (smGet 0 s.power.comingAt d + usTicks (wakeUs d)) then s
    else
      let s := onPower (fun p => { p with coming := p.coming.filter (fun e => e != d), comingAt := smErase p.comingAt d }) s
      let stalled := s.running.filter (fun r => match r.wait with | .domainWake _ => ((progOf r.cmd).needs s).contains d | _ => false)
      let s := bump P.pwrWakeTimeouts s
      let s := if stalled = [] then queueEvent 0x9004 d 0 s else s
      settle (each stalled (fun r s => endCmd .hwFault [] r (queueEvent 0x9004 d (cmdArg r.hdr r.op) s)) s))

/-! ### Wake sources and wake (15 R413, R417, R418) -/

/-- A wake source fires, bit `n` of WAKE_REASON: in sleep it starts the wake, or joins the one in progress; during an entry to
a sleep state it abandons the entry at the next abort point, at once while SEQ is asked. -/
def fireWake (n : Nat) (s : State) : State :=
  if 2 < s.power.state then
    refreshOuts { s with
      power := { s.power with waking := true, wakeSources := Nat.lor s.power.wakeSources (2 ^ n) }
      seq := { s.seq with waking := true }
      front := { s.front with wake := true, wakeReason := Nat.lor s.front.wakeReason (2 ^ n) } }
  else
    match s.power.entry with
    | none => s
    | some e =>
      if e.target ≤ 2 then s
      else if e.ask.head? = some Dom.seq then abandonEntry s
      else onPower (fun p => { p with entry := some { e with abort := true } }) s

/-- Whether `PWR.WAKE_CFG` enables a source. The time alarm is always enabled while it is set with action 1. -/
def wakeEnabled (s : State) (source pin : Nat) : Bool :=
  match source with
  | 0 => s.supply.iohOn && parGet s P.pwrWakeCfg16 == 1 && s.front.bootMode != 1
  | 1 => s.supply.iohOn && parGet s P.pwrWakeCfg17 == 1
  | 2 => s.supply.iohOn && decide (pin < 8) && (parGet s P.pwrWakeCfg).testBit pin
  | 3 => s.alarm.any (fun a => a.action == 1)
  | _ => false

/-- The alarm fires (02 R60): it is cancelled, reported once SEQ runs, and with action 1 wakes the device; then it is the
first event after WOKE. -/
def fireAlarm (s : State) : State :=
  match s.alarm with
  | none => s
  | some a =>
    let s := { s with alarm := none }
    let d := a.time % 2 ^ 32
    if a.action = 1 ∧ 2 < s.power.state then
      fireWake 3 { s with seq := { s.seq with atRun := (0x0005, 0, d) :: s.seq.atRun } }
    else
      let s := queueWhenRunning 0x0005 0 d s
      if a.action = 1 then fireWake 3 s else s

/-- The alarm is due: the timebase has reached it. In LISTEN and HIBERNATE the bridged timebase has, which AON counts; a timebase
that a loss of lock or of the crystal has frozen reaches it at the resumption. -/
def alarmDue (s : State) : Bool :=
  (decide (2 < s.power.state) && s.clk.bridging) || (!s.clk.bridging && s.alarm.any (fun a => decide (a.time ≤ now s)))

/-- TIME_ALARM. -/
def execTimeAlarm (s : State) : Host.Outcome State Fault Refusal :=
  .next (if alarmDue s then settle (fireAlarm s) else s)

/-- WAKE_SOURCE_FIRE. The time alarm's fire is the alarm itself. -/
def execWakeSourceFire (source pin : Nat) (s : State) : Host.Outcome State Fault Refusal :=
  .next (if !wakeEnabled s source pin then s
    else if source = 3 then (if alarmDue s && (decide (2 < s.power.state) || s.power.entry.isSome) then settle (fireAlarm s) else s)
    else settle (fireWake source s))

end Sys2Proof.Machine
end

