-- ==== Sys2Proof/Machine/SupplyEvents.lean ====
section
/-! DEFINITION. Supply monitoring and brown hold, rail presence, and the plans and expiries that an instant starts
(19 R475, R481 to R485, 17 R455 to R460, 16 R435, R438). -/

namespace Sys2Proof.Machine

def onSupply (f : Supply → Supply) (s : State) : State := { s with supply := f s.supply }

/-! ### Brown hold (19 R481 to R485) -/

/-- RF_MONITOR_ARMED. -/
def execRfMonitorArmed (s : State) : Host.Outcome State Fault Refusal :=
  .next (if s.supply.up.getLsbD 5 then onSupply (fun p => { p with rfArmed := true }) s else s)

/-- The counter of a rail's warnings. -/
def warnCounter (rail : Nat) : Nat :=
  if rail = 0 then P.sysBrownWarnCore else if rail = 1 then P.sysBrownWarnRf else P.sysBrownWarnAon

/-- Brown hold begins: transmitters are cut, a plan is abandoned. -/
def brownBegins (s : State) : State :=
  let s := onSupply (fun p => { p with brown := true, entered := p.low, deferral := false }) s
  planBrown (clBrownCut (txBrownCut s))

/-- A warning of VDDA_RF stops RF_CALIBRATE at once (19 R484). -/
def stopCalibrate (s : State) : State :=
  each (s.running.filter (fun r => r.op == 0x21)) (endCmd .badState []) s

/-- A rail falls below its warning threshold, for so long at least as a perturbation says (18 R469): it is counted, and brown hold
begins or goes on. In sleep only `VDD_AON` is watched. -/
def brownCross (rail lasts : Nat) (s : State) : State :=
  let bit := BitVec.ofNat 3 (2 ^ rail)
  if 2 < rail ∨ (rail = 1 ∧ !s.supply.rfArmed) ∨ s.supply.resetHeld.isSome ∨ (2 < s.power.state ∧ rail ≠ 2) then s
  else
    let last := now s + usTicks lasts
    let s := onSupply (fun p => { p with low := p.low ||| bit, lowAt := if p.low = 0 then last else max p.lowAt last }) s
    let s := raiseAlert (fun f => { f with alertBrown := true }) (bump (warnCounter rail) s)
    if 2 < s.power.state then s
    else
      let s := if s.supply.brown then onSupply (fun p => { p with entered := p.entered ||| bit }) s else brownBegins s
      let s := queueCounted (0x0020 * 65536 + rail) (sec1 / 100) 0x0020 rail s
      if rail = 1 then stopCalibrate s else s

def execBrownWarn (rail : Nat) (s : State) : Host.Outcome State Fault Refusal := .next (settle (brownCross rail 0 s))

/-- BROWN_HOLD_END: every rail that entered warning has been above it for 1 ms; `us` is the duration. -/
def execBrownHoldEnd (us : Nat) (s : State) : Host.Outcome State Fault Refusal :=
  .next (if !elapsed s (s.supply.lowAt + msTicks 1) then s
    else if !s.supply.brown then onSupply (fun p => { p with low := 0 }) s
    else
      let rails := s.supply.entered.toNat
      let s := onSupply (fun p => { p with low := 0, lowAt := now s, entered := 0, brown := false, deferral := true }) s
      let s := parSet P.sysBrownHoldMax (max (parGet s P.sysBrownHoldMax) (min us 4294967295)) s
      settle (planResume (queueWhenRunning 0x0021 rails (us % 2 ^ 32) s)))

/-- POST_BROWN_HOLD_DEFERRAL_END: 1 ms after brown hold, a plan that waits and a deferred calibration run. -/
def execPostBrownHoldDeferralEnd (s : State) : Host.Outcome State Fault Refusal :=
  .next (if !s.supply.deferral || !elapsed s (s.supply.lowAt + msTicks 1) then s
    else
      let s := startDue (onSupply (fun p => { p with deferral := false }) s)
      settle (if s.clk.calDeferred then tempCal s else s))

/-- A device that wakes with a rail in warning wakes into brown hold (19 R485); the entry was counted in the sleep. -/
def wakeBrown (s : State) : State :=
  if s.supply.low = 0 ∨ s.supply.brown then s
  else each ((List.range 3).filter (fun r => s.supply.low.getLsbD r))
    (fun r => queueCounted (0x0020 * 65536 + r) (sec1 / 100) 0x0020 r) (brownBegins s)

/-- A bank that is powered on: its rail and `VDD_AON` are up; until its rail is off it keeps the levels first selected. -/
def bankAfter (railUp aonUp off wasOn was33 : Bool) (mv : Nat) : Bool × Bool :=
  if off then (false, false)
  else if wasOn then (aonUp, was33)
  else (railUp && aonUp, decide (2500 < mv))

/-- RAIL_PRESENCE_CHANGE: a rail's detector, and the I/O bank it feeds (19 R475, R492). -/
def execRailPresenceChange (rail : Nat) (up off : Bool) (mv : Nat) (s : State) : Host.Outcome State Fault Refusal :=
  .next (if 9 < rail then s
    else
      let bit := BitVec.ofNat 10 (2 ^ rail)
      let set (b : Bool) (m : BitVec 10) : BitVec 10 := if b then m ||| bit else m &&& ~~~ bit
      let s := onSupply (fun p => { p with up := set up p.up, present := set (!off) p.present }) s
      let p := s.supply
      let aon := p.up.getLsbD 0
      if rail = 1 then
        let b := bankAfter up aon off p.iohOn p.ioh33 mv
        onSupply (fun p => { p with iohOn := b.1, ioh33 := b.2 }) s
      else if rail = 2 then
        let b := bankAfter up aon off p.ioaOn p.ioa33 mv
        onSupply (fun p => { p with ioaOn := b.1, ioa33 := b.2 }) s
      else if rail = 0 then
        onSupply (fun p => { p with iohOn := aon && p.up.getLsbD 1, ioaOn := aon && p.up.getLsbD 2 }) s
      else s)

/-! ### Plans (17 R455, R457) -/

/-- SCHEDULED_PLAN: 24 h of powered time since the last plan; a MARGIN_REPLAN that runs satisfies it. -/
def execScheduledPlan (s : State) : Host.Outcome State Fault Refusal :=
  .next (if parGet s P.rckHoursSincePlan < 1440 ∨ s.age.plan.any (fun p => p.kind == 2 || p.kind == 3) then s
    else settle (planDue 2 s))

/-- KNOB_STEP_VERIFIED: the extra count of 1 ms after the settling allowance of a VSEL step (17 R457). -/
def execKnobStepVerified (tops : List TopRead) (s : State) : Host.Outcome State Fault Refusal :=
  .next (if s.age.plan.any (fun p => !elapsed s (p.stepAt + usTicks (parGet s P.rckVselSettle + 1000))) then s
    else settle (afterPlan s.age.plan (verifyStep tops s)))

/-! ### Proposals and patches (16 R435, R438) -/

/-- COSIGN_EXPIRED: 30 s since COSIGN_PROPOSE. -/
def execCosignExpired (s : State) : Host.Outcome State Fault Refusal :=
  .next (if s.prot.proposal.any (fun p => p.patch.isNone) then judgeExpiry s else s)

/-- PATCH_SEQUENCE_TIMEOUT: 30 s since the last packet of the patch sequence started. -/
def execPatchSequenceTimeout (s : State) : Host.Outcome State Fault Refusal :=
  .next (if s.prot.proposal.any (fun p => p.patch.isSome) then judgeExpiry s else s)

end Sys2Proof.Machine
end

