-- ==== Sys2Proof/Machine/SeqEvents.lean ====
section
/-! DEFINITION. What a wake from sleep leaves, and the sequencer's watchdog (15 R418, R419, 02 R55, R526). -/

namespace Sys2Proof.Machine

/-! ### A wake -/

/-- The events that waited for SEQ. -/
def queueWaited (s : State) : State :=
  each s.seq.atRun (fun e => queueEvent e.1 e.2.1 e.2.2) { s with seq := { s.seq with atRun := [] } }

/-- What a wake leaves in the parameter store (15 R419, R425). -/
def wakeParams (lf us : Nat) (s : State) : State :=
  each [(P.sysSleepLfCyclesLo, lf % 2 ^ 32), (P.sysSleepLfCyclesHi, lf / 2 ^ 32 % 2 ^ 32),
    (P.sysSleepTimeUncertainty, min s.power.sleepPpm.natAbs (2 ^ 31 - 1)),
    (P.sysSleepTimeUncertainty31, b2n s.power.sleepLfRc), (P.pwrLastWakeTime, min us 65535)] (fun x => parSet x.1 x.2) s

/-! ### The sequencer's watchdog (02 R55, R526, 15 R421) -/

/-- The completion reply ABORTED of a tag in flight; its tag leaves flight when it enters the FIFO. -/
def abortedReply (op tag : Nat) : Held := ⟨replyBytes op tag true Status.aborted.code [], some tag⟩

/-- The replies that a channel gets after a restart: for running commands and for replies held in SEQ. -/
def abortedReplies (c : Chan) (s : State) : List Held :=
  ((s.running.filter (fun r => r.hdr.ch == c)).map (fun r => abortedReply r.op r.hdr.tag)) ++
    (chan s c).held.filterMap (fun x => x.frees.map (abortedReply (fldAt x.bytes 0 1)))

/-- SEQ restarts: every command in flight is undone and both FIFOs of both channels are emptied; the proposal is discarded
and perturbations are disarmed (16 R435, 18 R467). -/
def seqRestarts (s : State) : State :=
  let empty (c : Chan) (s : State) : State :=
    let l := abortedReplies c s
    onChan c (fun k => { k with asm := [], discard := false, replies := [], partly := false, held := l }) s
  let s := empty .custodian (empty .operator s)
  let s := each s.running (fun r s => undone (progOf r.cmd) r s) { s with running := [], waiting := [] }
  let s := each ((List.range 9).map (· + 1)) (disarm 3) { s with prot := { s.prot with proposal := none } }
  { s with seq := { s.seq with running := false, waking := true, restarting := true, softBytes := 0 } }

/-- SEQ_WATCHDOG_EXPIRY: SEQ restarts; the third expiry within any 10 s is a WDOG reset instead. -/
def execSeqWatchdogExpiry (s : State) : Host.Outcome State Fault Refusal :=
  .next (if !s.seq.running then s
    else
      let s := bump P.sysSeqRestarts s
      let recent := s.seq.expiries.filter (fun t => now s < t + 10 * sec1) ++ [now s]
      if 3 ≤ recent.length then
        let s := enterReset 4 s
        { s with supply := { s.supply with wdogCause := 2 } }
      else seqRestarts { s with seq := { s.seq with expiries := recent } })

end Sys2Proof.Machine
end

