-- ==== Sys2Proof/Machine/FrontWindow.lean ====
section
/-! DEFINITION. The front window, the SPI transactions and the two-wire port (02 R35 to R44, 14 R389 to R406). -/

namespace Sys2Proof.Machine

/-! ### Mailbox bytes (02 R42 to R44) -/

/-- Complete replies that wait: one partly read is none. -/
def repliesWaiting (k : Channel) : Nat := k.replies.length - b2n k.partly

/-- Free bytes of a command FIFO; none while SEQ does not run. -/
def cmdRoom (s : State) (c : Chan) : Nat := if s.seq.running then 2048 - cmdLevel s c else 0

/-- The oldest byte of a reply FIFO leaves it; an empty FIFO gives 0x00 and an underrun. -/
def popReply (c : Chan) (s : State) : Byte × State :=
  match (chan s c).replies with
  | (b :: bs) :: rest =>
    (b, onChan c (fun k => { k with replies := if bs = [] then rest else bs :: rest, partly := !bs.isEmpty }) s)
  | _ => (0, bump P.sysReplyUnderrun (onChan c (fun k => { k with intUnderrun := true }) s))

/-- The bytes up to the last of the reply to RESET count down; with it the SOFT reset takes place (02 R59). -/
def softCount (c : Chan) (s : State) : State :=
  match s.seq.softReset with
  | some (d, _) =>
    if d ≠ c ∨ s.seq.softBytes = 0 then s
    else if s.seq.softBytes = 1 then enterReset 3 s
    else { s with seq := { s.seq with softBytes := s.seq.softBytes - 1 } }
  | none => s

/-- A read of REPLY_MAILBOX (02 R43). -/
def readReply (c : Chan) (s : State) : Byte × State :=
  if !s.seq.running then (0, s)
  else
    let empty := (chan s c).replies.isEmpty
    let (b, s) := popReply c s
    (b, if empty then s else softCount c s)

/-- A write to CMD_MAILBOX. -/
def writeCmd (c : Chan) (b : Byte) (s : State) : State := if s.seq.running then pushByte c b s else s

/-- FLUSH_CMD: queued bytes and the packet in assembly are discarded, discard mode ends. -/
def flushCmd (c : Chan) (s : State) : State :=
  if !s.seq.running then s
  else pump (onChan c (fun k => { k with asm := [], discard := false }) { s with waiting := s.waiting.filter (fun a => a.hdr.ch != c) })

/-- The bytes that a flush takes from the FIFO are not read; a reply to RESET among them is never read to its last byte (02 R59). -/
def softFlush (c : Chan) (s : State) : State :=
  if s.seq.softReset.any (fun x => x.1 == c) then
    { s with seq := { s.seq with softBytes := s.seq.softBytes - replyLevel (chan s c) } }
  else s

/-- FLUSH_REPLY: every reply in the FIFO is discarded. -/
def flushReply (c : Chan) (s : State) : State :=
  if !s.seq.running then s else onChan c (fun k => { k with replies := [], partly := false }) (softFlush c s)

/-! ### Front-window registers (02 R40) -/

/-- INT_STATUS as a channel reads it. -/
def intStatus (s : State) (c : Chan) : Nat :=
  let k := chan s c
  let f := s.front
  b2n (repliesWaiting k != 0) + 2 * b2n (s.events.queue.any (fun e => decide (2 ≤ e.mode))) +
    4 * b2n (decide (1030 ≤ cmdRoom s c)) + 8 * b2n f.readyRise + 16 * b2n f.wake + 32 * b2n k.intDiscard +
    64 * b2n k.intUnderrun + 128 * b2n f.eventsLost

/-- `INT_N` is asserted (02 R41). -/
def intAsserted (s : State) : Bool := Nat.land (intStatus s .operator) s.front.intMask.toNat != 0

/-- `ALERT_N` is asserted (14 R400). -/
def alertAsserted (s : State) : Bool := Nat.land (alertStatus s.front) s.front.alertMask.toNat != 0 && !s.tw.answered

/-- BOOT_STATUS. -/
def bootStatus (s : State) : Nat :=
  b2n s.seq.running + 2 * s.front.bootMode + 8 * b2n (s.prot.patchCount != 0) + 16 * b2n s.front.otpValid +
    32 * b2n s.front.romFail

/-- A byte of a register of several bytes. -/
def byteOf (n v : Nat) : Byte := BitVec.ofNat 8 (v / 256 ^ n)

/-- The byte that a register outside the mailboxes shows. -/
def showByte (c : Chan) (a : Nat) (s : State) : Byte :=
  let k := chan s c
  if a ≤ 0x03 then byteOf a 0x641600F1
  else if a = 0x04 then 0x01
  else if a = 0x05 then byteOf 0 (bootStatus s)
  else if a = 0x06 then byteOf 0 (s.power.state + 8 * b2n (moving s))
  else if a = 0x07 then byteOf 0 s.front.resetCause
  else if a ≤ 0x0B then byteOf (a - 0x08) (intStatus s c)
  else if a ≤ 0x0F then byteOf (a - 0x0C) s.front.intMask.toNat
  else if a = 0x10 then byteOf 0 (alertStatus s.front)
  else if a = 0x11 then s.front.alertMask
  else if a = 0x12 then byteOf 0 (min 255 (cmdRoom s c / 8))
  else if a = 0x13 then byteOf 0 (min 255 (repliesWaiting k))
  else if a = 0x15 then byteOf 0 (tagsInFlight k)
  else if a = 0x16 ∨ a = 0x17 then byteOf (a - 0x16) k.tags.toNat
  else if 0x18 ≤ a ∧ a ≤ 0x1F then byteOf (a - 0x18) s.front.tbLatch.toNat
  else if a = 0xE0 then byteOf 0 (s.front.addrPins + 4 * b2n s.front.groupEn)
  else if a = 0xE1 then byteOf 0 s.front.groupAddr
  else if a = 0xE2 then byteOf 0 s.front.groupMask
  else if a = 0xF0 then byteOf 0 s.front.wakeReason
  else if 0xF8 ≤ a ∧ a ≤ 0xFB then byteOf (a - 0xF8) s.front.scratch.toNat
  else 0

/-- A read of one byte by a channel, with its effects. -/
def frontRead (c : Chan) (a : Nat) (s : State) : Byte × State :=
  if 0x80 ≤ a ∧ a ≤ 0xDF then readReply c s
  else
    let s := if a = 0x18 then { s with front := { s.front with tbLatch := s.timebase } } else s
    (showByte c a s, s)

/-- A word with one byte replaced. -/
def putByte (w : BitVec 32) (n : Nat) (v : Byte) : BitVec 32 :=
  BitVec.ofNat 32 (w.toNat - bits w.toNat (8 * n + 7) (8 * n) * 256 ^ n + v.toNat * 256 ^ n)

/-- A write to ALERT_STATUS: its W1C bits, and the answered latch (14 R400). -/
def alertWrite (v : Byte) (s : State) : State :=
  let b (n : Nat) : Bool := v.getLsbD n
  { s with
    front := { s.front with
      alertNormal := s.front.alertNormal && !b 0, alertBrown := s.front.alertBrown && !b 4
      alertDeadline := s.front.alertDeadline && !b 5, alertCosign := s.front.alertCosign && !b 6 }
    tw := { s.tw with answered := false } }

/-- A write to INT_STATUS: bits [5] and [6] clear the channel's own copy. -/
def intWrite (c : Chan) (v : Byte) (s : State) : State :=
  let b (n : Nat) : Bool := v.getLsbD n
  let s := { s with front := { s.front with
    readyRise := s.front.readyRise && !b 3, wake := s.front.wake && !b 4, eventsLost := s.front.eventsLost && !b 7 } }
  onChan c (fun k => { k with intDiscard := k.intDiscard && !b 5, intUnderrun := k.intUnderrun && !b 6 }) s

/-- A write of one byte by a channel. Writes to read-only and reserved bytes are ignored. -/
def frontWrite (c : Chan) (a : Nat) (v : Byte) (s : State) : State :=
  let onFront (f : Front → Front) : State := { s with front := f s.front }
  if 0x20 ≤ a ∧ a ≤ 0x7F then writeCmd c v s
  else if a = 0x08 then intWrite c v s
  else if 0x0C ≤ a ∧ a ≤ 0x0F then onFront (fun f => { f with intMask := putByte f.intMask (a - 0x0C) v })
  else if a = 0x10 then alertWrite v s
  else if a = 0x11 then onFront (fun f => { f with alertMask := v &&& 0x71 })
  else if a = 0x14 then
    let s := if v.getLsbD 0 then flushCmd c s else s
    if v.getLsbD 1 then flushReply c s else s
  else if a = 0xE0 then onFront (fun f => { f with groupEn := v.getLsbD 2 })
  else if a = 0xE1 then onFront (fun f => { f with groupAddr := v.toNat % 128 })
  else if a = 0xE2 then onFront (fun f => { f with groupMask := v.toNat % 128 })
  else if 0xF8 ≤ a ∧ a ≤ 0xFB then onFront (fun f => { f with scratch := putByte f.scratch (a - 0xF8) v })
  else s

/-- Whether a front-window byte needs SEQ (02 R38). -/
def needsSeq (a : Nat) : Bool := decide (0x20 ≤ a ∧ a ≤ 0xDF)

/-- Whether the front window answers: AON is out of reset (19 R480), and the bank of the host balls is up, whose inputs are ignored
until then (19 R475). -/
def windowAnswers (s : State) : Bool := s.supply.resetHeld.isNone && s.supply.iohOn

/-! ### Single accesses -/

/-- CMD_MAILBOX_WRITE. -/
def execCmdMailboxWrite (c : Chan) (b : Byte) (s : State) : Host.Outcome State Fault Refusal :=
  .next (if windowAnswers s then frontWrite c 0x20 b s else s)

/-- REPLY_MAILBOX_READ: the byte read is the last that the port drove. -/
def execReplyMailboxRead (c : Chan) (s : State) : Host.Outcome State Fault Refusal :=
  .next (if windowAnswers s then
      let (b, s) := frontRead c 0x80 s
      { s with front := { s.front with spiOut := [b] } }
    else s)

def execFlushCmd (c : Chan) (s : State) : Host.Outcome State Fault Refusal :=
  .next (if windowAnswers s then frontWrite c 0x14 1 s else s)

def execFlushReply (c : Chan) (s : State) : Host.Outcome State Fault Refusal :=
  .next (if windowAnswers s then frontWrite c 0x14 2 s else s)

/-- TIMEBASE_LATCH: a read of 0x18. -/
def execTimebaseLatch (s : State) : Host.Outcome State Fault Refusal :=
  .next (if windowAnswers s then (frontRead .operator 0x18 s).2 else s)

def execAlertStatusWrite (v : Byte) (s : State) : Host.Outcome State Fault Refusal :=
  .next (if windowAnswers s then frontWrite .operator 0x10 v s else s)

/-- FRONT_WINDOW_WRITE: any register of the map. -/
def execFrontWindowWrite (c : Chan) (a : Nat) (v : Byte) (s : State) : Host.Outcome State Fault Refusal :=
  .next (if windowAnswers s then frontWrite c (a % 256) v s else s)

/-! ### SPI (02 R36 to R39) -/

/-- Whether the SPI balls are served: not in a reset, nor in boot mode 01 (19 R480, R489). -/
def spiServed (s : State) : Bool := windowAnswers s && s.front.bootMode != 1

/-- `SPI_CS_N` falls: in sleep it is a wake source (15 R417). -/
def spiSelect (s : State) : State := if wakeEnabled s 0 0 then settle (fireWake 0 s) else s

/-- The SPI status byte (02 R37). -/
def spiStatus (waking : Bool) (s : State) : Byte :=
  byteOf 0 (128 * b2n waking + 64 * b2n (repliesWaiting s.op != 0) + 32 * b2n (decide (1030 ≤ cmdRoom s .operator)) +
    16 * b2n (intAsserted s) + 8 * b2n (alertAsserted s) + 4 * b2n s.seq.running)

def drive (bs : List Byte) (s : State) : State := { s with front := { s.front with spiOut := bs } }

def countWaking (s : State) : State := bump P.sysSpiWakingReplies s

/-- Run a transaction: `body` gives the data bytes driven after the status byte, `n` of them, when SEQ is not needed or runs. -/
def spiRun (needs : Bool) (n : Nat) (body : State → List Byte × State) (s : State) : State :=
  if !spiServed s then drive [] s
  else
    let s := spiSelect s
    let waking := needs && !s.seq.running
    let st := spiStatus waking s
    if waking then drive (st :: List.replicate n 0) (countWaking s)
    else
      let (out, s) := body s
      drive (st :: out) s

/-- Consecutive front-window reads, wrapping; a byte that needs SEQ while it does not run reads 0x00. -/
def readRun : Nat → Nat → State → List Byte × Bool × State
  | 0, _, s => ([], false, s)
  | n + 1, a, s =>
    let missed := needsSeq a && !s.seq.running
    let (b, s) := if missed then (0, s) else frontRead .operator a s
    let (bs, m, s) := readRun n ((a + 1) % 256) s
    (b :: bs, missed || m, s)

/-- Consecutive front-window writes, wrapping; a byte that needs SEQ while it does not run has no effect. -/
def writeRun : List Byte → Nat → State → Bool × State
  | [], _, s => (false, s)
  | v :: vs, a, s =>
    let missed := needsSeq a && !s.seq.running
    let s := if missed then s else frontWrite .operator a v s
    let (m, s) := writeRun vs ((a + 1) % 256) s
    (missed || m, s)

/-- Transaction 0x01: each byte is pushed into the Operator command FIFO. -/
def execSpiWriteMailbox (_quad : Bool) (data : List Byte) (s : State) : Host.Outcome State Fault Refusal :=
  .next (spiRun true 0 (fun s => ([], data.foldl (fun s b => writeCmd .operator b s) s)) s)

/-- `n` bytes popped from the Operator reply FIFO. -/
def popRun : Nat → State → List Byte × State
  | 0, s => ([], s)
  | n + 1, s =>
    let (b, s) := readReply .operator s
    let (bs, s) := popRun n s
    (b :: bs, s)

/-- Transaction 0x02. -/
def execSpiReadMailbox (_quad : Bool) (n : Nat) (s : State) : Host.Outcome State Fault Refusal :=
  .next (spiRun true n (popRun n) s)

/-- Transaction 0x03. -/
def execSpiReadFrontWindow (_quad : Bool) (addr n : Nat) (s : State) : Host.Outcome State Fault Refusal :=
  .next (spiRun (needsSeq (addr % 256)) n (fun s =>
    let (bs, m, s) := readRun n (addr % 256) s
    (bs, if m then countWaking s else s)) s)

/-- Transaction 0x04. -/
def execSpiWriteFrontWindow (_quad : Bool) (addr : Nat) (data : List Byte) (s : State) : Host.Outcome State Fault Refusal :=
  .next (spiRun (needsSeq (addr % 256)) 0 (fun s =>
    let (m, s) := writeRun data (addr % 256) s
    ([], if m then countWaking s else s)) s)

/-- Transaction 0x05: the status byte, repeated for every further byte. -/
def execSpiReadStatus (_quad : Bool) (n : Nat) (s : State) : Host.Outcome State Fault Refusal :=
  .next (spiRun false n (fun s => (List.replicate n (spiStatus false s), s)) s)

/-- A transaction with an unknown code, or with bit 7 of the code set (02 R39). -/
def execSpiProtoErr (code : Byte) (s : State) : Host.Outcome State Fault Refusal :=
  .next (if !spiServed s then drive [] s
    else
      let s := drive [] (spiSelect s)
      let op := code.toNat % 64
      if 128 ≤ code.toNat ∨ op = 0 ∨ 5 < op then bump P.sysSpiProtoErr s else s)

/-! ### Two-wire port (14 R389 to R406) -/

def onTw (f : Tw → Tw) (s : State) : State := { s with tw := f s.tw }

/-- Whether the group address matches (14 R392). -/
def groupMatch (s : State) (x : Nat) : Bool :=
  let f := s.front
  f.groupEn && Nat.land (Nat.xor x f.groupAddr) f.groupMask == 0 &&
    !(decide (x ≤ 0x07 ∨ x = 0x0C ∨ (0x78 ≤ x ∧ x ≤ 0x7F) ∨ x = 0x48 + f.addrPins ∨ x = 0x50 + f.addrPins))

/-- The channel that an address reaches (14 R391); the group address is write only. -/
def twChannel (s : State) (x : Nat) (read : Bool) : Option Chan :=
  if x = 0x48 + s.front.addrPins then some .operator
  else if x = 0x50 + s.front.addrPins then some .custodian
  else if !read && groupMatch s x then some .operator else none

/-- The pointer of a channel (14 R394). -/
def twPtr (s : State) (c : Chan) : Nat := match c with | .operator => s.tw.opPtr | .custodian => s.tw.cuPtr
def setTwPtr (c : Chan) (v : Nat) (s : State) : State :=
  match c with
  | .operator => onTw (fun t => { t with opPtr := v % 256 }) s
  | .custodian => onTw (fun t => { t with cuPtr := v % 256 }) s

/-- A byte or a match that SEQ did not serve within 2 ms; the event once SEQ runs. -/
def twUnserved (addr detail : Nat) (event : Bool) (s : State) : State :=
  let s := bump P.sysTwWakeNacks s
  if event then queueWhenRunning 0x0012 addr detail s else s

/-- One written data byte: whether it is acknowledged, and its effect (14 R393, R396, R397). -/
def twPut (c : Chan) (addr : Nat) (v : Byte) (s : State) : Bool × State :=
  let a := twPtr s c
  if needsSeq a && !s.seq.running then (false, twUnserved addr 2 true s)
  else if a ≤ 0x7F ∧ 0x20 ≤ a ∧ ((chan s c).discard ∨ 2048 ≤ cmdLevel s c) then
    (false, bump P.sysTwFullNacks (pushByte c v s))
  else (true, setTwPtr c (a + 1) (frontWrite c a v s))

/-- A byte that needs SEQ while SEQ restarts is stretched: SEQ runs within the 2 ms of a stretch (14 R396, 02 R526). -/
def twStretch (a : Nat) (s : State) : Bool := needsSeq a && !s.seq.running && s.seq.restarting

/-- The data bytes of a write: their acknowledges, and those left when the device stretches; after one that is not acknowledged
the rest is ignored. -/
def twPuts (c : Chan) (addr : Nat) : List Byte → State → List Bool × Option (List Byte) × State
  | [], s => ([], none, s)
  | v :: vs, s =>
    if twStretch (twPtr s c) s then ([], some (v :: vs), s)
    else match twPut c addr v s with
      | (true, s) =>
        let (as, left, s) := twPuts c addr vs s
        (true :: as, left, s)
      | (false, s) => ([false], none, s)

/-- The data bytes of a write go on. -/
def twWrite (c : Chan) (addr : Nat) (data : List Byte) (acks : List Bool) (s : State) : State :=
  let (as, left, s) := twPuts c addr data s
  onTw (fun t => { t with inTransfer := left.isSome, sent := [], acks := acks ++ as,
                          held := left.map (fun l => (c, addr, .put l)), heldAt := now s }) s

/-- A transfer that the device does not take part in, or whose address it does not acknowledge. -/
def twNotTaken (s : State) : State := onTw (fun t => { t with inTransfer := false, sent := [], acks := [false] }) s

/-- An irregular condition (14 R402), reported at most once in any second. -/
def twIrregular (kind : Nat) (s : State) : State :=
  let s := bump P.sysTwProtoErr s
  if s.seq.running then queueCounted (0x0011 * 65536) sec1 0x0011 kind s else s

/-- The bytes of a read, and how many are left when the device stretches. Once a byte has gone unserved every later one is 0x00
and counted; the byte `i` at which SDA reads 0 where the device sends 1 is not committed. -/
def twGets (c : Chan) (addr : Nat) (mismatch : Option Nat) : Nat → Nat → Bool → State → List Byte × Nat × State
  | 0, _, _, s => ([], 0, s)
  | n + 1, i, unserved, s =>
    let a := twPtr s c
    if !unserved && twStretch a s then ([], n + 1, s)
    else if unserved || (needsSeq a && !s.seq.running) then
      let (bs, left, s) := twGets c addr mismatch n (i + 1) true (twUnserved addr 2 (!unserved) s)
      (0 :: bs, left, s)
    else if mismatch = some i then twGets c addr mismatch n (i + 1) false (twIrregular 3 s)
    else
      let (b, s) := frontRead c a s
      let (bs, left, s) := twGets c addr mismatch n (i + 1) false (setTwPtr c (a + 1) s)
      (b :: bs, left, s)

/-- The bytes of a read go on from byte `i`. -/
def twRead (c : Chan) (addr n i : Nat) (mismatch : Option Nat) (unserved : Bool) (sent : List Byte) (s : State) : State :=
  let (bs, left, s) := twGets c addr mismatch n i unserved s
  onTw (fun t => { t with inTransfer := decide (left ≠ 0), sent := sent ++ bs, acks := [true],
                          held := if left = 0 then none else some (c, addr, .get left (i + n - left) mismatch)
                          heldAt := now s }) s

/-- The device stretches a transfer until SEQ runs. -/
def twHold (c : Chan) (addr : Nat) (r : TwRest) (s : State) : State :=
  onTw (fun t => { t with inTransfer := true, sent := [], acks := [], held := some (c, addr, r), heldAt := now s }) s

/-- What is left of a transfer is served: the pointer byte of a write, then its data bytes; the bytes of a read. -/
def twServe (c : Chan) (addr : Nat) (r : TwRest) (s : State) : State :=
  match r with
  | .write [] => onTw (fun t => { t with inTransfer := false, sent := [], acks := [true] }) s
  | .write (p :: ds) => twWrite c addr ds [true, true] (setTwPtr c p.toNat s)
  | .read n m => twRead c addr n 0 m false [] s
  | .put l => twWrite c addr l s.tw.acks s
  | .get n i m => twRead c addr n i m false s.tw.sent s

/-- A transfer that addresses the device. In sleep the match is a wake source, and SCL is held until SEQ runs; where two-wire wake is
disabled nothing answers; during an entry to sleep the match is a wake source too (14 R398, 15 R413, R417). While the device stretches,
no transfer begins on the bus. -/
def twAddressed (c : Option Chan) (addr : Nat) (r : TwRest) (s : State) : State :=
  match c with
  | none => twNotTaken s
  | some c =>
    let fires := wakeEnabled s 1 0
    if s.tw.held.isSome then s
    else if !windowAnswers s || (decide (2 < s.power.state) && !fires) then twNotTaken s
    else if 2 < s.power.state then twHold c addr r (settle (fireWake 1 s))
    else twServe c addr r (if fires then settle (fireWake 1 s) else s)

/-- TW_WRITE_TRANSFER: the pointer byte, then data bytes. -/
def execTwWriteTransfer (addr : Nat) (data : List Byte) (s : State) : Host.Outcome State Fault Refusal :=
  .next (twAddressed (twChannel s addr false) addr (.write data) s)

/-- TW_READ_TRANSFER. -/
def execTwReadTransfer (addr n : Nat) (mismatch : Option Nat) (s : State) : Host.Outcome State Fault Refusal :=
  .next (twAddressed (twChannel s addr true) addr (.read n mismatch) s)

/-- A stretched transfer goes on: SEQ runs. -/
def twResume (s : State) : State :=
  match s.tw.held with
  | none => s
  | some (c, addr, r) => twServe c addr r (onTw (fun t => { t with held := none }) s)

/-- A stretched transfer has gone unserved for 2 ms: SCL is released, and the address or the written byte is not acknowledged. -/
def twGivenUp (s : State) : State :=
  match s.tw.held with
  | none => s
  | some (_, addr, .write _) => twUnserved addr 1 true (onTw (fun t => { t with held := none, inTransfer := false, acks := [false] }) s)
  | some (_, addr, .read _ _) => twUnserved addr 1 true (onTw (fun t => { t with held := none, inTransfer := false, acks := [false] }) s)
  | some (_, addr, .put _) =>
    twUnserved addr 2 true (onTw (fun t => { t with held := none, inTransfer := false, acks := t.acks ++ [false] }) s)
  | some (c, addr, .get n i m) =>
    let (bs, _, s) := twGets c addr m (n - 1) (i + 1) true (twUnserved addr 2 true s)
    onTw (fun t => { t with held := none, inTransfer := false, sent := t.sent ++ 0 :: bs }) s

/-- The byte of an alert response: the urgent address or the primary address (14 R401). -/
def alertByte (s : State) : Byte :=
  byteOf 0 (2 * ((if 128 ≤ alertStatus s.front then 0x40 else 0x48) + s.front.addrPins))

/-- ALERT_RESPONSE: `other` is what the other devices send, ANDed. -/
def execAlertResponse (other : Byte) (s : State) : Host.Outcome State Fault Refusal :=
  .next (if s.tw.held.isSome then s
    else if !windowAnswers s || !alertAsserted s then twNotTaken s
    else
      let b := alertByte s
      if b &&& other = b then
        bump P.sysTwAlertAnswers (onTw (fun t => { t with answered := true, sent := [b], acks := [true] }) s)
      else bump P.sysTwAlertLost (onTw (fun t => { t with sent := [b &&& other], acks := [true] }) s))

/-- TW_PROTO_ERROR: the byte is discarded and the transfer is over. -/
def execTwProtoError (kind : Nat) (s : State) : Host.Outcome State Fault Refusal :=
  .next (if !windowAnswers s || kind == 0 || decide (3 < kind) then s
    else twIrregular kind (onTw (fun t => { t with inTransfer := false, held := none }) s))

/-- TW_WAKE_NACK: detail 1 a match in sleep, 2 a byte, not served within 2 ms. -/
def execTwWakeNack (addr detail : Nat) (s : State) : Host.Outcome State Fault Refusal :=
  .next (if !windowAnswers s || s.seq.running || (twChannel s addr false).isNone ||
      !(detail == 1 && decide (2 < s.power.state) || detail == 2 && decide (s.power.state ≤ 2)) then s
    else if s.tw.held.isSome then (if elapsed s (s.tw.heldAt + usTicks 2000) then twGivenUp s else s)
    else twUnserved addr detail true (onTw (fun t => { t with inTransfer := false }) s))

/-- TW_ADDRESS_MATCH_SLEEP: the recogniser holds SCL and starts the wake (14 R398). -/
def execTwAddressMatchSleep (addr : Nat) (s : State) : Host.Outcome State Fault Refusal :=
  .next (if !windowAnswers s || (twChannel s addr false).isNone || !wakeEnabled s 1 0 || decide (s.power.state ≤ 2) then s
    else settle (fireWake 1 (onTw (fun t => { t with inTransfer := true, sent := [], acks := [] }) s)))

/-- TW_SCL_TIMEOUT: the bus interface is reset; pointers and the packet in assembly stay (14 R404). -/
def execTwSclTimeout (sdaLow : Bool) (s : State) : Host.Outcome State Fault Refusal :=
  .next (if !windowAnswers s then s
    else queueWhenRunning 0x0010 0 (b2n sdaLow) (bump P.sysTwSclTimeouts (onTw (fun t => { t with inTransfer := false, held := none }) s)))

/-! ### SEQ runs again (02 R55, R526, 14 R396, R398, 15 R418) -/

/-- WOKE: `READY` rises after a sleep. The state is ACTIVE, and only AON, SEQ, CKG and MEM are on. -/
def execWoke (lf us : Nat) (s : State) : Host.Outcome State Fault Refusal :=
  .next (if s.power.state ≤ 2 ∨ !s.power.waking ∨ !s.clk.pllLocked then s
    else
      let cause := if s.power.state = 3 then 5 else 6
      let s := wakeParams lf us s
      let s := { s with
        front := { s.front with resetCause := cause, wake := true, readyRise := true }
        power := { s.power with state := 0, waking := false, wakeSources := 0, on := 0x807 }
        seq := { s.seq with running := true, waking := false } }
      let s := queueWaited (queueEvent 0x9003 s.front.wakeReason (lf % 2 ^ 32) s)
      twResume (settle (planDue 4 (wakeBrown s))))

/-- SEQ_RESTARTED: SEQ runs again and places the ABORTED replies before it accepts any packet; a two-wire transfer that was stretched
goes on. -/
def execSeqRestarted (s : State) : Host.Outcome State Fault Refusal :=
  .next (if !s.seq.restarting then s
    else
      let n := s.op.held.length + s.cu.held.length
      let refill (k : Channel) : Channel := admitHeld k.held.length k
      let s := { s with
        op := refill s.op, cu := refill s.cu
        seq := { s.seq with running := true, waking := false, restarting := false }
        front := { s.front with readyRise := true } }
      twResume (settle (queueWaited (queueEvent 0x0004 0 n s))))

end Sys2Proof.Machine
end

