-- ==== Sys2Proof/Machine/InstEvents.lean ====
section
/-! DEFINITION. The instants of the instrumentation: triggers, results, the reference, control DACs (13 R368 to R386). -/

namespace Sys2Proof.Machine

/-! ### Triggers (13 R371 to R375, R381) -/

/-- A trigger event on a converter: a conversion, or a drop with its reason. -/
def triggerConv (n : Nat) (s : State) : State :=
  let f := fine s n
  let drop (why : Nat) : State :=
    queueWindow (0x8001 * 65536 + n) sec1 0x8001 n 1 (fun k => why * 2 ^ 24 + min k 65535) (bump P.measTrigDropped s)
  if !refReady s then drop 2
  else if f.conv.isSome then drop 1
  else
    let (ch, s) := nextChannel n s
    startConv n ch f.delay false s

/-- Every converter with a trigger source. -/
def triggerAll (src : Nat) (s : State) : State :=
  each [0, 1] (fun n s => if (fine s n).trigger = src then triggerConv n s else s) s

/-- Whether a timer ticks at the present timebase (13 R373). -/
def ticksNow (s : State) (t : Nat) : Bool :=
  now s % (10 * parGet s (P.measTmPeriod t)) == 10 * parGet s (P.measTmPhase t)

/-- TIMER_TICK: conversions, and the pending codes of control DACs. -/
def execTimerTick (t : Nat) (s : State) : Host.Outcome State Fault Refusal :=
  .next (if 3 < t ∨ !timerOn s t ∨ !ticksNow s t ∨ domDown s Dom.ana then s
    else each (List.range 8) (fun c s =>
      match (cdac s c).pending with
      | some (u, code) => if u = t + 1 then onCdac c (Cdac.aim (now s) code) s else s
      | none => s) (triggerAll (2 + t) s))

/-- The rising edge of a PWM output in its present period: at its start, or where it is active low at the end of its active part; none
where it does not switch (13 R372, R386). -/
def Pwm.rises (activeLow : Bool) (q : Pwm) : Option Nat :=
  if 0 < q.duty ∧ q.duty < q.period then some (q.since + if activeLow then 10 * q.duty else 0) else none

/-- PWM_EDGE_TRIGGER: a rising edge of an enabled output. -/
def execPwmEdgeTrigger (p : Nat) (s : State) : Host.Outcome State Fault Refusal :=
  .next (if 3 < p ∨ parGet s (P.measPwmCfg p) ≠ 1 ∨ domDown s Dom.ana ∨
        (pwmNow s p).rises (parGet s (P.measPwmCfg1 p) == 1) ≠ some (now s) then s
    else triggerAll (6 + p) s)

/-! ### Results (13 R376 to R379, R385) -/

/-- A record in the stream buffer; at its end the pointer returns. -/
def streamRecord (n ch : Nat) (ovr : Bool) (tag : Nat) (code : Int) (s : State) : State :=
  match s.inst.stream with
  | none => s
  | some x =>
    let rec8 := leBytes 4 (uint 32 code) ++ leBytes 1 ch ++ leBytes 1 (n + 2 * b2n ovr) ++ leBytes 1 tag ++ [0]
    let w := x.wr + 8
    let wraps := decide (x.start + x.length ≤ w)
    let s := { s with
      mem := smSetList 0 s.mem x.wr (rec8.map BitVec.toNat)
      inst := { s.inst with stream := some { x with wr := if wraps then x.start else w } } }
    if wraps then
      let s := bump P.measStreamWraps s
      queueLimited 0x8003 (sec1 / 10) 0x8003 0 (parGet s P.measStreamWraps) s
    else s

/-- A record in `MEAS_QUEUE`, or a discard. -/
def queueResult (r : MeasRec) (s : State) : State :=
  if s.inst.queue.length < 64 then { s with inst := { s.inst with queue := s.inst.queue ++ [r] } }
  else queueCounted 0x8002 sec1 0x8002 0 (bump P.measQueueOverflows s)

/-- The output that a read-back is compared with: it was idle for 100 us before the conversion began. -/
def supervised (c : Cdac) (start : Nat) : Option Nat :=
  let ok (out idle : Nat) : Option Nat := if idle + usTicks 100 ≤ start then some out else none
  if start ≤ c.movedAt then ok c.prevOut c.prevIdle else if c.phase = 0 then ok c.out c.idleSince else none

/-- Read-back supervision of an FB result on a control DAC. -/
def supervise (n ch start : Nat) (code : Int) (s : State) : State :=
  if n ≠ 1 ∨ ch < 0x30 ∨ 0x37 < ch then s
  else
    let c := ch - 0x30
    let tol := parGet s (P.measCdacSupv c)
    match supervised (cdac s c) start with
    | none => s
    | some out =>
      let d := code - 512 * out
      if tol = 0 ∨ |d| ≤ 512 * tol then s else queueEvent 0x8004 c (uint 32 d) (bump P.measCdacMismatches s)

/-- CONVERSION_DONE: after its time the result is queued, streamed or returned; a continuous converter goes on. -/
def execConversionDone (n : Nat) (value : Int) (s : State) : Host.Outcome State Fault Refusal :=
  .next (match (fine s n).conv with
    | none => s
    | some c =>
      if 1 < n ∨ domDown s Dom.ana ∨ now s < c.due then s
      else if !c.urgent && (fine s n).trigger == 1 && !refReady s then onFine n (fun f => { f with conv := none }) s
      else
        let (code, ovr) := resultOf s c.channel value
        let tag := (fine s n).tag
        let s := onFine n (fun f => { f with conv := none, tag := (tag + 1) % 256 }) s
        let s := supervise n c.channel c.start code (if ovr then bump P.measOverranges s else s)
        if c.urgent then
          settle (each (waitingFor (.conversion n) s) (fun r s =>
            workDone (progOf r.cmd) { r with aux := uint 32 code * 256 + tag } s) s)
        else
          let s := if (fine s n).streaming then streamRecord n c.channel ovr tag code s
            else queueResult ⟨n, c.channel, tag, ovr, code, c.start⟩ s
          goOn n c s)

/-- REF_BUFFER_READY: the buffer has run for 5 ms. -/
def execRefBufferReady (s : State) : Host.Outcome State Fault Refusal :=
  .next (if parGet s P.measRefEn ≠ 1 ∨ domDown s Dom.ana ∨ now s < s.inst.refAt + msTicks 5 then s
    else runContinuous 1 (runContinuous 0 { s with inst := { s.inst with refReady := true } }))

/-! ### Control DACs (13 R382, R383) -/

/-- The code that a channel slews to; none: it holds. -/
def Cdac.goal (c : Cdac) : Option Nat := if c.phase = 1 ∨ c.phase = 4 then some c.target else if c.phase = 2 then some 0 else none

/-- An output after a movement of at most `n` codes. -/
def towards (out goal n : Nat) : Nat := if out ≤ goal then min goal (out + n) else max goal (out - n)

/-- One microsecond of the limiter. -/
def Cdac.slew (t rate : Nat) (c : Cdac) : Cdac :=
  let whole := (c.acc + rate) / 1000
  let c := { c with acc := (c.acc + rate) % 1000 }
  match c.goal with
  | none => c
  | some g =>
    let c := { c with out := if rate = 0 then g else towards c.out g whole }
    if c.phase = 1 ∧ c.out = g then { c with phase := 0, idleSince := t } else c

/-- SLEW_LIMITER_UPDATE, once per microsecond. -/
def execSlewLimiterUpdate (s : State) : Host.Outcome State Fault Refusal :=
  .next (if domDown s Dom.ana ∨ now s < s.inst.slewAt + usTicks 1 then s
    else each (List.range 8) (fun c s => onCdac c (Cdac.slew (now s) (parGet s (P.measCdacSlew c))) s)
      { s with inst := { s.inst with slewAt := now s } })

/-- CDAC_RANGE_PHASE_END: at code 0 the range switches, held for 50 us; then the output slews to the target, where the
sequence ends. -/
def execCdacRangePhaseEnd (ch : Nat) (s : State) : Host.Outcome State Fault Refusal :=
  let c := cdac s ch
  .next (if domDown s Dom.ana then s
    else if c.phase = 2 ∧ c.out = 0 then onCdac ch (fun c => { c with phase := 3, phaseAt := now s }) s
    else if c.phase = 3 then
      (if now s < c.phaseAt + usTicks 50 then s else onCdac ch (fun c => { c with phase := 4, range := c.newRange }) s)
    else if c.phase = 4 ∧ c.out = c.target then
      queueEvent 0x8005 ch c.range (onCdac ch (fun c => { c with phase := 0, idleSince := now s }) s)
    else s)

/-- Converters named by MEAS_STREAM_START join the stream at a boundary. -/
def joinStream (s : State) : State :=
  each [0, 1] (fun n => onFine n (fun f => { f with streaming := f.streaming || f.joining, joining := false })) s

end Sys2Proof.Machine
end

