-- ==== Sys2Proof/Machine/CarrierFrames.lean ====
section
/-! DEFINITION. What a period boundary does to a carrier: the frame that begins there, its superblock and message, power
steps and retunes (06 R167 to R191, 08 R231 to R241, R249). -/

namespace Sys2Proof.Machine

/-! ### Frames that have gone out -/

/-- Whether the frame of the period that ends at this boundary was radiated whole: the carrier was on, or has finished the
frame in which it was told to stop. -/
def frameWent (p : Nat) (q : Carrier) : Bool :=
  !q.frame.isEmpty && !retuneFrame (p - 1) q && (q.phase == .on || (q.phase == .stopping && q.stopCause != 3 && decide (q.m + 1 = p)))

/-- The frames of the period that ends are counted. -/
def countFrames (s : State) : State :=
  each ((openCarriers s).filter (fun p => frameWent (period s) p.2)) (fun p s =>
    bumpBy (b2n p.2.invalid) (P.txFramesInvalid p.1) (bump (P.txFramesSent p.1) s)) s

/-! ### Superblock and message (06 R186, R187, 08 R232, R233) -/

/-- The name of a carrier. -/
def carrierName (s : State) (c : Nat) : List Byte := (List.range 3).flatMap (fun i => leBytes 4 (parGet s (P.txName0 c i)))

/-- Message control and payload of the fragment that a superblock carries. -/
def txFragment (q : Carrier) : Nat × List Byte :=
  match q.msg with
  | some m =>
    let n := ceilDiv m.bytes.length 7
    let pl := (m.bytes.drop (7 * m.sent)).take 7
    (128 * b2n (m.sent == 0) + 64 * b2n (m.sent + 1 == n) + 8 * (m.sent % 8) + pl.length, pl)
  | none => (0, [])

/-- At a superblock start a message begins, goes on to its next fragment, or has been sent. -/
def messageStep (c : Nat) (s : State) : State :=
  match (carrier s c).msg with
  | none => s
  | some m =>
    if !m.begun then onCarrier c (fun q => { q with msg := some { m with begun := true, sent := 0 } }) s
    else if 7 * (m.sent + 1) < m.bytes.length then
      onCarrier c (fun q => { q with msg := some { m with sent := m.sent + 1 } }) s
    else queueEvent 0x4006 c m.bytes.length (onCarrier c (fun q => { q with msg := none }) s)

/-- The superblock that begins. Where a carrier begins to be built in the middle of a superblock, it takes the settings of
that instant, and no message: DESIGN CHOICE. -/
def newSuperblock (c : Nat) (s : State) : State :=
  let starts := period s % 32 == 0
  let s := if starts then messageStep c s else s
  let q := carrier s c
  if starts || q.sb.isEmpty then
    let txId := q.session.elim 0 (fun x => (session s x).txId)
    let (ctrl, pl) := if starts then txFragment q else (0, [])
    let flags := parGet s (P.txCfg1 c) + 2 * parGet s (P.txCfg2 c)
    onCarrier c (fun q => { q with sb := downlinkSuperblock txId (carrierName s c) flags ctrl pl }) s
  else s

/-! ### The frame that begins at a boundary (06 R167 to R171, R188, 08 R231) -/

/-- Router destinations of a carrier: 0 left, 1 right. -/
def carrierDest (c side : Nat) : Nat := 0x1000 + 2 * c + side

/-- Whether a side is routed. -/
def sideRouted (s : State) (c side : Nat) : Bool :=
  s.audio.routes.any (fun p => delivering p.2 && p.2.dst == carrierDest c side)

/-- A side's block, and its last decoded sample, which is 0 after the silent block (06 R171, R180). -/
def sideBlock (valid : Bool) (x : List Int) (r : Int) : List Bool × Int :=
  if valid then tallyEncode tallyNormal x r else (silentBlock tallyNormal, 0)

/-- The air ID of a carrier. -/
def carrierAir (c : Nat) (q : Carrier) : Nat := q.session.elim c (fun x => 0x100 + x)

/-- The audio field as it is sent: encrypted where the session or CARRIER_OPEN requires it. -/
def carrierAudio (s : State) (c : Nat) (audio : List Bool) : Bool × List Bool :=
  let q := carrier s c
  match q.session with
  | some x =>
    if q.encrypt || (session s x).flags % 2 == 1 then
      let (key, epoch) := frameKey (session s x) (period s)
      (true, frameCrypt key 2 0 (carrierAir c q) (period s) epoch audio)
    else (false, audio)
  | none => (false, audio)

/-- Whether the frame of the present period goes out when nothing cuts it. -/
def goesOut (s : State) (q : Carrier) : Bool :=
  !retuneFrame (period s) q && (q.phase == .on || ((q.phase == .starting || q.phase == .held) && q.m == period s && mayRadiate s))

/-- The frame that begins now, from the samples of the period that has ended (`old`); `late`: the carrier's work missed
its deadline. -/
def buildFrame (old : State) (late : Bool) (c : Nat) (s : State) : State :=
  let s := newSuperblock c s
  let q := carrier s c
  let mono := parGet s (P.txCfg c) == 1
  let bad := late || domDown s Dom.abc || domDown s Dom.aud
  let right := if mono then 0 else 1
  let vl := sideRouted old c 0 && !bad
  let vr := sideRouted old c right && !bad
  let (bl, rl) := sideBlock vl (destBlock old (carrierDest c 0)) q.prevL
  let (br, rr) := sideBlock vr (destBlock old (carrierDest c right)) q.prevR
  let (enc, audio) := carrierAudio s c (bl ++ br)
  let (ok, s) := if goesOut s q then crcVerdict (0x40 + c) true s else (true, s)
  let fc := period s % 64
  let flags := b2n vl + 2 * b2n vr + 4 * b2n enc + 8 * b2n mono
  let md := (q.sb.getD (fc % 32) 0).toNat
  let wanted := sideRouted old c 0 || sideRouted old c right
  onCarrier c (fun q => { q with
    prevL := rl, prevR := rr, invalid := bad && wanted
    frame := downlinkBits (carrierAir c q) fc flags md audio !ok }) s

/-- Every open carrier whose work is admitted builds its frame while TXD runs, and the symbols of the period follow. -/
def buildFrames (old : State) (missed : List WorkRef) (s : State) : State :=
  let s := each ((openCarriers s).filter (fun p => !p.2.starting)) (fun p s =>
    if domDown s Dom.txd then onCarrier p.1 (fun q => { q with frame := [], invalid := false }) s
    else buildFrame old (missed.contains ⟨wkCarrier, p.1⟩) p.1 s) s
  each (openCarriers s) (fun p => onCarrier p.1 (fun q => { q with air := airOf s q })) s

/-! ### Power steps and retunes (08 R236, R240, R241) -/

/-- A carrier's step takes effect. -/
def setStep (c k : Nat) (s : State) : State :=
  parSet (P.txStep c) k (onCarrier c (fun q => { q with step := k, stepNext := none }) s)

/-- The step that CARRIER_SET_POWER set. -/
def stepOf (c : Nat) (s : State) : State :=
  match (carrier s c).stepNext with
  | some k => setStep c k s
  | none => s

/-- A step above the ceiling becomes the ceiling. -/
def clampStep (c : Nat) (s : State) : State :=
  let top := ceilingOf s.tx.steps
  if (carrier s c).step ≤ top then s
  else queueEvent 0x4004 c top (bump (P.txClamps c) (setStep c top s))

/-- A committed `TX_POWER_STEPS` takes effect. -/
def newSteps (s : State) : State :=
  match s.tx.stepsNext with
  | none => s
  | some t =>
    let s := { s with tx := { s.tx with steps := t, stepsNext := none } }
    parSet P.txCeiling (ceilingOf t) (parSet P.txCeiling16 (uint 16 (stepLevel t (ceilingOf t))) s)

/-- A HOP element never sent when the carrier's boundary arrives, and the NCO that moves there. -/
def retuneMove (c : Nat) (s : State) : State :=
  match (carrier s c).retune with
  | some h => carrierMove c (if decide (h.period ≤ period s) && !(carrier s c).retuning then unannounced 1 c h s else s)
  | none => s

/-- Every open carrier at a boundary, before its frame is built. -/
def carriersTick (s : State) : State :=
  let s := each ((openCarriers s).map Prod.fst) (fun c s => retuneMove c (stepOf c s)) s
  let s := newSteps s
  each ((openCarriers s).map Prod.fst) clampStep s

end Sys2Proof.Machine
end

