-- ==== Sys2Proof/Machine/Tick.lean ====
section
/-! DEFINITION. What the block does when no command waits: the timebase counts one sample-clock cycle. -/

namespace Sys2Proof.Machine

/-- The number of sample-clock cycles in a period (00 R6). -/
def periodTicks : Nat := 61440

/-- The timebase counts (04 R96): the main PLL is locked and no bridge is open. -/
def tbRuns (s : State) : Bool := s.clk.pllLocked && !s.clk.bridging

/-- One sample-clock cycle with no command (04 R96). It never reaches a period boundary by itself: the boundary is
the command PERIOD_TICK. DESIGN CHOICE. -/
def idleTick (s : State) : State :=
  if tbRuns s && (s.timebase.toNat + 1) % periodTicks != 0 then { s with timebase := s.timebase + 1 } else s

end Sys2Proof.Machine
end

