-- ==== Sys2Proof/Machine/PeriodTick.lean ====
section
/-! DEFINITION. PERIOD_TICK: the period that ends is closed, the timebase is at the next boundary, misses are judged, changes
for the boundary take effect, and every source and output has its samples of the period that begins (01 R21, 03 R76, R82 to
R85, 10 R303 to R308, 18 R469). -/

namespace Sys2Proof.Machine

/-! ### Rods (10 R303 to R308) -/

/-- A rod's four inputs of the period, then its run. -/
def ranRod (s : State) (r cycles : Nat) : Rod × Sats :=
  runRod cycles ((List.range 4).foldl (fun q k => writeIn k (destBlock s (0x1300 + 4 * r + k)) q) (rod s r))

/-- An output that fades in one period (10 R308); where the scaled value is no integer its rounding is free. -/
def fadeOut (d k : Nat) (x : List Int) : List Int :=
  (List.range 24).map (fun n =>
    let v := x.getD n 0 * (23 - (n : Int))
    v / 24 + if v % 24 ≠ 0 ∧ Config.roundUp d (24 * k + n) then 1 else 0)

/-- The outputs of a rod whose work missed its deadline: the last completed ones faded, then silence. -/
def rodConcealed (d : Nat) (q : Rod) : List (List Int) :=
  (List.range 4).map (fun k => if q.aborted = 0 then fadeOut d k (q.last.getD k []) else [])

/-- Saturations of a run are counted. -/
def rodSats (r : Nat) (x : Sats) (s : State) : State :=
  let s := bumpBy x.acc P.abcAccSats (bumpBy x.store P.abcStoreSats s)
  if x.acc = 0 then s else queueWindow (0x7004 * 65536 + r) sec1 0x7004 r x.acc id s

/-- The run of one rod over the period that ends; `cut`: the cycles it completed before it was aborted; `late`: its outputs
are not handed over. -/
def rodPeriod (r : Nat) (cut : Option Nat) (late : Bool) (s : State) : State :=
  let c := (rod s r).cycles
  let (q, x) := ranRod s r (cut.elim c (fun n => min n (c - 1)))
  let s := rodSats r x s
  let s := match cut with
    | some n => queueEvent 0xA011 r n (bump P.rckRodAborts s)
    | none => s
  if late || cut.isSome then
    let (d, s) := draw s
    onRod r (fun _ => { q with out := rodConcealed d q, aborted := min 2 (q.aborted + 1) }) s
  else
    let out := (List.range 4).map (fun k => readOut k q)
    onRod r (fun _ => { q with out := out, last := out, aborted := 0 }) s

/-- Rods whose program runs in the present period. -/
def liveRods (s : State) : List Nat :=
  (s.rods.filter (fun p => p.2.phase == .running && !p.2.starting && !p.2.resting)).map Prod.fst

/-- A rod that has no run to hand over while ABC is down: concealed as after an abort. -/
def restRod (r : Nat) (s : State) : State :=
  let (d, s) := draw s
  onRod r (fun q => { q with out := rodConcealed d q, aborted := min 2 (q.aborted + 1) }) s

/-- Every running program; none runs while ABC is down. -/
def runRods (cuts : List (Nat × Nat)) (late : List Late) (s : State) : State :=
  if domDown s Dom.abc then each (liveRods s) restRod s
  else each (liveRods s) (fun r s =>
    rodPeriod r ((cuts.find? (fun x => x.1 == r)).map Prod.snd) (late.any (fun l => l.work == ⟨wkProgram, r⟩)) s) s

/-- The aborts of running rods, as misses. -/
def abortLate (cuts : List (Nat × Nat)) (s : State) : List Late :=
  if domDown s Dom.abc then []
  else (cuts.filter (fun x => (liveRods s).contains x.1)).map (fun x => ⟨Dom.abc, ⟨wkProgram, x.1⟩, false⟩)

/-! ### Perturbations (18 R466, R469) -/

/-- A perturbation starts to act, ages, or has stopped. -/
def agePert (n : Nat) (s : State) : State :=
  match smFind s.rattle.armed n with
  | none => s
  | some p =>
    if p.stopping then
      setArmed (match p.again with
        | none => smErase s.rattle.armed n
        | some (t, v, a) => smPut s.rattle.armed n { freshPert n t v a with starting := false }) s
    else
      let left := if n = 3 then 0 else p.left
      let p := if p.starting then { p with starting := false, age := 0 } else { p with age := p.age + 1, left := left }
      setArmed (smPut s.rattle.armed n p) s

/-- A port slips or loses a bit-clock edge. -/
def pertPort (p mode : Nat) (s : State) : State :=
  let q := port s p
  if q.phase != .running || (mode == 2 && q.cfg.role != 1) then s
  else
    let s := injected 4 s
    if mode = 2 then glitch p s
    else if isSlip q.cfg then slipFrame p (mode == 0) s
    else s

/-- The lock detector reports a loss. -/
def pertLock (p : Pert) (s : State) : State :=
  if p.left = 0 ∨ bits p.setting 1 0 ≠ 2 then s
  else if p.target = 0 then (if s.clk.pllLocked then pllLost (injected 6 (useInjection 6 s)) else s)
  else if locked s p.target then synthLost p.target (synth s p.target).band (injected 6 (useInjection 6 s)) else s

/-- A preamble with no transmission behind it, of a level and an offset that the spec does not give. -/
def pertPreamble (p : Pert) (s : State) : State :=
  if p.target = 0x80 then
    (if s.cl.phase = .running && s.cl.listening then bump P.clFalseStarts (injected 8 s) else s)
  else if !laneRuns s p.target then s
  else
    let l := link s p.target
    let k := if l.t0.phase = .search then 0 else 1
    let start := now s + 512 * bits p.setting 7 0 + 32 * symTicks
    let (d, s) := draw s
    let c := newCandidate .pre start (Config.openInt d) 0 (Config.openNat d)
    let s := injected 8 s
    match (trk l k).phase with
    | .search => takeCandidate p.target k c s
    | .watch => tryCapture p.target k c s
    | _ => s

/-- What a perturbation does in a period in which it acts. -/
def actPert (n : Nat) (s : State) : State :=
  match acting s n with
  | none => s
  | some p =>
    if p.age % pertInterval n p.setting ≠ 0 then s
    else match n with
      | 1 => if domOn s p.target && !restarting s p.target then injected 1 s else s
      | 2 => injected 2 s
      | 4 => pertPort p.target (bits p.setting 17 16) s
      | 5 => injected 5 s
      | 6 => pertLock p s
      | 7 => setArmed (smPut s.rattle.armed 7 { p with left := bits p.setting 23 16 }) s
      | 8 => pertPreamble p s
      | 9 => injected 9 (brownCross p.target p.setting s)
      | _ => s

/-- Every armed perturbation at a boundary. -/
def pertTick (s : State) : State := each ((List.range 9).map (· + 1)) (fun n s => actPert n (agePert n s)) s

/-! ### Deadlines (03 R82 to R87) -/

/-- The items late at this boundary: those reported, those whose output a stage timeout replaced, those aborted. -/
def lateAt (s : State) (env : PeriodEnv) : List Late :=
  env.late ++ (s.rck.stalled.filter (fun x => decide (x.1 ≤ period s))).map Prod.snd ++ abortLate env.aborts s

/-- Misses are counted (03 R82 to R85), those in a gap of the main PLL among them; the domains that offended. -/
def judge (late : List Late) (s : State) : State × List Nat :=
  let s := { s with rck := { s.rck with missed := [], stalled := s.rck.stalled.filter (fun x => decide (period s < x.1)) } }
  countMisses late (if restarting s Dom.ckg then gapMisses s else s)

/-- Once the outputs of the boundary are made, the domains whose watchdog expired and the domains that offended are restarted
(03 R83, R87). -/
def restartOffenders (dogs told : List Nat) (s : State) : State :=
  each (told.filter (fun d => d != Dom.ckg)) (fun d s => restartDomain d 1 s) (each dogs (fun d s => restartDomain d 2 s) s)

/-! ### Changes that take effect at a boundary -/

/-- Commands that complete at a boundary; a COEF_WRITE waits while ABC restarts (10 R307). -/
def doneBoundary (s : State) : State :=
  each ((waitingFor .boundary s).filter (fun r => !(r.op == 0x73 && restarting s Dom.abc)))
    (fun r s => workDone (progOf r.cmd) r s) s

/-- A link, carrier or program that was admitted begins (03 R76, 10 R302). -/
def beginLinks (s : State) : State :=
  { s with links := smMap Link.reset (fun _ l =>
    if l.starting then searchLane { l with starting := false } else l) s.links }
def beginCarriers (s : State) : State :=
  { s with carriers := smMap Carrier.reset (fun _ q => { q with starting := false }) s.carriers }
def beginRods (s : State) : State :=
  { s with rods := smMap Rod.reset (fun _ q =>
    if q.starting then { clearRod q with starting := false, active := 0 } else { q with resting := false }) s.rods }

/-- `ALT_FREQ` as committed. -/
def newAlternates (s : State) : State :=
  match s.rf.altNext with
  | some m => onRf (fun r => { r with alt := m, altNext := none }) s
  | none => s

/-- Coefficient banks whose swap is due exchange; while ABC restarts they wait (10 R307). -/
def swapsDue (s : State) : State :=
  if domDown s Dom.abc then s else each (s.rods.map Prod.fst) swapBanks s

/-- The knob step of the boundary; a boot plan that ends lets `READY` rise (17 R455, R457, 19 R490). -/
def planTick (s : State) : State :=
  let boots := s.supply.booting && s.age.plan.any (fun p => p.kind == 1)
  let t := planStep s
  let t := if boots && t.age.plan.isNone then riseReady t else t
  afterPlan s.age.plan t

/-- Everything that waited for the boundary. -/
def boundaryChanges (env : PeriodEnv) (s : State) : State :=
  let s := forgetBelow (boundaryLedger (removeEnded (doneBoundary (beaconEnds s))))
  let s := carriersTick (newAlternates { s with inForce := [] })
  let s := beginRods (beginCarriers (beginLinks s))
  let s := joinStream (anaRamps (startRamps (swapsDue s)))
  let s := rfTick env (keyReturns s)
  countIdle (poweredPeriod (planTick s))

/-! ### Samples of the period that begins (11 R328) -/

/-- The outputs of the programs as sources. -/
def rodSources (s : State) : State :=
  let (d, s) := draw s
  each (List.range 64) (fun r s => each (List.range 4) (fun k s =>
    let x := block24 ((rod s r).out.getD k [])
    pushBlock (0x300 + 4 * r + k) (if fadesIn s [Dom.abc] then freeFade d x else x) s) s) s

/-- The outputs of the links as sources. -/
def linkSources (s : State) : State :=
  each (List.range 64) (fun n s => pushBlock n ((link s n).out) s) s

/-- Slots that are no longer carried deliver silence. -/
def idleSlots (s : State) : State :=
  each ((s.audio.past.map Prod.fst).filter (fun k => decide (0x100 ≤ k ∧ k < 0x1C0) &&
    !(port s ((k - 0x100) / 32)).cfg.inMask.testBit (k % 32))) (fun k s => pushBlock k [] s) s

/-- Each bus has a block, silent until the router runs. -/
def busSources (s : State) : State := each (List.range 32) (fun b s => pushBlock (0x200 + b) [] s) s

/-- Fades of restarted domains go on. -/
def fadeSteps (s : State) : State :=
  { s with rck := { s.rck with fading := (s.rck.fading.filter (fun x => decide (1 < x.2))).map (fun x => (x.1, x.2 - 1)) } }

/-- Every source, the router, every output. -/
def flow (env : PeriodEnv) (s : State) : State :=
  let missed := s.rck.missed
  let s := linkSources (linksTick missed s)
  let s := rodSources (micsIn env (idleSlots (portsIn env missed s)))
  let s := runRouter missed (busSources s)
  fadeSteps (anaOut env (portsOut missed (draw s).2))

/-! ### The row -/

/-- PERIOD_TICK. The timebase counts while the main PLL is locked; a boundary that it does not reach has no effect. -/
def execPeriodTick (env : PeriodEnv) (s : State) : Host.Outcome State Fault Refusal :=
  .next (if !tbRuns s then s
    else
      let s := clockTick env (closeBlocks (writeTaps { s with timebase := BitVec.ofNat 64 ((period s + 1) * periodLen) }))
      let late := lateAt s env
      let dogs := s.rck.wdog
      let (s, told) := judge late (runRods env.aborts late s)
      let s := countFrames s
      let old := s
      let s := pertTick (boundaryChanges env s)
      settle (restartOffenders dogs told (flow env (buildFrames old s.rck.missed s))))

end Sys2Proof.Machine
end

