-- ==== Sys2Proof/Machine/Dispatch.lean ====
section
/-! DEFINITION. The meaning of every command, one arm per row of the opcode table. -/

namespace Sys2Proof.Machine

/-- The effect of a command on everything but the queue of commands that wait. -/
def exec (i : Instr) (s : State) : Host.Outcome State Fault Refusal :=
  match i with
  | .nop h => Sys2Proof.Machine.execNop h s
  | .getInfo h => Sys2Proof.Machine.execGetInfo h s
  | .reset h kind => Sys2Proof.Machine.execReset h kind s
  | .getEvents h maxRecs => Sys2Proof.Machine.execGetEvents h maxRecs s
  | .setEventMask h block mode => Sys2Proof.Machine.execSetEventMask h block mode s
  | .getCounters h first n => Sys2Proof.Machine.execGetCounters h first n s
  | .timeRead h => Sys2Proof.Machine.execTimeRead h s
  | .timeSetAlarm h time action => Sys2Proof.Machine.execTimeSetAlarm h time action s
  | .fwPatchBegin h length digest => Sys2Proof.Machine.execFwPatchBegin h length digest s
  | .fwPatchData h offset data => Sys2Proof.Machine.execFwPatchData h offset data s
  | .fwPatchCommit h => Sys2Proof.Machine.execFwPatchCommit h s
  | .paramGet h pid => Sys2Proof.Machine.execParamGet h pid s
  | .paramSet h pid value => Sys2Proof.Machine.execParamSet h pid value s
  | .paramSetMany h pairs => Sys2Proof.Machine.execParamSetMany h pairs s
  | .tableRead h table first count => Sys2Proof.Machine.execTableRead h table first count s
  | .tableWrite h table first count entries => Sys2Proof.Machine.execTableWrite h table first count entries s
  | .tableCommit h table => Sys2Proof.Machine.execTableCommit h table s
  | .rfTuneWindow h path edge => Sys2Proof.Machine.execRfTuneWindow h path edge s
  | .rfCalibrate h items => Sys2Proof.Machine.execRfCalibrate h items s
  | .rfScanStart h start stop step passes => Sys2Proof.Machine.execRfScanStart h start stop step passes s
  | .rfScanStop h => Sys2Proof.Machine.execRfScanStop h s
  | .rfSetGain h aerial mode gain => Sys2Proof.Machine.execRfSetGain h aerial mode gain s
  | .rfGetSpectrum h start nbins => Sys2Proof.Machine.execRfGetSpectrum h start nbins s
  | .rfCoordinate h links carriers options => Sys2Proof.Machine.execRfCoordinate h links carriers options s
  | .linkOpen h link hz cls mode session air => Sys2Proof.Machine.execLinkOpen h link hz cls mode session air s
  | .linkClose h link => Sys2Proof.Machine.execLinkClose h link s
  | .linkRetune h link hz period => Sys2Proof.Machine.execLinkRetune h link hz period s
  | .linkStatus h link => Sys2Proof.Machine.execLinkStatus h link s
  | .linkSetAlt h link freqs => Sys2Proof.Machine.execLinkSetAlt h link freqs s
  | .linkPrivilege h link on => Sys2Proof.Machine.execLinkPrivilege h link on s
  | .carrierOpen h carrier hz cls step session encrypt => Sys2Proof.Machine.execCarrierOpen h carrier hz cls step session encrypt s
  | .carrierClose h carrier => Sys2Proof.Machine.execCarrierClose h carrier s
  | .carrierSetPower h carrier step => Sys2Proof.Machine.execCarrierSetPower h carrier step s
  | .carrierRetune h carrier hz period => Sys2Proof.Machine.execCarrierRetune h carrier hz period s
  | .txEnable h mask => Sys2Proof.Machine.execTxEnable h mask s
  | .txDisable h mask => Sys2Proof.Machine.execTxDisable h mask s
  | .clStart h hz power => Sys2Proof.Machine.execClStart h hz power s
  | .clStop h => Sys2Proof.Machine.execClStop h s
  | .sessionAdd h session txId flags key => Sys2Proof.Machine.execSessionAdd h session txId flags key s
  | .sessionRemove h session => Sys2Proof.Machine.execSessionRemove h session s
  | .sessionSend h session data => Sys2Proof.Machine.execSessionSend h session data s
  | .sessionStatus h session => Sys2Proof.Machine.execSessionStatus h session s
  | .clHop h kind index hz period => Sys2Proof.Machine.execClHop h kind index hz period s
  | .portConfig h port format rate slots role slotBits inMask outMask drive => Sys2Proof.Machine.execPortConfig h port format rate slots role slotBits inMask outMask drive s
  | .portStart h mask start period => Sys2Proof.Machine.execPortStart h mask start period s
  | .portStop h mask => Sys2Proof.Machine.execPortStop h mask s
  | .routeSet h route source dest gain => Sys2Proof.Machine.execRouteSet h route source dest gain s
  | .routeClear h route => Sys2Proof.Machine.execRouteClear h route s
  | .mixSetGain h bus cls gain => Sys2Proof.Machine.execMixSetGain h bus cls gain s
  | .tapConfig h route packing offset length => Sys2Proof.Machine.execTapConfig h route packing offset length s
  | .analogConfig h target field value => Sys2Proof.Machine.execAnalogConfig h target field value s
  | .progLoad h rod first words => Sys2Proof.Machine.execProgLoad h rod first words s
  | .progAdmit h rod cls => Sys2Proof.Machine.execProgAdmit h rod cls s
  | .progRetire h rod => Sys2Proof.Machine.execProgRetire h rod s
  | .coefWrite h rod bank first words => Sys2Proof.Machine.execCoefWrite h rod bank first words s
  | .coefSwap h rod period => Sys2Proof.Machine.execCoefSwap h rod period s
  | .measConfig h converter channel rate order notch trigger delay => Sys2Proof.Machine.execMeasConfig h converter channel rate order notch trigger delay s
  | .measNow h converter channel => Sys2Proof.Machine.execMeasNow h converter channel s
  | .measStreamStart h mask offset length => Sys2Proof.Machine.execMeasStreamStart h mask offset length s
  | .measStreamStop h mask => Sys2Proof.Machine.execMeasStreamStop h mask s
  | .cdacSet h channel code update => Sys2Proof.Machine.execCdacSet h channel code update s
  | .cdacRange h channel range => Sys2Proof.Machine.execCdacRange h channel range s
  | .powerStateRequest h state => Sys2Proof.Machine.execPowerStateRequest h state s
  | .powerStatus h => Sys2Proof.Machine.execPowerStatus h s
  | .domainHold h domain hold => Sys2Proof.Machine.execDomainHold h domain hold s
  | .budgetQuery h resource index => Sys2Proof.Machine.execBudgetQuery h resource index s
  | .marginReplan h => Sys2Proof.Machine.execMarginReplan h s
  | .ageingReport h => Sys2Proof.Machine.execAgeingReport h s
  | .cosignPropose h digest => Sys2Proof.Machine.execCosignPropose h digest s
  | .cosignApprove h tag => Sys2Proof.Machine.execCosignApprove h tag s
  | .cosignCancel h => Sys2Proof.Machine.execCosignCancel h s
  | .cosignStatus h => Sys2Proof.Machine.execCosignStatus h s
  | .nonceGet h => Sys2Proof.Machine.execNonceGet h s
  | .rattleArm h pert target setting => Sys2Proof.Machine.execRattleArm h pert target setting s
  | .rattleDisarm h pert => Sys2Proof.Machine.execRattleDisarm h pert s
  | .testLoopback h kind index => Sys2Proof.Machine.execTestLoopback h kind index s
  | .badOpcode h op => Sys2Proof.Machine.execBadOpcode h op s
  | .syncArmOneShot h => Sys2Proof.Machine.execSyncArmOneShot h s
  | .syncArmMonitor h => Sys2Proof.Machine.execSyncArmMonitor h s
  | .syncDisarm h => Sys2Proof.Machine.execSyncDisarm h s
  | .txMsgSend h carrier len => Sys2Proof.Machine.execTxMsgSend h carrier len s
  | .poweredHoursWrite h hours => Sys2Proof.Machine.execPoweredHoursWrite h hours s
  | .spiWriteMailbox quad data => Sys2Proof.Machine.execSpiWriteMailbox quad data s
  | .spiReadMailbox quad n => Sys2Proof.Machine.execSpiReadMailbox quad n s
  | .spiReadFrontWindow quad addr n => Sys2Proof.Machine.execSpiReadFrontWindow quad addr n s
  | .spiWriteFrontWindow quad addr data => Sys2Proof.Machine.execSpiWriteFrontWindow quad addr data s
  | .spiReadStatus quad n => Sys2Proof.Machine.execSpiReadStatus quad n s
  | .spiProtoErr code => Sys2Proof.Machine.execSpiProtoErr code s
  | .cmdMailboxWrite ch b => Sys2Proof.Machine.execCmdMailboxWrite ch b s
  | .replyMailboxRead ch => Sys2Proof.Machine.execReplyMailboxRead ch s
  | .flushCmd ch => Sys2Proof.Machine.execFlushCmd ch s
  | .flushReply ch => Sys2Proof.Machine.execFlushReply ch s
  | .timebaseLatch => Sys2Proof.Machine.execTimebaseLatch s
  | .alertStatusWrite v => Sys2Proof.Machine.execAlertStatusWrite v s
  | .frontWindowWrite ch addr v => Sys2Proof.Machine.execFrontWindowWrite ch addr v s
  | .twWriteTransfer addr data => Sys2Proof.Machine.execTwWriteTransfer addr data s
  | .twReadTransfer addr n mismatch => Sys2Proof.Machine.execTwReadTransfer addr n mismatch s
  | .alertResponse other => Sys2Proof.Machine.execAlertResponse other s
  | .twProtoError kind => Sys2Proof.Machine.execTwProtoError kind s
  | .twWakeNack addr detail => Sys2Proof.Machine.execTwWakeNack addr detail s
  | .twAddressMatchSleep addr => Sys2Proof.Machine.execTwAddressMatchSleep addr s
  | .twSclTimeout sdaLow => Sys2Proof.Machine.execTwSclTimeout sdaLow s
  | .packetAssemblyTimeout ch => Sys2Proof.Machine.execPacketAssemblyTimeout ch s
  | .discardModeEnd ch => Sys2Proof.Machine.execDiscardModeEnd ch s
  | .heldReplyEntersFifo ch => Sys2Proof.Machine.execHeldReplyEntersFifo ch s
  | .cmdTimeout ch tag => Sys2Proof.Machine.execCmdTimeout ch tag s
  | .softResetTrigger => Sys2Proof.Machine.execSoftResetTrigger s
  | .seqWatchdogExpiry => Sys2Proof.Machine.execSeqWatchdogExpiry s
  | .seqRestarted => Sys2Proof.Machine.execSeqRestarted s
  | .timeAlarm => Sys2Proof.Machine.execTimeAlarm s
  | .periodTick env => Sys2Proof.Machine.execPeriodTick env s
  | .stageTimeout domain stage work => Sys2Proof.Machine.execStageTimeout domain stage work s
  | .domainWdog domain => Sys2Proof.Machine.execDomainWdog domain s
  | .domainRestart domain => Sys2Proof.Machine.execDomainRestart domain s
  | .laneReacquire link => Sys2Proof.Machine.execLaneReacquire link s
  | .xtalQualified => Sys2Proof.Machine.execXtalQualified s
  | .mainPllLockCheck confirmed lf => Sys2Proof.Machine.execMainPllLockCheck confirmed lf s
  | .xtalFail => Sys2Proof.Machine.execXtalFail s
  | .xtalFailRelease lf boot addrPins => Sys2Proof.Machine.execXtalFailRelease lf boot addrPins s
  | .lfCrystalTakeover => Sys2Proof.Machine.execLfCrystalTakeover s
  | .lfSourceChange => Sys2Proof.Machine.execLfSourceChange s
  | .mainPllLockLost => Sys2Proof.Machine.execMainPllLockLost s
  | .refQualified => Sys2Proof.Machine.execRefQualified s
  | .refLocked correction => Sys2Proof.Machine.execRefLocked correction s
  | .refLost cause average => Sys2Proof.Machine.execRefLost cause average s
  | .holdoverEnd => Sys2Proof.Machine.execHoldoverEnd s
  | .synthLockCheck id confirmed band => Sys2Proof.Machine.execSynthLockCheck id confirmed band s
  | .synthLockLost id band => Sys2Proof.Machine.execSynthLockLost id band s
  | .tempSample temp => Sys2Proof.Machine.execTempSample temp s
  | .syncInstant => Sys2Proof.Machine.execSyncInstant s
  | .syncMonitorEdge error => Sys2Proof.Machine.execSyncMonitorEdge error s
  | .imageCalFastEnd => Sys2Proof.Machine.execImageCalFastEnd s
  | .imageCalAlarm aerial irr => Sys2Proof.Machine.execImageCalAlarm aerial irr s
  | .privCalDone link aRe aIm bRe bIm => Sys2Proof.Machine.execPrivCalDone link aRe aIm bRe bIm s
  | .scanDwellEnd meas => Sys2Proof.Machine.execScanDwellEnd meas s
  | .scanPassEnd => Sys2Proof.Machine.execScanPassEnd s
  | .preambleDetected link tracker start a b => Sys2Proof.Machine.execPreambleDetected link tracker start a b s
  | .syncWordDetected link tracker start bin w => Sys2Proof.Machine.execSyncWordDetected link tracker start bin w s
  | .preTimeout link tracker => Sys2Proof.Machine.execPreTimeout link tracker s
  | .uplinkFrame link frame => Sys2Proof.Machine.execUplinkFrame link frame s
  | .syncWindowClose link => Sys2Proof.Machine.execSyncWindowClose link s
  | .intrusionBarEnd link => Sys2Proof.Machine.execIntrusionBarEnd link s
  | .hopAltChosen link levels => Sys2Proof.Machine.execHopAltChosen link levels s
  | .hopBoundary link => Sys2Proof.Machine.execHopBoundary link s
  | .hopFailed link => Sys2Proof.Machine.execHopFailed link s
  | .carrierRetuned carrier => Sys2Proof.Machine.execCarrierRetuned carrier s
  | .txStartBoundary => Sys2Proof.Machine.execTxStartBoundary s
  | .txRampDownEnd => Sys2Proof.Machine.execTxRampDownEnd s
  | .paOffDelayExpiry => Sys2Proof.Machine.execPaOffDelayExpiry s
  | .txResumed => Sys2Proof.Machine.execTxResumed s
  | .beaconSlot grant lockOk => Sys2Proof.Machine.execBeaconSlot grant lockOk s
  | .replySlotEnd slot grant => Sys2Proof.Machine.execReplySlotEnd slot grant s
  | .pollReply slot pkt => Sys2Proof.Machine.execPollReply slot pkt s
  | .join slot pkt => Sys2Proof.Machine.execJoin slot pkt s
  | .clPreambleFalseStart => Sys2Proof.Machine.execClPreambleFalseStart s
  | .sessionRemoved session reason => Sys2Proof.Machine.execSessionRemoved session reason s
  | .keyChangeBoundary session => Sys2Proof.Machine.execKeyChangeBoundary session s
  | .clHopDone lockOk => Sys2Proof.Machine.execClHopDone lockOk s
  | .coexGrantWithdrawn => Sys2Proof.Machine.execCoexGrantWithdrawn s
  | .portStartInstant port => Sys2Proof.Machine.execPortStartInstant port s
  | .startTrig => Sys2Proof.Machine.execStartTrig s
  | .portStopped port => Sys2Proof.Machine.execPortStopped port s
  | .portLost port cause => Sys2Proof.Machine.execPortLost port cause s
  | .portEdgesReturn port => Sys2Proof.Machine.execPortEdgesReturn port s
  | .portReturned port us => Sys2Proof.Machine.execPortReturned port us s
  | .portRateMeasured port rate ratio off => Sys2Proof.Machine.execPortRateMeasured port rate ratio off s
  | .portGlitch port => Sys2Proof.Machine.execPortGlitch port s
  | .portSlip port faster => Sys2Proof.Machine.execPortSlip port faster s
  | .asrcAcquired port => Sys2Proof.Machine.execAsrcAcquired port s
  | .zeroCrossing bus index sample => Sys2Proof.Machine.execZeroCrossing bus index sample s
  | .zcTimeout bus index => Sys2Proof.Machine.execZcTimeout bus index s
  | .routeFadeEnd route => Sys2Proof.Machine.execRouteFadeEnd route s
  | .analogSequenceEnd target => Sys2Proof.Machine.execAnalogSequenceEnd target s
  | .jackChanged jack inserted => Sys2Proof.Machine.execJackChanged jack inserted s
  | .spkOvercurrent => Sys2Proof.Machine.execSpkOvercurrent s
  | .spkUndervoltage => Sys2Proof.Machine.execSpkUndervoltage s
  | .spkRestart => Sys2Proof.Machine.execSpkRestart s
  | .micbiasLimit bias => Sys2Proof.Machine.execMicbiasLimit bias s
  | .timerTick timer => Sys2Proof.Machine.execTimerTick timer s
  | .pwmEdgeTrigger pwm => Sys2Proof.Machine.execPwmEdgeTrigger pwm s
  | .conversionDone converter value => Sys2Proof.Machine.execConversionDone converter value s
  | .refBufferReady => Sys2Proof.Machine.execRefBufferReady s
  | .cdacRangePhaseEnd channel => Sys2Proof.Machine.execCdacRangePhaseEnd channel s
  | .domainEntryAck domain => Sys2Proof.Machine.execDomainEntryAck domain s
  | .powerHandshakeTimeout domain => Sys2Proof.Machine.execPowerHandshakeTimeout domain s
  | .idleGate domain => Sys2Proof.Machine.execIdleGate domain s
  | .domainWakeDone domain us => Sys2Proof.Machine.execDomainWakeDone domain us s
  | .domainWakeFault domain => Sys2Proof.Machine.execDomainWakeFault domain s
  | .wakeSourceFire source pin => Sys2Proof.Machine.execWakeSourceFire source pin s
  | .entryAborted => Sys2Proof.Machine.execEntryAborted s
  | .woke lf us => Sys2Proof.Machine.execWoke lf us s
  | .por order => Sys2Proof.Machine.execPor order s
  | .bor rail => Sys2Proof.Machine.execBor rail s
  | .pinReset => Sys2Proof.Machine.execPinReset s
  | .resetRelease boot addrPins => Sys2Proof.Machine.execResetRelease boot addrPins s
  | .bootReady romOk tops => Sys2Proof.Machine.execBootReady romOk tops s
  | .rfMonitorArmed => Sys2Proof.Machine.execRfMonitorArmed s
  | .brownWarn rail => Sys2Proof.Machine.execBrownWarn rail s
  | .brownHoldEnd us => Sys2Proof.Machine.execBrownHoldEnd us s
  | .topsCount tops => Sys2Proof.Machine.execTopsCount tops s
  | .scheduledPlan => Sys2Proof.Machine.execScheduledPlan s
  | .knobStepVerified tops => Sys2Proof.Machine.execKnobStepVerified tops s
  | .cosignExpired => Sys2Proof.Machine.execCosignExpired s
  | .patchSequenceTimeout => Sys2Proof.Machine.execPatchSequenceTimeout s
  | .rattleArmLimit pert => Sys2Proof.Machine.execRattleArmLimit pert s
  | .micbiasCurrentLimitRecovery bias => Sys2Proof.Machine.execMicbiasCurrentLimitRecovery bias s
  | .txQuadratureCalibrationDone => Sys2Proof.Machine.execTxQuadratureCalibrationDone s
  | .fullSynthCalibrationDone id => Sys2Proof.Machine.execFullSynthCalibrationDone id s
  | .returnToCrystalDone => Sys2Proof.Machine.execReturnToCrystalDone s
  | .replyDelayEnd ch tag => Sys2Proof.Machine.execReplyDelayEnd ch tag s
  | .postBrownHoldDeferralEnd => Sys2Proof.Machine.execPostBrownHoldDeferralEnd s
  | .slewLimiterUpdate => Sys2Proof.Machine.execSlewLimiterUpdate s
  | .railPresenceChange rail up off mv => Sys2Proof.Machine.execRailPresenceChange rail up off mv s

end Sys2Proof.Machine
end

