-- ==== Sys2Proof/Machine/Pins.lean ====
section
/-! DEFINITION. What every output ball carries, as a function of the state (20 R496, 15 R424, 19 R475, R491, 08 R247, 09 R282, 11 R315,
12 R364, 13 R384, R386). -/

namespace Sys2Proof.Machine

/-- What the device does with a ball: nothing at all, a level, a pad with its input enabled or ignored, the clamp of a pop clamp, the
1 kΩ of a bias output, or a signal. -/
inductive Ball where
  | hiZ
  | low
  | high
  | input
  | ignored
  | ground
  | pulldown1k
  | running
  deriving DecidableEq, Repr

def levelBall (b : Bool) : Ball := if b then .high else .low

/-- A rail of the supply table is up. -/
def railUp (s : State) (n : Nat) : Bool := s.supply.up.getLsbD n

/-- A control ball of the bank IOH: high impedance until the bank is up, low through a reset, high impedance while its domain is off
(08 R247, 09 R282, 19 R475). -/
def controlBall (s : State) (dom : Nat) (level : Bool) : Ball :=
  if !s.supply.iohOn then .hiZ
  else if s.supply.resetHeld.isSome then .low
  else if !domOn s dom then .hiZ
  else levelBall level

def paEnBall (s : State) : Ball := controlBall s Dom.txd (paEnNow s)
def paMuteBall (s : State) : Ball := controlBall s Dom.txd (paMuteNow s)
def cmdrfTxenBall (s : State) : Ball := controlBall s Dom.clr s.cl.txen
def cmdrfRxenBall (s : State) : Ball := controlBall s Dom.clr s.cl.rxen
def coexReqBall (s : State) : Ball := controlBall s Dom.clr (coexNow s).1
def coexPriBall (s : State) : Ball := controlBall s Dom.clr (coexNow s).2

/-- The levels of a clock output's balls at a cycle of its source: CLKOUT of the bank IOH, MCLK of the bank IOA (04 R119 to R122). -/
def clockBalls (s : State) (n v : Nat) : Ball × Ball :=
  if !(if n < 3 then s.supply.iohOn else s.supply.ioaOn) then (.hiZ, .hiZ)
  else match outLevels s n v with
    | some (a, b) => (levelBall a, levelBall b)
    | none => (.hiZ, .hiZ)

/-- `SYNC_OUT` between its edges, each of which the state holds as a time of its rise; how long it stays high is left open (04 R115,
R116, R122). -/
def syncOutBall (s : State) : Ball :=
  if !s.supply.iohOn || s.clk.syncOut = .hiZ then .hiZ else .low

/-- `INT_N` and `ALERT_N`: open drain, driven low while asserted, else released (02 R41, 14 R400). -/
def openDrain (s : State) (asserted : Bool) : Ball :=
  if s.supply.iohOn && s.supply.resetHeld.isNone && asserted then .low else .hiZ

def intBall (s : State) : Ball := openDrain s (intAsserted s)
def alertBall (s : State) : Ball := openDrain s (alertAsserted s)

/-- `SCL` and `SDA`, and the inputs of the host interface and `GPIO0` to `GPIO7`: listened to, or released with the bus ignored in a reset
or without the bank (14 R390, 19 R480, R491, 20 R496). -/
def hostBall (s : State) : Ball := if windowAnswers s then .input else .ignored

/-- `SPI_SCK`, `SPI_CS_N` and `SPI_IO0` to `SPI_IO3`: ignored in boot mode 01 besides (19 R489). -/
def spiBall (s : State) : Ball := if spiServed s then .input else .ignored

/-- `START_TRIG` (20 R496). -/
def startTrigBall (s : State) : Ball :=
  if s.supply.ioaOn && s.supply.resetHeld.isNone && domOn s Dom.aud then .input else .ignored

/-- `VSEL0` to `VSEL3` carry the code in force in every state (19 R479, R488). -/
def vselBall (s : State) (n : Nat) : Ball := levelBall ((vselNow s).testBit n)

/-! ### Audio ports (11 R315) -/

/-- A port's balls are driven: the bank is up, no reset is held, AUD is on, the port is configured. -/
def portLives (s : State) (p : Nat) : Bool :=
  s.supply.ioaOn && s.supply.resetHeld.isNone && domOn s Dom.aud && (port s p).phase != .unconfigured

/-- `Pn_BCLK` and `Pn_FSYNC`. -/
def portClockBall (s : State) (p : Nat) : Ball :=
  let q := port s p
  if !portLives s p then (if q.cfg.role = 1 then .ignored else .hiZ)
  else if q.cfg.role = 1 then .input
  else match q.phase with
    | .running | .reacquiring | .rateMuted => .running
    | _ => .low

/-- `Pn_DOUT` in frame bit `j` of frame `i` of the present period. -/
def doutBall (s : State) (p i j : Nat) : Ball :=
  if !portLives s p then .hiZ
  else match (port s p).phase with
    | .running | .reacquiring | .rateMuted => match doutBit s p i j with
      | some b => levelBall b
      | none => .hiZ
    | _ => .hiZ

/-! ### Analog balls (12 R364, 13 R384, R386) -/

/-- ANA runs, and no reset is held. -/
def anaLives (s : State) : Bool := domOn s Dom.ana && !restarting s Dom.ana && s.supply.resetHeld.isNone

/-- `MICnP`/`MICnN` of an input 0 to 3, and `MICBIAS1`, `MICBIAS2` for 4 and 5. -/
def micBall (s : State) (t : Nat) : Ball :=
  if !railUp s 7 || !anaLives s then .hiZ
  else if (ana s t).phase = 0 then (if t < 4 then .hiZ else .pulldown1k)
  else if t < 4 then .input else .running

/-- The headphone balls of output 6 or 7, and those of the speaker, 8: clamped while their rail is present and they do not run. -/
def outBall (s : State) (t : Nat) : Ball :=
  if !railUp s (if t = 8 then 9 else 8) then .hiZ
  else if !anaLives s || (ana s t).phase = 0 || (ana s t).phase = 4 then .ground
  else .running

/-- `HP_SENSE1` and `HP_SENSE2`. -/
def senseBall (s : State) : Ball := if !railUp s 8 || !anaLives s then .hiZ else .input

/-- `CDAC0` to `CDAC7`: the code that is driven, with its range; none: high impedance. -/
def cdacBall (s : State) (c : Nat) : Option (Nat × Nat) :=
  let x := smGet Cdac.reset s.inst.cdac c
  if !railUp s 7 || !anaLives s then none else some (x.out, x.range)

/-- The voltage of `MICBIAS1` or `MICBIAS2`, 4 or 5, in mV (12 R347). -/
def micbiasMv (s : State) (t : Nat) : Option Nat := if micBall s t = .running then some (anaPos s t) else none

/-- `PWM0` to `PWM3`. -/
def pwmBall (s : State) (p : Nat) : Ball :=
  let q := pwmNow s p
  let on := parGet s (P.measPwmCfg p) == 1 && decide (q.since ≤ now s ∧ now s < q.since + 10 * q.duty)
  if !s.supply.iohOn || !anaLives s then .hiZ else levelBall (on != (parGet s (P.measPwmCfg1 p) == 1))

/-! ### Radio balls -/

/-- `TXO_P`/`TXO_N`: what each carrier radiates over a symbol of the present period; nothing in a reset or without TXD. -/
def txoCarrier (s : State) (c k : Nat) : AirSym :=
  if s.supply.resetHeld.isSome || !domOn s Dom.txd then .off else (carrier s c).air.getD k .off

/-- `CMDRF` carries a signal: the bits of the beacon that is going out. -/
def cmdrfAir (s : State) : List Bool :=
  if s.supply.resetHeld.isSome || !domOn s Dom.clr || !s.cl.txen then [] else s.cl.air

end Sys2Proof.Machine
end

