-- ==== Sys2Proof/Safety.lean ====
section
/-! DEFINITION. What counts as a safe step, and the words that the claims about host commands use: when a packet starts at
once, and what its replies leave. -/

namespace Sys2Proof

/-- A step is safe when it answers a next state: no fault and no refusal. -/
def SafeStep (s : Machine.State) : Prop := ∃ t, Machine.step s = .next t

namespace Machine

/-- The packet of `c`, with header `h` and opcode `op`, starts as soon as it arrives (02 R38, R42, R49, R51, 18 R469): SEQ
runs, the channel listens and has room, nothing waits before it, its tag is free and fewer than 16 are in flight, no
running command makes it wait, and no REPLY_DELAY is armed. -/
structure Starts (c : Instr) (h : Hdr) (op : Nat) (s : State) : Prop where
  packet : ∃ params, encodeCmd c = some (h, op, params) ∧ cmdLevel s h.ch + 6 + params.length ≤ 2048
  runs : s.seq.running = true
  listens : (chan s h.ch).discard = false
  first : s.waiting = []
  room : tagsInFlight (chan s h.ch) < 16
  tag : (chan s h.ch).tags.getLsbD h.tag = false
  free : ∀ r ∈ s.running, ¬(r.hdr.ch = h.ch ∧ r.hdr.tag = h.tag)
  turn : mustWait c op s = false
  prompt : smFind s.rattle.armed 3 = none

/-- A packet has started: it is counted and its tag is in flight (02 R49). -/
def started (h : Hdr) (s : State) : State :=
  bump P.sysCmdsExecuted (onChan h.ch (fun c => { c with tags := c.tags ||| tagBit h.tag }) s)

/-- The one reply of a class A command with OK, after which its tag is free (02 R48, R52). -/
def replied (h : Hdr) (op : Nat) (payload : List Byte) (s : State) : State := sendReply h op false .ok payload true s

/-- A command ends at its checks: its one reply carries the status and frees the tag (02 R52). -/
def turnedAway (h : Hdr) (op : Nat) (st : Status) (s : State) : State := sendReply h op false st [] true s

/-- The start reply of a class B or C command; the tag stays in flight (02 R52). -/
def acceptedBy (h : Hdr) (op : Nat) (s : State) : State := sendReply h op false .accepted [] false s

/-- A class B or C command completes with OK: with ROC its completion reply frees the tag, else the tag is freed at once
(02 R49, R52). -/
def completed (h : Hdr) (op : Nat) (payload : List Byte) (s : State) : State :=
  if h.roc then sendReply h op true .ok payload true s else onChan h.ch (fun c => freeTag c h.tag) s

/-- The domains of a list run: the power state allows them, their rails are up, they are on (02 R54, 19 R481). -/
def Awake (ds : List Nat) (s : State) : Prop :=
  ∀ d ∈ ds, domAllowed s.power.state d = true ∧ railsUp s d = true ∧ domOn s d = true

/-- The command as `running` lists it once it has started. -/
def runningOf (c : Instr) (h : Hdr) (op : Nat) : Running :=
  { hdr := h, op := op, cmd := c, cls := classOf op, wait := .delayStart, accepted := false, cosigned := none, aux := 0 }

/-- The canonical form of memory (the guide's form of a sparse memory): addresses strictly rising, and no listed byte equal to 0,
which an unlisted address reads as. -/
abbrev Memory.wf (m : SMap Nat) : Prop := m.Pairwise (fun p q => p.1 < q.1) ∧ ∀ p ∈ m, p.2 ≠ 0

/-- The commands that may change the RAM of the MEM domain (10 R301, 13 R378, 14 R403): periods write taps, conversions fill the
measurement stream, and a cut of MEM or a reset empties it, also when it follows from reading the last byte of a SOFT
reset's reply, by a two-wire transfer that was held until a wake or a sequencer restart too. Every other command leaves memory
as it is. -/
def memWriter : Instr → Bool
  | .spiReadMailbox _ _ => true
  | .spiReadFrontWindow _ _ _ => true
  | .replyMailboxRead _ => true
  | .twReadTransfer _ _ _ => true
  | .twWriteTransfer _ _ => true
  | .twWakeNack _ _ => true
  | .seqRestarted => true
  | .woke _ _ => true
  | .softResetTrigger => true
  | .seqWatchdogExpiry => true
  | .periodTick _ => true
  | .xtalFail => true
  | .conversionDone _ _ => true
  | .domainEntryAck _ => true
  | .powerHandshakeTimeout _ => true
  | .por _ => true
  | .bor _ => true
  | .pinReset => true
  | _ => false

/-- The opcodes of 02 R58. -/
def opcodes : List Nat :=
  List.range' 0x00 11 ++ List.range' 0x10 6 ++ List.range' 0x20 7 ++ List.range' 0x30 6 ++ List.range' 0x40 6 ++ List.range' 0x50 7 ++
    List.range' 0x60 8 ++ List.range' 0x70 5 ++ List.range' 0x80 6 ++ List.range' 0x90 3 ++ List.range' 0xA0 3 ++ List.range' 0xB0 5 ++
    List.range' 0xF0 3

/-- The counts of a command's lists are those that its layout admits (02 R58), and a reserved opcode is none of the table's. -/
def fitsPacket : Instr → Bool
  | .fwPatchData _ _ d => decide (1 ≤ d.length ∧ d.length ≤ 1020)
  | .paramSetMany _ l => decide (1 ≤ l.length ∧ l.length ≤ 64)
  | .linkSetAlt _ _ fs => decide (fs.length ≤ 8)
  | .progLoad _ _ _ w => decide (1 ≤ w.length ∧ w.length ≤ 254)
  | .coefWrite _ _ _ _ w => decide (1 ≤ w.length ∧ w.length ≤ 509)
  | .sessionSend _ _ d => decide (1 ≤ d.length ∧ d.length ≤ 64)
  | .badOpcode _ op => !opcodes.contains op
  | _ => true

/-- The command whose packet a row spells: the rows that are one write of a parameter are that write (04 R115, 08 R233,
17 R463). -/
def canonical : Instr → Instr
  | .syncArmOneShot h => .paramSet h 0x1013 1
  | .syncArmMonitor h => .paramSet h 0x1013 2
  | .syncDisarm h => .paramSet h 0x1013 0
  | .txMsgSend h c n => .paramSet h (0x4047 + 0x40 * c) n
  | .poweredHoursWrite h v => .paramSet h 0xA022 v
  | c => c

/-- A two-wire transfer is over: what the device sent and acknowledged (14 R393). -/
def twDone (sent : List Byte) (acks : List Bool) (s : State) : State :=
  onTw (fun t => { t with inTransfer := false, sent := sent, acks := acks, held := none, heldAt := now s }) s

/-- The device stretches what is left of a transfer (14 R396). -/
def twStretched (c : Chan) (addr : Nat) (left : TwRest) (sent : List Byte) (acks : List Bool) (s : State) : State :=
  onTw (fun t => { t with inTransfer := true, sent := sent, acks := acks, held := some (c, addr, left), heldAt := now s }) s

end Machine

end Sys2Proof
end

