-- ==== Sys2Proof/WellFormed.lean ====
section
/-! DEFINITION. When a command's operands fit the widths that the packet layouts and the pins give them. -/

namespace Sys2Proof

/-- An unsigned field of `w` bits (02 R58). -/
def fitsU (w v : Nat) : Bool := decide (v < 2 ^ w)

/-- A signed field of `w` bits (02 R58). -/
def fitsS (w : Nat) (v : Int) : Bool := decide (-(2 ^ (w - 1) : Int) ≤ v ∧ v < 2 ^ (w - 1))

/-- A packet header: the tag has 4 bits (02 R45). -/
def Hdr.wf (h : Hdr) : Bool := fitsU 4 h.tag

/-- Every operand of a host command fits its field in 02 R58; the operands of an event row fit the range of the
thing they name. -/
def Instr.wf : Instr → Bool
  | .nop h | .getInfo h | .timeRead h | .fwPatchCommit h | .rfScanStop h | .clStop h | .powerStatus h
  | .marginReplan h | .ageingReport h | .cosignCancel h | .cosignStatus h | .nonceGet h | .syncArmOneShot h
  | .syncArmMonitor h | .syncDisarm h => h.wf
  | .reset h a | .getEvents h a | .tableCommit h a | .rfCalibrate h a | .linkClose h a | .linkStatus h a
  | .carrierClose h a | .sessionRemove h a | .sessionStatus h a | .portStop h a | .progRetire h a
  | .measStreamStop h a | .powerStateRequest h a | .rattleDisarm h a | .badOpcode h a => h.wf && fitsU 8 a
  | .setEventMask h a b | .linkPrivilege h a b | .carrierSetPower h a b | .progAdmit h a b | .measNow h a b
  | .cdacRange h a b | .domainHold h a b | .budgetQuery h a b | .testLoopback h a b => h.wf && fitsU 8 a && fitsU 8 b
  | .getCounters h a b => h.wf && fitsU 16 a && fitsU 8 b
  | .timeSetAlarm h a b => h.wf && fitsU 64 a && fitsU 8 b
  | .fwPatchBegin h n d => h.wf && fitsU 32 n && d.length == 32
  | .fwPatchData h o d => h.wf && fitsU 32 o && decide (1 ≤ d.length ∧ d.length ≤ 1020)
  | .paramGet h a | .routeClear h a | .txEnable h a | .txDisable h a => h.wf && fitsU 16 a
  | .paramSet h a v => h.wf && fitsU 16 a && fitsU 32 v
  | .paramSetMany h ps => h.wf && ps.all (fun p => fitsU 16 p.1 && fitsU 32 p.2) && decide (ps.length ≤ 170)
  | .tableRead h t f n => h.wf && fitsU 8 t && fitsU 16 f && fitsU 16 n
  | .tableWrite h t f n d => h.wf && fitsU 8 t && fitsU 16 f && fitsU 16 n && decide (d.length ≤ 1019)
  | .rfTuneWindow h p e => h.wf && fitsU 8 p && fitsU 32 e
  | .rfScanStart h a b c d => h.wf && fitsU 32 a && fitsU 32 b && fitsU 32 c && fitsU 8 d
  | .rfSetGain h a m g => h.wf && fitsU 8 a && fitsU 8 m && fitsS 8 g
  | .rfGetSpectrum h a n => h.wf && fitsU 32 a && fitsU 16 n
  | .rfCoordinate h a b c => h.wf && fitsU 8 a && fitsU 8 b && fitsU 8 c
  | .linkOpen h l f c m s a => h.wf && fitsU 8 l && fitsU 32 f && fitsU 8 c && fitsU 8 m && fitsU 16 s && fitsU 16 a
  | .linkRetune h l f p | .carrierRetune h l f p => h.wf && fitsU 8 l && fitsU 32 f && fitsU 64 p
  | .linkSetAlt h l fs => h.wf && fitsU 8 l && fs.all (fitsU 32) && decide (fs.length ≤ 255)
  | .carrierOpen h c f k s n e => h.wf && fitsU 8 c && fitsU 32 f && fitsU 8 k && fitsU 8 s && fitsU 16 n && fitsU 8 e
  | .clStart h f p => h.wf && fitsU 32 f && fitsS 8 p
  | .sessionAdd h s t f k => h.wf && fitsU 8 s && fitsU 32 t && fitsU 8 f && k.length == 16
  | .sessionSend h s d => h.wf && fitsU 8 s && decide (d.length ≤ 1021)
  | .clHop h k i f p => h.wf && fitsU 8 k && fitsU 8 i && fitsU 32 f && fitsU 64 p
  | .portConfig h p f r s o b i u d => h.wf && fitsU 8 p && fitsU 8 f && fitsU 8 r && fitsU 8 s && fitsU 8 o && fitsU 8 b
      && fitsU 32 i && fitsU 32 u && fitsU 8 d
  | .portStart h m s p => h.wf && fitsU 8 m && fitsU 8 s && fitsU 64 p
  | .routeSet h r s d g => h.wf && fitsU 16 r && fitsU 16 s && fitsU 16 d && fitsS 16 g
  | .mixSetGain h b c g => h.wf && fitsU 8 b && fitsU 8 c && fitsS 16 g
  | .tapConfig h r p o n => h.wf && fitsU 16 r && fitsU 8 p && fitsU 32 o && fitsU 32 n
  | .analogConfig h t f v => h.wf && fitsU 8 t && fitsU 8 f && fitsS 32 v
  | .progLoad h r f ws => h.wf && fitsU 8 r && fitsU 16 f && ws.all (fitsU 32) && decide (ws.length ≤ 254)
  | .coefWrite h r b f ws => h.wf && fitsU 8 r && fitsU 8 b && fitsU 16 f && ws.all (fitsS 16) && decide (ws.length ≤ 509)
  | .coefSwap h r p => h.wf && fitsU 8 r && fitsU 64 p
  | .measConfig h c n r o k t d => h.wf && fitsU 8 c && fitsU 8 n && fitsU 16 r && fitsU 8 o && fitsU 8 k && fitsU 8 t
      && fitsU 16 d
  | .measStreamStart h m o n => h.wf && fitsU 8 m && fitsU 32 o && fitsU 32 n
  | .cdacSet h c v u => h.wf && fitsU 8 c && fitsU 16 v && fitsU 8 u
  | .cosignPropose h d => h.wf && d.length == 32
  | .cosignApprove h t => h.wf && t.length == 16
  | .rattleArm h p t s => h.wf && fitsU 8 p && fitsU 8 t && fitsU 32 s
  | .txMsgSend h c n => h.wf && decide (c < 16) && fitsU 32 n
  | .poweredHoursWrite h n => h.wf && fitsU 32 n
  | .spiWriteMailbox _ _ | .spiReadMailbox _ _ | .spiReadStatus _ _ | .spiProtoErr _ => true
  | .spiReadFrontWindow _ a _ | .spiWriteFrontWindow _ a _ => fitsU 8 a
  | .cmdMailboxWrite _ _ | .replyMailboxRead _ | .flushCmd _ | .flushReply _ | .timebaseLatch | .alertStatusWrite _ => true
  | .frontWindowWrite _ a _ => fitsU 8 a
  | .twWriteTransfer a _ | .twReadTransfer a _ _ | .twWakeNack a _ | .twAddressMatchSleep a => fitsU 7 a
  | .alertResponse _ => true
  | .twProtoError k => decide (1 ≤ k ∧ k ≤ 3)
  | .twSclTimeout _ | .packetAssemblyTimeout _ | .discardModeEnd _ | .heldReplyEntersFifo _ => true
  | .cmdTimeout _ t | .replyDelayEnd _ t => fitsU 4 t
  | .softResetTrigger | .seqWatchdogExpiry | .seqRestarted | .timeAlarm | .periodTick _ => true
  | .stageTimeout d _ _ | .domainWdog d | .domainRestart d | .domainEntryAck d | .powerHandshakeTimeout d | .idleGate d
  | .domainWakeDone d _ | .domainWakeFault d => decide (1 ≤ d ∧ d ≤ 11)
  | .laneReacquire l | .uplinkFrame l _ | .syncWindowClose l | .intrusionBarEnd l | .hopAltChosen l _ | .hopBoundary l
  | .hopFailed l | .privCalDone l _ _ _ _ => decide (l < 64)
  | .xtalQualified | .mainPllLockCheck _ _ | .xtalFail | .lfCrystalTakeover | .lfSourceChange | .mainPllLockLost
  | .refQualified | .refLocked _ | .holdoverEnd | .tempSample _ | .syncInstant | .syncMonitorEdge _ | .imageCalFastEnd
  | .scanDwellEnd _ | .scanPassEnd | .txStartBoundary | .txRampDownEnd | .paOffDelayExpiry | .txResumed
  | .beaconSlot _ _ | .clPreambleFalseStart | .clHopDone _ | .coexGrantWithdrawn | .startTrig | .spkOvercurrent
  | .spkUndervoltage | .spkRestart | .refBufferReady | .entryAborted | .woke _ _ | .pinReset | .bootReady _ _
  | .rfMonitorArmed | .brownHoldEnd _ | .topsCount _ | .scheduledPlan | .knobStepVerified _ | .cosignExpired
  | .patchSequenceTimeout | .txQuadratureCalibrationDone | .returnToCrystalDone | .postBrownHoldDeferralEnd
  | .slewLimiterUpdate => true
  | .xtalFailRelease _ b a | .resetRelease b a => fitsU 2 b && fitsU 2 a
  | .refLost c _ => decide (c = 1 ∨ c = 2)
  | .synthLockCheck i _ _ | .synthLockLost i _ | .fullSynthCalibrationDone i => decide (1 ≤ i ∧ i ≤ 3)
  | .imageCalAlarm a _ => decide (a < 2)
  | .syncWordDetected l t _ k _ => decide (l < 64 ∧ t < 2 ∧ k ≤ 10)
  | .preambleDetected l t _ _ _ | .preTimeout l t => decide (l < 64 ∧ t < 2)
  | .carrierRetuned c => decide (c < 16)
  | .replySlotEnd s _ | .pollReply s _ | .join s _ => decide (s < 30)
  | .sessionRemoved s r => decide (s < 256 ∧ 1 ≤ r ∧ r ≤ 3)
  | .keyChangeBoundary s => decide (s < 256)
  | .portStartInstant p | .portStopped p | .portEdgesReturn p | .portReturned p _ | .portRateMeasured p _ _ _
  | .portGlitch p | .portSlip p _ | .asrcAcquired p => decide (p < 6)
  | .portLost p c => decide (p < 6 ∧ (c = 1 ∨ c = 2))
  | .zeroCrossing b i s => decide (i < (if b then 32 else 521) ∧ s < 24)
  | .zcTimeout b i => decide (i < (if b then 32 else 521))
  | .routeFadeEnd r => decide (r < 512)
  | .analogSequenceEnd t => decide (t < 9)
  | .jackChanged j _ => decide (j = 1 ∨ j = 2)
  | .micbiasLimit b | .micbiasCurrentLimitRecovery b => decide (b = 1 ∨ b = 2)
  | .timerTick t | .pwmEdgeTrigger t => decide (t < 4)
  | .conversionDone c _ => decide (c < 2)
  | .cdacRangePhaseEnd c => decide (c < 8)
  | .wakeSourceFire s p => decide (s < 4 ∧ p < 8)
  | .por o => fitsU 3 o
  | .bor r => decide (1 ≤ r ∧ r ≤ 3)
  | .brownWarn r => decide (r < 3)
  | .rattleArmLimit p => decide (1 ≤ p ∧ p ≤ 9)
  | .railPresenceChange r _ _ _ => decide (r < 10)

end Sys2Proof
end

