-- ==== Sys2Proof/Certificates/Slice0/Obligations.lean ====
section
/-! DEFINITION. The statements for the provers. -/

open Sys2Proof Sys2Proof.Machine

/-- A step executes the command at the front of the queue on the machine with the queue's rest. It rests also on the model's
own choices: log entry 1. -/
def Obligations.StepRunsFront : Prop :=
  ∀ (c : Instr) (cs : List Instr) (s : State), step { s with pending := c :: cs } = exec c { s with pending := cs }

/-- The System commands of 02 R58 to R63: NOP, GET_INFO, GET_EVENTS, SET_EVENT_MASK, GET_COUNTERS, TIME_READ, TIME_SET_ALARM,
RESET while no policy protects it, and BAD_OPCODE for a reserved opcode. Each that starts replies once, with what its rule
gives where its operands are in range and with BAD_PARAM where they are not, and changes nothing else. It rests also on the
model's own choices: log entries 9, 27, 28, 34 and 35. -/
def Obligations.SystemCommands : Prop := ∀ (h : Hdr) (s : State),
  (Starts (.nop h) h 0x00 s → exec (.nop h) s = .next (replied h 0x00 [] (started h s))) ∧
  (Starts (.getInfo h) h 0x01 s → exec (.getInfo h) s = .next (replied h 0x01
    (leBytes 4 0x641600F1 ++ leBytes 1 1 ++ leBytes 1 1 ++ leBytes 1 (Config.fwMinor s.prot.patches) ++ leBytes 2 (Config.fwBuild s.prot.patches) ++
      leBytes 1 s.prot.patchCount ++ leBytes 1 s.front.bootMode ++ leBytes 1 (b2n (labPart s))) (started h s))) ∧
  (Starts (.reset h 3) h 0x02 s → (policy s).testBit 9 = false → exec (.reset h 3) s = .next (replied h 0x02 []
    { started h s with seq := { s.seq with softReset := some (h.ch, h.tag), softBytes := replyLevel (chan s h.ch) +
        ((chan s h.ch).held.map (fun x => x.bytes.length)).sum + 7 } })) ∧
  (∀ k, k ≠ 3 → Starts (.reset h k) h 0x02 s →
    exec (.reset h k) s = .next (turnedAway h 0x02 .badParam (started h s))) ∧
  (∀ n, 1 ≤ n → n ≤ 64 → (s.events.lost = 0 ∨ s.events.queue = []) → Starts (.getEvents h n) h 0x03 s → exec (.getEvents h n) s = .next
    (replied h 0x03 (leBytes 1 (s.events.queue.take n).length ++ leBytes 1 (min (s.events.queue.drop n).length 255) ++
        (s.events.queue.take n).flatMap recBytes)
      { started h s with events := { s.events with queue := s.events.queue.drop n } })) ∧
  (∀ n, 1 ≤ n → n ≤ 64 → s.events.lost ≠ 0 → s.events.queue ≠ [] → Starts (.getEvents h n) h 0x03 s → exec (.getEvents h n) s = .next
    (replied h 0x03 (leBytes 1 (s.events.queue.take n).length ++ leBytes 1 (min (s.events.queue.drop n).length 255) ++
        (s.events.queue.take n).flatMap recBytes)
      (queueEvent 0x0002 0 s.events.lost { started h s with
        events := { s.events with queue := s.events.queue.drop n, lost := 0 } }))) ∧
  (∀ n, (n = 0 ∨ 64 < n) → Starts (.getEvents h n) h 0x03 s →
    exec (.getEvents h n) s = .next (turnedAway h 0x03 .badParam (started h s))) ∧
  (∀ b m, b ∈ eventBlocks → m ≤ 3 → Starts (.setEventMask h b m) h 0x04 s → exec (.setEventMask h b m) s = .next
    (replied h 0x04 [] { started h s with events := { s.events with modes := smSet 2 s.events.modes b m } })) ∧
  (∀ b m, (b ∉ eventBlocks ∨ 3 < m) → Starts (.setEventMask h b m) h 0x04 s →
    exec (.setEventMask h b m) s = .next (turnedAway h 0x04 .badParam (started h s))) ∧
  (∀ p n, 1 ≤ n → n ≤ 128 → p + n ≤ 0x10000 → Starts (.getCounters h p n) h 0x05 s → exec (.getCounters h p n) s = .next
    (replied h 0x05 ((List.range n).flatMap (fun i => leBytes 4 ((paramRead (judgeExpiry (started h s)) (p + i)).getD 0)))
      (judgeExpiry (started h s)))) ∧
  (∀ p n, (n = 0 ∨ 128 < n ∨ 0x10000 < p + n) → Starts (.getCounters h p n) h 0x05 s →
    exec (.getCounters h p n) s = .next (turnedAway h 0x05 .badParam (started h s))) ∧
  (Starts (.timeRead h) h 0x06 s → exec (.timeRead h) s = .next
    (replied h 0x06 (leBytes 8 (now s) ++ leBytes 8 (now s / 61440)) (started h s))) ∧
  (∀ a, a ≤ 1 → Starts (.timeSetAlarm h 0 a) h 0x07 s → exec (.timeSetAlarm h 0 a) s = .next
    (replied h 0x07 [] { started h s with alarm := none })) ∧
  (∀ t a, a ≤ 1 → now s < t → Starts (.timeSetAlarm h t a) h 0x07 s → exec (.timeSetAlarm h t a) s = .next
    (replied h 0x07 [] { started h s with alarm := some ⟨t, a⟩ })) ∧
  (∀ t a, t ≠ 0 → t ≤ now s → Starts (.timeSetAlarm h t a) h 0x07 s →
    exec (.timeSetAlarm h t a) s = .next (turnedAway h 0x07 .badParam (started h s))) ∧
  (∀ t a, 1 < a → Starts (.timeSetAlarm h t a) h 0x07 s →
    exec (.timeSetAlarm h t a) s = .next (turnedAway h 0x07 .badParam (started h s))) ∧
  (∀ op, Starts (.badOpcode h op) h op s → exec (.badOpcode h op) s = .next (turnedAway h op .badOpcode (started h s)))

/-- PARAM_GET, PARAM_SET and PARAM_SET_MANY (02 R58, 00 R524), and the writes that have a row of their own (04 R116 to R118,
08 R233, 17 R454): what each stores when the checks of R524 pass, and for those rows what ends them otherwise. It rests also
on the model's own choices: log entries 27, 30, 32 and 33. -/
def Obligations.ParamCommands : Prop := ∀ (h : Hdr) (s : State),
  (∀ pid v, paramRead (judgeExpiry (started h s)) pid = some v → Starts (.paramGet h pid) h 0x10 s →
    exec (.paramGet h pid) s = .next (replied h 0x10 (leBytes 4 v) (judgeExpiry (started h s)))) ∧
  (∀ pid, paramRead (judgeExpiry (started h s)) pid = none → Starts (.paramGet h pid) h 0x10 s →
    exec (.paramGet h pid) s = .next (turnedAway h 0x10 .badParam (started h s))) ∧
  (∀ pid v, writeCheck (started h s) pid v = .ok → Starts (.paramSet h pid v) h 0x11 s →
    exec (.paramSet h pid v) s = .next (replied h 0x11 [] (paramStore pid v (started h s)))) ∧
  (∀ ps t, 1 ≤ ps.length → ps.length ≤ 64 → (writeMany ps (started h s)).1 = .ok →
    writeMany ps (acceptedBy h 0x12 (started h s)) = (.ok, t) → Starts (.paramSetMany h ps) h 0x12 s →
    exec (.paramSetMany h ps) s = .next (completed h 0x12 [] t)) ∧
  (writeState (started h s) 0x1013 1 = .ok → rangesOk (started h s) 0x1013 1 = true → Starts (.syncArmOneShot h) h 0x11 s →
    exec (.syncArmOneShot h) s = .next (replied h 0x11 [] (parSet P.clkSyncArm 1 (started h s)))) ∧
  (rangesOk (started h s) 0x1013 1 = true → serviceRuns (started h s) = true → Starts (.syncArmOneShot h) h 0x11 s →
    exec (.syncArmOneShot h) s = .next (turnedAway h 0x11 .badState (started h s))) ∧
  (rangesOk (started h s) 0x1013 1 = false → Starts (.syncArmOneShot h) h 0x11 s →
    exec (.syncArmOneShot h) s = .next (turnedAway h 0x11 .badParam (started h s))) ∧
  (Starts (.syncArmMonitor h) h 0x11 s →
    exec (.syncArmMonitor h) s = .next (replied h 0x11 [] (parSet P.clkSyncArm 2 (started h s)))) ∧
  (Starts (.syncDisarm h) h 0x11 s →
    exec (.syncDisarm h) s = .next (replied h 0x11 [] (parSet P.clkSyncArm 0 (started h s)))) ∧
  (∀ c n, c < 16 → 1 ≤ n → n ≤ 64 → (carrier s c).phase ≠ .closed → (carrier s c).msg = none →
    Starts (.txMsgSend h c n) h 0x11 s → exec (.txMsgSend h c n) s = .next (replied h 0x11 []
      (onCarrier c (fun k => { k with msg := some ⟨txMsgBytes (parSet (P.txMsgLen c) n (started h s)) c n, 0, false⟩ })
        (parSet (P.txMsgLen c) n (started h s))))) ∧
  (∀ c n, c < 16 → 1 ≤ n → n ≤ 64 → (carrier s c).phase = .closed → (carrier s c).msg = none →
    Starts (.txMsgSend h c n) h 0x11 s → exec (.txMsgSend h c n) s = .next (replied h 0x11 []
      (parSet (P.txMsgLen c) n (started h s)))) ∧
  (∀ c n, c < 16 → 1 ≤ n → n ≤ 64 → (carrier s c).msg ≠ none → Starts (.txMsgSend h c n) h 0x11 s →
    exec (.txMsgSend h c n) s = .next (turnedAway h 0x11 .badState (started h s))) ∧
  (∀ c n, c < 16 → (n = 0 ∨ (64 < n ∧ n < 128)) → Starts (.txMsgSend h c n) h 0x11 s →
    exec (.txMsgSend h c n) s = .next (turnedAway h 0x11 .badParam (started h s))) ∧
  (∀ v, v < 2 ^ 32 → parGet (started h s) P.rckPlanLimits2 = 1 → Starts (.poweredHoursWrite h v) h 0x11 s →
    exec (.poweredHoursWrite h v) s = .next (replied h 0x11 []
      (parSet P.rckPlanLimits2 0 (parSet P.rckPoweredHours v (started h s))))) ∧
  (∀ v, parGet (started h s) P.rckPlanLimits2 = 0 → Starts (.poweredHoursWrite h v) h 0x11 s →
    exec (.poweredHoursWrite h v) s = .next (turnedAway h 0x11 .badState (started h s)))

/-- The order of the checks of a write: an unassigned PID or one whose fields are all read-only is BAD_PARAM, then a value
outside a range is BAD_PARAM, then a changed RWS field whose owner runs is BAD_STATE; nothing is written. The first pair of
PARAM_SET_MANY that fails its checks ends it with that status, and none of its pairs is written. It rests also on the model's
own choices: log entries 27 and 32. -/
def Obligations.ParamRefusals : Prop := ∀ (h : Hdr) (s : State),
  (∀ pid v, (∀ f ∈ fieldsOf pid, f.acc = .ro) → Starts (.paramSet h pid v) h 0x11 s →
    exec (.paramSet h pid v) s = .next (turnedAway h 0x11 .badParam (started h s))) ∧
  (∀ pid v, (∃ f ∈ fieldsOf pid, f.acc ≠ .ro) → rangesOk (started h s) pid v = false → Starts (.paramSet h pid v) h 0x11 s →
    exec (.paramSet h pid v) s = .next (turnedAway h 0x11 .badParam (started h s))) ∧
  (∀ pid v, (∃ f ∈ fieldsOf pid, f.acc = .rws ∧ written f v ≠ parGet (started h s) (key pid f.lo) ∧
      ownerRuns (started h s) pid f.lo = true) → rangesOk (started h s) pid v = true → Starts (.paramSet h pid v) h 0x11 s →
    exec (.paramSet h pid v) s = .next (turnedAway h 0x11 .badState (started h s))) ∧
  (∀ ps st, st ≠ .ok → (writeMany ps (started h s)).1 = st → 1 ≤ ps.length → ps.length ≤ 64 →
    Starts (.paramSetMany h ps) h 0x12 s → exec (.paramSetMany h ps) s = .next (turnedAway h 0x12 st (started h s)))

/-- TABLE_READ, TABLE_WRITE and TABLE_COMMIT (02 R525): what a read returns and removes, what a write stages, and the
unprotected commits: of ROUTE with AUD and, where it feeds a bus, ABC awake, of TX_POWER_STEPS that leaves the ceiling and its
trims, of the alternates, and of PROTECTED_CONFIG that provisions the sender's own key, whose burn verifies or fails; a commit
of a table that the host may not write is BAD_PARAM. (`CosignedCommit` states a protected commit, `RefusedCommands` the checks
that fail.) It rests also on the model's own choices: log entries 27 and 33. -/
def Obligations.TableCommands : Prop := ∀ (h : Hdr) (s : State),
  (∀ t n w first count, tableSize t = some (n, w) → 1 ≤ count → first + count ≤ n →
    Starts (.tableRead h t first count) h 0x13 s → exec (.tableRead h t first count) s = .next
      (replied h 0x13 ((List.range (min count (2048 / w))).flatMap (fun i => tableEntry (started h s) t (first + i)))
        (if t = 9 ∧ first = 0 then { started h s with inst := { s.inst with queue := s.inst.queue.drop (min count (2048 / w)) } }
          else started h s))) ∧
  (∀ t n w first count data, tableWritable t = true → tableSize t = some (n, w) → 1 ≤ count → first + count ≤ n →
    data.length = w * count → Starts (.tableWrite h t first count data) h 0x14 s →
    exec (.tableWrite h t first count data) s = .next (completed h 0x14 []
      (each (List.range count) (fun i => stageEntry t (first + i) ((data.drop (w * i)).take w)) (acceptedBy h 0x14 (started h s))))) ∧
  (∀ m, s.rf.altPending = some m → altCommitCheck m (started h s) = .ok → Starts (.tableCommit h 5) h 0x15 s →
    exec (.tableCommit h 5) s = .next (completed h 0x15 (leBytes 8 (period s + 1))
      { acceptedBy h 0x15 (started h s) with rf := { s.rf with altNext := some m, altPending := none } })) ∧
  (∀ t, routeCommitCheck (started h s) = (.ok, t) → t.running = s.running → t.rattle.armed = s.rattle.armed →
    Awake ((progTableCommit h 3).needs (started h s)) (started h s) → Awake ((progTableCommit h 3).needs t) t →
    Starts (.tableCommit h 3) h 0x15 s → exec (.tableCommit h 3) s = .next (completed h 0x15
      (leBytes 8 (period (acceptedBy h 0x15 t) + 1)) (applyRouteCommit (acceptedBy h 0x15 t)))) ∧
  (∀ p, s.tx.stepsPending = some p → stepsCommitCheck p = .ok → stepsProtected (stepsNow s) p = false →
    Starts (.tableCommit h 4) h 0x15 s → exec (.tableCommit h 4) s = .next (completed h 0x15 (leBytes 8 (period s + 1))
      { acceptedBy h 0x15 (started h s) with tx := { s.tx with stepsNext := some p, stepsPending := none } })) ∧
  (protCommitCheck (started h s) = .ok → provisioning h (started h s) = true → Starts (.tableCommit h 7) h 0x15 s →
    (∀ t, burnAll (acceptedBy h 0x15 (started h s)) = (true, t) → exec (.tableCommit h 7) s = .next (completed h 0x15
      (leBytes 8 (period s)) { t with prot := { t.prot with pending := none } })) ∧
    (∀ t, burnAll (acceptedBy h 0x15 (started h s)) = (false, t) → h.roc = true → exec (.tableCommit h 7) s =
      .next (sendReply h 0x15 true .hwFault [] true t))) ∧
  (∀ t, tableWritable t = false → Starts (.tableCommit h t) h 0x15 s →
    exec (.tableCommit h t) s = .next (turnedAway h 0x15 .badParam (started h s)))

/-- TABLE_COMMIT of SPECTRUM_PLAN is protected (16 R428, R430, R434, 02 R56): without the COSIGN flag it is turned away; with
an approved proposal younger than 30 s whose digest is the hash of its canonical image it runs, consumes the approval and
COSIGN_APPLIED tells of it. So of every command in the protected set that waits for nothing: when its checks pass and the
approval is of its canonical image, it runs with the approval consumed, and its use is reported before its completion.
(POWER_STATE_REQUEST, which ends in `settle` besides, is left out.) It rests also on the model's own choices: log entry 29. -/
def Obligations.CosignedCommit : Prop := ∀ (h : Hdr) (s : State),
  (planCommitCheck (started h s) = .ok → h.cosign = false → Starts (.tableCommit h 1) h 0x15 s →
    exec (.tableCommit h 1) s = .next (turnedAway h 0x15 .needsCosign (started h s))) ∧
  (planCommitCheck (started h s) = .ok → h.cosign = true → ∀ p, s.prot.proposal = some p → p.approved = true → p.patch = none → now s < p.made + sec30 →
    sha256 ([0x15, 0x20, 1, 0, 1] ++ planImage (started h s)) = p.digest → Starts (.tableCommit h 1) h 0x15 s →
    exec (.tableCommit h 1) s = .next (completed h 0x15 (leBytes 8 (period s))
      (queueEvent 0xB006 (256 * 0x15 + h.tag) (digestWord p.digest) (bump P.protApplied
        (queueEvent 0x2006 0 (okBins (s.rf.permPending.getD s.rf.perm)) (bump P.rfrPlanCommits
          { acceptedBy h 0x15 (setProposal none (started h s)) with
            rf := { s.rf with perm := s.rf.permPending.getD s.rf.perm, permPending := none } })))))) ∧
  (∀ c op params extra u w v d aux pl t, encodeCmd c = some (h, op, params) → c.wf = true → (∀ g a, c ≠ .powerStateRequest g a) →
    (∀ g o, c ≠ .badOpcode g o) → classOf op ≠ 1 →
    (progOf c).check (started h s) = (.ok, u) → (progOf c).guard (started h s) = some extra →
    cosignCheck h (canonicalImage op params ++ extra) (started h s) = (.ok, some d, w) →
    Awake ((progOf c).needs (started h s)) (started h s) →
    Awake ((progOf c).needs { u with prot := w.prot }) { u with prot := w.prot } →
    (progOf c).begin { u with prot := w.prot } = (none, aux, v) → v.running = s.running → v.rattle.armed = s.rattle.armed →
    (progOf c).apply aux (acceptedBy h op v) = (.ok, pl, t) → Starts c h op s →
    exec c s = .next (completed h op pl (queueEvent 0xB006 (256 * op + h.tag) d (bump P.protApplied t))))

/-- COSIGN_PROPOSE, COSIGN_APPROVE, COSIGN_CANCEL, COSIGN_STATUS and NONCE_GET (16 R431 to R437): what each does when its
checks pass, for a live proposal and for a patch sequence that no packet runs of, and what a wrong approval tag and an
approval by the proposing role do. The nonce is a free value. It rests also on the model's own choices: log entries 11, 25 and
29. -/
def Obligations.CosignCommands : Prop := ∀ (h : Hdr) (s : State),
  (∀ d, s.front.otpValid = true → s.prot.proposal = none → mayPropose s h.ch = true →
    (keyOf s .operator).isSome = true → (keyOf s .custodian).isSome = true →
    Starts (.cosignPropose h d) h 0xB0 s → exec (.cosignPropose h d) s = .next (replied h 0xB0 []
      (alertCosign (queueEvent 0xB001 (roleNo h.ch) (digestWord d) (bump P.protProposals (setProposal
        (some { role := h.ch, digest := d, nonce := nonceBytes s.free, approved := false, made := now s, patch := none,
                patchAt := 0 }) { started h s with free := s.free + 1 })))))) ∧
  (∀ p k, s.prot.proposal = some p → p.approved = false → p.patch = none → now s < p.made + sec30 → p.role ≠ h.ch →
    keyOf s h.ch = some k →
    Starts (.cosignApprove h ((hmac256 k (p.nonce ++ p.digest)).take 16)) h 0xB1 s →
    exec (.cosignApprove h ((hmac256 k (p.nonce ++ p.digest)).take 16)) s = .next (replied h 0xB1 []
      (alertCosign (queueEvent 0xB002 (roleNo h.ch) (digestWord p.digest) (bump P.protApprovals
        (setProposal (some { p with approved := true }) (started h s))))))) ∧
  (∀ p k tag, s.prot.proposal = some p → p.approved = false → p.patch = none → now s < p.made + sec30 → p.role ≠ h.ch →
    keyOf s h.ch = some k → tag ≠ (hmac256 k (p.nonce ++ p.digest)).take 16 →
    Starts (.cosignApprove h tag) h 0xB1 s → exec (.cosignApprove h tag) s = .next (turnedAway h 0xB1 .cosignRejected
      (alertCosign (queueEvent 0xB003 (roleNo h.ch) 1 (bump P.protRejects (setProposal none (started h s))))))) ∧
  (∀ p tag, s.prot.proposal = some p → p.approved = false → p.patch = none → now s < p.made + sec30 → p.role = h.ch →
    Starts (.cosignApprove h tag) h 0xB1 s → exec (.cosignApprove h tag) s = .next (turnedAway h 0xB1 .cosignRejected
      (alertCosign (queueEvent 0xB003 (roleNo h.ch) 2 (bump P.protRejects (started h s)))))) ∧
  (∀ p, s.prot.proposal = some p → p.patch = none → now s < p.made + sec30 →
    Starts (.cosignCancel h) h 0xB2 s → exec (.cosignCancel h) s = .next (replied h 0xB2 []
      (alertCosign (queueEvent 0xB005 (roleNo h.ch) (if p.approved then 2 else 1) (bump P.protCancels
        (setProposal none (started h s))))))) ∧
  (∀ p q, s.prot.proposal = some p → p.patch = some q → now s < p.patchAt + sec30 →
    (∀ r ∈ s.running, r.op ≠ 0x08 ∧ r.op ≠ 0x09 ∧ r.op ≠ 0x0A) →
    Starts (.cosignCancel h) h 0xB2 s → exec (.cosignCancel h) s = .next (replied h 0xB2 []
      (alertCosign (queueEvent 0xB005 (roleNo h.ch) 3 (bump P.protCancels (setProposal none (started h s))))))) ∧
  (∀ p q, s.prot.proposal = some p → p.patch = some q → now s < p.patchAt + sec30 → Starts (.cosignStatus h) h 0xB3 s →
    exec (.cosignStatus h) s = .next (replied h 0xB3 ([3] ++ leBytes 1 (roleNo p.role) ++
      leBytes 2 (min 65535 (nearest 9 ((p.patchAt + sec30 - now s : Nat) : Int) 122880).toNat)) (started h s))) ∧
  (∀ p q, s.prot.proposal = some p → p.patch = some q → now s < p.patchAt + sec30 → Starts (.nonceGet h) h 0xB4 s →
    exec (.nonceGet h) s = .next (replied h 0xB4 p.nonce (started h s))) ∧
  (s.prot.proposal = none → Starts (.cosignStatus h) h 0xB3 s →
    exec (.cosignStatus h) s = .next (replied h 0xB3 [0, 0, 0, 0] (started h s))) ∧
  (∀ p, s.prot.proposal = some p → p.patch = none → now s < p.made + sec30 → Starts (.cosignStatus h) h 0xB3 s →
    exec (.cosignStatus h) s = .next (replied h 0xB3 (leBytes 1 (if p.approved then 2 else 1) ++ leBytes 1 (roleNo p.role) ++
      leBytes 2 (min 65535 (nearest 9 ((p.made + sec30 - now s : Nat) : Int) 122880).toNat)) (started h s))) ∧
  (∀ p, s.prot.proposal = some p → p.patch = none → now s < p.made + sec30 → Starts (.nonceGet h) h 0xB4 s →
    exec (.nonceGet h) s = .next (replied h 0xB4 p.nonce (started h s))) ∧
  (s.prot.proposal = none → Starts (.nonceGet h) h 0xB4 s →
    exec (.nonceGet h) s = .next (turnedAway h 0xB4 .badState (started h s)))

/-- The patch sequence (16 R438): FW_PATCH_BEGIN under a matching approval makes the state PATCHING, FW_PATCH_DATA stores its
bytes, FW_PATCH_COMMIT with the stated hash adds the patch and ends the sequence. It rests also on the model's own choices:
log entries 7 and 75. -/
def Obligations.PatchCommands : Prop := ∀ (h : Hdr) (s : State) (p : Proposal), h.cosign = true → s.prot.proposal = some p →
  (∀ n d, 1 ≤ n → n + s.prot.patchBytes ≤ 65536 → p.approved = true → p.patch = none → now s < p.made + sec30 →
    sha256 (canonicalImage 0x08 (leBytes 4 n ++ d)) = p.digest → Starts (.fwPatchBegin h n d) h 0x08 s →
    exec (.fwPatchBegin h n d) s = .next (completed h 0x08 [] (acceptedBy h 0x08
      (setProposal (some { p with patch := some ⟨n, d, []⟩, patchAt := now s }) (setProposal none (started h s)))))) ∧
  (∀ q o d, p.patch = some q → now s < p.patchAt + sec30 → o + d.length ≤ q.length → Starts (.fwPatchData h o d) h 0x09 s →
    exec (.fwPatchData h o d) s = .next (completed h 0x09 [] (setProposal
      (some { p with patchAt := now s, patch := some { q with data := smSetList 0 q.data o (d.map BitVec.toNat) } })
      (acceptedBy h 0x09 (setProposal (some { p with patchAt := now s }) (started h s)))))) ∧
  (∀ q, p.patch = some q → now s < p.patchAt + sec30 → sha256 (patchBytesOf q) = q.digest → Starts (.fwPatchCommit h) h 0x0A s →
    exec (.fwPatchCommit h) s = .next (completed h 0x0A [] (queueEvent 0xB006 (256 * 0x0A + h.tag) (digestWord p.digest)
      (bump P.protApplied { acceptedBy h 0x0A (setProposal (some { p with patchAt := now s }) (started h s)) with
        prot := { s.prot with proposal := none, patchCount := min 255 (s.prot.patchCount + 1),
                              patchBytes := s.prot.patchBytes + q.length, patches := s.prot.patches ++ [q.digest] } }))))

/-- BUDGET_QUERY, MARGIN_REPLAN and AGEING_REPORT (03 R69, R71, 17 R455, R460, R462), RATTLE_ARM, RATTLE_DISARM and
TEST_LOOPBACK (18 R465 to R471): what each does when its checks pass. MARGIN_REPLAN stays in progress while its plan runs. It
rests also on the model's own choices: log entries 78 and 79. -/
def Obligations.ReckonerCommands : Prop := ∀ (h : Hdr) (s : State),
  (∀ r i b, budgetOf (started h s) (admitTc (started h s)) r i = some b → Starts (.budgetQuery h r i) h 0xA0 s →
    exec (.budgetQuery h r i) s = .next (replied h 0xA0 (leBytes 4 b ++ leBytes 4 (committed (started h s) r i) ++
      leBytes 4 (if isBudget r then ceilDiv (b * parGet (started h s) P.rckHeadroom) 1000 else 0)) (started h s))) ∧
  (s.supply.brown = false → (planDue 3 (started h s)).running = s.running → Starts (.marginReplan h) h 0xA1 s →
    exec (.marginReplan h) s = .next { acceptedBy h 0xA1 (planDue 3 (started h s)) with
      running := s.running ++ [{ runningOf (.marginReplan h) h 0xA1 with accepted := true, wait := .plan }] }) ∧
  (s.supply.brown = true → Starts (.marginReplan h) h 0xA1 s →
    exec (.marginReplan h) s = .next (turnedAway h 0xA1 .badState (started h s))) ∧
  (Starts (.ageingReport h) h 0xA2 s →
    exec (.ageingReport h) s = .next (replied h 0xA2 (ageingBytes (started h s)) (started h s))) ∧
  (∀ n t v, pertOk n t v = true → pertArmed s n = false → (s.rattle.armed.filter (fun x => x.2.isArmed)).length < 4 →
    labPart s = true → Starts (.rattleArm h n t v) h 0xF0 s → exec (.rattleArm h n t v) s = .next (completed h 0xF0 []
      (queueEvent 0xF001 (n + 256 * t) v (setArmed (smPut s.rattle.armed n (match smFind s.rattle.armed n with
          | none => { target := t, setting := v, armedAt := now s, starting := true, stopping := false, again := none, age := 0,
                      left := if n = 6 then bits v 15 8 else 0 }
          | some p => { p with again := some (t, v, now s) }))
        (parSet (key (0xF030 + n) 0) v (parSet (key (0xF020 + n) 0) t (acceptedBy h 0xF0 (started h s)))))))) ∧
  (∀ n t v, pertOk n t v = true → pertArmed s n = false → (s.rattle.armed.filter (fun x => x.2.isArmed)).length < 4 →
    labPart s = false → h.cosign = false → Starts (.rattleArm h n t v) h 0xF0 s →
    exec (.rattleArm h n t v) s = .next (turnedAway h 0xF0 .needsCosign (started h s))) ∧
  (∀ n p, 1 ≤ n → n ≤ 9 → smFind s.rattle.armed n = some p → p.isArmed = true →
    Starts (.rattleDisarm h n) h 0xF1 s → exec (.rattleDisarm h n) s = .next (replied h 0xF1 []
      (queueEvent 0xF002 n 1 (setArmed (smPut s.rattle.armed n { p with stopping := true, again := none }) (started h s))))) ∧
  (Starts (.rattleDisarm h 0xFF) h 0xF1 s → exec (.rattleDisarm h 0xFF) s = .next (replied h 0xF1 []
    (each [1, 2, 3, 4, 5, 6, 7, 8, 9] (disarm 1) (started h s)))) ∧
  (∀ p, p ≤ 5 → (port s p).phase = .running → (port s p).cfg.role = 0 → Starts (.testLoopback h 1 p) h 0xF2 s →
    exec (.testLoopback h 1 p) s = .next (completed h 0xF2 []
      (onPort p (fun q => { q with loopback := true }) (acceptedBy h 0xF2 (started h s))))) ∧
  (∀ i, (openCarriers s).any (fun p => carrierEnabled p.2) = false → windowsOverlap (started h s) = true →
    Starts (.testLoopback h 2 i) h 0xF2 s → exec (.testLoopback h 2 i) s = .next (completed h 0xF2 []
      { acceptedBy h 0xF2 (started h s) with rattle := { s.rattle with txLoop := true } })) ∧
  (∀ i, Starts (.testLoopback h 0 i) h 0xF2 s → exec (.testLoopback h 0 i) s = .next (completed h 0xF2 []
    { acceptedBy h 0xF2 (started h s) with
      audio := { s.audio with ports := smMap Port.reset (fun _ q => { q with loopback := false }) s.audio.ports },
      rattle := { s.rattle with txLoop := false } }))

/-- POWER_STATE_REQUEST, POWER_STATUS and DOMAIN_HOLD (15 R407 to R412, 02 R58, R61): a request that asks no domain enters the
state; one whose first domain may answer asks it and waits; one whose first domain refuses is refused with that domain,
counted and reported with the cause; POWER_STATUS reports the state; a hold of an awake domain and its release are kept. It
rests also on the model's own choices: log entries 27 and 71. -/
def Obligations.PowerCommands : Prop := ∀ (h : Hdr) (s : State),
  (∀ g, g ≤ 4 → (2 < g → othersInFlight (started h s) = false) → (g = 4 → (policy s).testBit 9 = false) → s.power.entry = none →
    Starts (.powerStateRequest h g) h 0x90 s →
    (entryAsks g (started h s) = [] → exec (.powerStateRequest h g) s =
      .next (settle (completed h 0x90 [] (enterState g (acceptedBy h 0x90 (started h s)))))) ∧
    (∀ d ds, entryAsks g (started h s) = d :: ds → refusalOf (started h s) d = 0 →
      (let e : Entry := ⟨g, d :: ds, now s, [], false, [], false, []⟩
       let v := askDomain d { started h s with power := { s.power with entry := some e } }
       v.running = s.running → exec (.powerStateRequest h g) s = .next (settle { acceptedBy h 0x90 v with
         running := s.running ++ [{ runningOf (.powerStateRequest h g) h 0x90 with accepted := true, wait := .powerEntry }] }))) ∧
    (∀ d ds c, entryAsks g (started h s) = d :: ds → d < 16 → refusalOf (started h s) d = c → c ≠ 0 → h.roc = true →
      exec (.powerStateRequest h g) s = .next (settle (sendReply h 0x90 true .badState [BitVec.ofNat 8 d] true
        (queueEvent 0x9001 d (g + 256 * c) (parSet P.pwrLastRefuser16 g (parSet P.pwrLastRefuser8 c
          (parSet P.pwrLastRefuser d (bump P.pwrPowerRefusals (acceptedBy h 0x90 (started h s))))))))))) ∧
  (∀ g, 4 < g → Starts (.powerStateRequest h g) h 0x90 s →
    exec (.powerStateRequest h g) s = .next (settle (turnedAway h 0x90 .badParam (started h s)))) ∧
  (Starts (.powerStatus h) h 0x91 s → exec (.powerStatus h) s = .next (replied h 0x91
    (leBytes 1 s.power.state ++ leBytes 2 s.power.on.toNat ++ leBytes 4 (parGet (started h s) P.pwrPowerRefusals) ++
      leBytes 1 (parGet (started h s) P.pwrLastRefuser)) (started h s))) ∧
  (∀ d, 1 ≤ d → d ≤ 11 → moving s = false → Awake [d] s → Starts (.domainHold h d 1) h 0x92 s →
    exec (.domainHold h d 1) s = .next (completed h 0x92 [] { acceptedBy h 0x92 (started h s) with
      power := { s.power with held := s.power.held ||| BitVec.ofNat 12 (2 ^ d), idle := smErase s.power.idle d } })) ∧
  (∀ d, 1 ≤ d → d ≤ 11 → moving s = false → domAllowed s.power.state d = true → Starts (.domainHold h d 0) h 0x92 s →
    exec (.domainHold h d 0) s = .next (completed h 0x92 [] { acceptedBy h 0x92 (started h s) with
      power := { s.power with held := s.power.held &&& ~~~ BitVec.ofNat 12 (2 ^ d), idle := smErase s.power.idle d } }))

/-- RF_TUNE_WINDOW, RF_CALIBRATE, the scan, RF_SET_GAIN, RF_GET_SPECTRUM and RF_COORDINATE (04 R107, R112, 05 R125 to R156, 08
R227): what each does when its checks pass and its domains run. A tune keeps its start reply back until the lock instant, and
is BAD_STATE for path 0 while a link is open; a calibration stays in progress while one of its items is left; a scan starts at
once where the LO stands right and is locked, else it waits for the lock. A scan stop with no scan running does nothing: the
model's choice. It rests also on the model's own choices: log entries 27, 46 and 49. -/
def Obligations.RfCommands : Prop := ∀ (h : Hdr) (s : State),
  (∀ e, 470000000 ≤ e → e ≤ 904000000 → openLinks s = [] → s.rf.scan = none → Awake [Dom.rfa] s →
    Starts (.rfTuneWindow h 0 e) h 0x20 s → exec (.rfTuneWindow h 0 e) s = .next
      { startLock 1 (e - 8000000) (started h s) with
        running := s.running ++ [{ runningOf (.rfTuneWindow h 0 e) h 0x20 with wait := .lock 1 }] }) ∧
  (∀ e, 470000000 ≤ e → e ≤ 952000000 → openCarriers s = [] → Awake [Dom.rfa, Dom.txd] s →
    Starts (.rfTuneWindow h 1 e) h 0x20 s → exec (.rfTuneWindow h 1 e) s = .next
      { startLock 2 (e - 6000000) (started h s) with
        running := s.running ++ [{ runningOf (.rfTuneWindow h 1 e) h 0x20 with wait := .lock 2 }] }) ∧
  (∀ e, openLinks s ≠ [] → 470000000 ≤ e → e ≤ 904000000 → Awake [Dom.rfa] s → Starts (.rfTuneWindow h 0 e) h 0x20 s →
    exec (.rfTuneWindow h 0 e) s = .next (turnedAway h 0x20 .badState (started h s))) ∧
  (∀ i, s.supply.brown = false → (i.testBit 0 || i.testBit 1 || i.testBit 2) = true →
    (i.testBit 2 = true → (openCarriers s).any (fun p => carrierEnabled p.2) = false) →
    Awake (if i.testBit 2 then [Dom.rfa, Dom.txd] else [Dom.rfa]) s → Starts (.rfCalibrate h i) h 0x21 s →
    exec (.rfCalibrate h i) s = .next (
      let v := if i.testBit 0 then startFullCal (started h s)
        else if i.testBit 2 then startQcal (if i.testBit 1 then startImageWork (started h s) else started h s)
        else startImageWork (started h s)
      { acceptedBy h 0x21 v with
        running := s.running ++ [{ runningOf (.rfCalibrate h i) h 0x21 with
          aux := b2n (i.testBit 0) + 2 * b2n (i.testBit 1) + 4 * b2n (i.testBit 2), accepted := true, wait := .calibrate }] })) ∧
  (∀ i, s.supply.brown = false → (i.testBit 0 || i.testBit 1 || i.testBit 2) = false → Awake [Dom.rfa] s →
    Starts (.rfCalibrate h i) h 0x21 s → exec (.rfCalibrate h i) s = .next (completed h 0x21 [] (acceptedBy h 0x21 (started h s)))) ∧
  (∀ a b c n u, scanCheck a b c n (started h s) = (.ok, u) → Awake [Dom.rfa, Dom.chz] s →
    Starts (.rfScanStart h a b c n) h 0x22 s →
    (locked s 1 = true → parGet s P.clkRampProfile = 1 ∨ dwellMove (freshScan a b c n u) u = none →
      exec (.rfScanStart h a b c n) s = .next (completed h 0x22 [] (parSet P.rfrScanPasses 0 (commitWork [⟨wkScan, 0⟩]
        { acceptedBy h 0x22 u with rf := { s.rf with scan := some (freshScan a b c n u), scanReturn := decide (loEdge s ≠ rxEdge s) } })))) ∧
    (∀ e, parGet s P.clkRampProfile ≠ 1 → dwellMove (freshScan a b c n u) u = some e →
      exec (.rfScanStart h a b c n) s = .next { startLock 1 (e - 8000000) u with
        running := s.running ++ [{ runningOf (.rfScanStart h a b c n) h 0x22 with wait := .lock 1 }] }) ∧
    (locked s 1 = false → parGet s P.clkRampProfile = 1 ∨ dwellMove (freshScan a b c n u) u = none →
      exec (.rfScanStart h a b c n) s = .next { (if (synth s 1).phase = .off then relockWindow 1 u else u) with
        running := s.running ++ [{ runningOf (.rfScanStart h a b c n) h 0x22 with wait := .lock 1 }] })) ∧
  (∀ a b c n, 470000000 ≤ a → a < b → b ≤ 1000000000 → 10000 ≤ c → c ≤ 200000 → c % 1000 = 0 → n ≤ 255 →
    (parGet s P.clkRampProfile ≠ 1 ∨ (rxEdge s ≠ 0 ∧ withinRx (rxEdge s) a = true ∧ withinRx (rxEdge s) b = true)) →
    (loFree s = true ∨ (rxEdge s ≠ 0 ∧ rxEdge s ≤ b ∧ a ≤ rxEdge s + 96000000)) →
    scanCheck a b c n (started h s) = admitWork [scanAsk (started h s)] (started h s)) ∧
  (∀ sc, s.rf.scan = some sc → Starts (.rfScanStop h) h 0x23 s → exec (.rfScanStop h) s = .next (replied h 0x23 [] (
    let v := endWork ⟨wkScan, 0⟩ (queueEvent 0x2003 sc.done sc.total.length
      (bump P.rfrScansDone { started h s with rf := { s.rf with scan := none, scanReturn := false } }))
    if s.rf.scanReturn then relockWindow 1 v else v))) ∧
  (s.rf.scan = none → Starts (.rfScanStop h) h 0x23 s → exec (.rfScanStop h) s = .next (replied h 0x23 [] (started h s))) ∧
  (∀ a m g, a ≤ 2 → m ≤ 1 → (m = 1 → -6 ≤ g ∧ g ≤ 30 ∧ g % 3 = 0) → Awake [Dom.rfa] s → Starts (.rfSetGain h a m g) h 0x24 s →
    exec (.rfSetGain h a m g) s = .next (replied h 0x24 [] { started h s with rf := { s.rf with
      a := if a = 1 then s.rf.a else if m = 1 then { s.rf.a with fixed := true, step := g - s.rf.a.gain }
        else { s.rf.a with fixed := false, quiet := 0 }
      b := if a = 0 then s.rf.b else if m = 1 then { s.rf.b with fixed := true, step := g - s.rf.b.gain }
        else { s.rf.b with fixed := false, quiet := 0 } } })) ∧
  (∀ f n, 470000000 ≤ f → 1 ≤ n → n ≤ 1024 → (f - 470000000) / 130000 + n ≤ 4096 → Starts (.rfGetSpectrum h f n) h 0x25 s →
    exec (.rfGetSpectrum h f n) s = .next (replied h 0x25 ((List.range n).flatMap (fun i =>
      sBytes 2 (spectrumLevel (started h s) ((f - 470000000) / 130000 + i)))) (started h s))) ∧
  (∀ l c o, l ≤ 64 → c ≤ 16 → 0 < l + c → (l > 0 → rxEdge (started h s) ≠ 0) → (c > 0 → txEdge (started h s) ≠ 0) →
    Starts (.rfCoordinate h l c o) h 0x26 s → exec (.rfCoordinate h l c o) s = .next (
      let out := coordinate (acceptedBy h 0x26 (started h s)) l c o
      completed h 0x26 (out.flatMap (leBytes 4))
        (queueEvent 0x2007 (out.filter (fun f => f != 0)).length (l + c) (acceptedBy h 0x26 (started h s)))))

/-- The link commands (07 R194, R195, R218, R222, 05 R135, R136, 02 R58): what each does when its checks pass. LINK_OPEN waits
where the RX LO is not locked, and is BAD_STATE for an open link; LINK_CLOSE stays in progress until the boundary,
LINK_PRIVILEGE on until the measurement ends. It rests also on the model's own choices: log entries 27, 40 and 58. -/
def Obligations.LinkCommands : Prop := ∀ (h : Hdr) (s : State) (n : Nat), n ≤ 63 →
  (∀ hz c m x a u, (link s n).isOpen = false → rxEdge (started h s) ≠ 0 → (s.rf.scan = none ∨ loFree s = false) →
    c ≤ 2 → m ≤ 1 → a ≤ 1023 →
    (x ≠ 0xFFFF → x ≤ 255 ∧ (session s x).phase ≠ .free ∧ (session s x).phase ≠ .removing ∧
      (openLinks s).any (fun q => q.2.session == some x) = false) →
    insideWindow (rxEdge (started h s)) hz = true → permitted s.rf.perm false hz = true →
    routesFit (onLink n (fun _ => freshLink hz c m x a) (started h s)) = true →
    admitWork [linkAsk n c] (started h s) = (.ok, u) → Awake [Dom.rfa, Dom.chz, Dom.dmd, Dom.abc] s →
    Starts (.linkOpen h n hz c m x a) h 0x30 s →
    (locked s 1 = true → exec (.linkOpen h n hz c m x a) s = .next (completed h 0x30 []
      (parSet (P.linkFreq n) hz (clearLinkFields n (tuneLanes n (onLink n (fun _ => freshLink hz c m x a)
        (commitWork [⟨wkLink, n⟩] (acceptedBy h 0x30 u)))))))) ∧
    (locked s 1 = false → exec (.linkOpen h n hz c m x a) s = .next
      { (if (synth s 1).phase = .off then relockWindow 1 u else u) with
        running := s.running ++ [{ runningOf (.linkOpen h n hz c m x a) h 0x30 with wait := .lock 1 }] })) ∧
  (∀ hz c m x a, (link s n).isOpen = true → Awake [Dom.rfa, Dom.chz, Dom.dmd, Dom.abc] s →
    Starts (.linkOpen h n hz c m x a) h 0x30 s →
    exec (.linkOpen h n hz c m x a) s = .next (turnedAway h 0x30 .badState (started h s))) ∧
  ((link s n).isOpen = true → Starts (.linkClose h n) h 0x31 s → exec (.linkClose h n) s = .next
    { acceptedBy h 0x31 (started h s) with
      running := s.running ++ [{ runningOf (.linkClose h n) h 0x31 with accepted := true, wait := .boundary }] }) ∧
  (∀ hz p p', (link s n).isOpen = true → (link s n).hop = none → insideWindow (rxEdge (started h s)) hz = true →
    permitted s.rf.perm false hz = true →
    retunePeriod s (announced s (link s n).session) (parNow (started h s) (P.linkHopLead n)) p = some p' →
    Awake [Dom.rfa, Dom.chz, Dom.dmd] s → Starts (.linkRetune h n hz p) h 0x32 s →
    exec (.linkRetune h n hz p) s = .next (completed h 0x32 (leBytes 8 p')
      (queueEvent 0x3004 (n + 256) hz (parSet (P.linkHopTarget n) hz (parSet (P.linkHopPeriodLo n) (p' % 2 ^ 32)
        (parSet (P.linkHopPeriodHi n) (p' / 2 ^ 32) (onLink n (fun l => { l with
            hop := some ⟨hz, p', 0, announced s l.session, l.freq, 0⟩ }) (acceptedBy h 0x32 (started h s)))))))))  ∧
  (Starts (.linkStatus h n) h 0x33 s → exec (.linkStatus h n) s = .next (replied h 0x33
    (leBytes 1 (laneState (link s n)) ++ leBytes 1 (linkLqNow (link s n)) ++ sBytes 2 (rssiOf (link s n).rssiA) ++
      sBytes 2 (rssiOf (link s n).rssiB) ++ sBytes 4 (link s n).fOff ++ sBytes 2 (link s n).tOff ++
      leBytes 2 (linkEvmNow (link s n)) ++ leBytes 1 (link s n).aerial) (started h s))) ∧
  (∀ fs, rxEdge (started h s) ≠ 0 → (∀ f ∈ fs, f = 0 ∨ (insideWindow (rxEdge (started h s)) f = true ∧ permitted s.rf.perm false f = true)) →
    Starts (.linkSetAlt h n fs) h 0x34 s → exec (.linkSetAlt h n fs) s = .next (completed h 0x34 []
      { acceptedBy h 0x34 (started h s) with rf := { s.rf with
        altNext := some (smSetList 0 (altNow s) (8 * n) (fs ++ List.replicate (8 - fs.length) 0)) } })) ∧
  ((link s n).isOpen = true → Awake [Dom.rfa, Dom.chz] s → Starts (.linkPrivilege h n 0) h 0x35 s →
    exec (.linkPrivilege h n 0) s = .next (completed h 0x35 []
      (freePriv n (onLink n (fun l => { l with privNext := some false }) (acceptedBy h 0x35 (started h s)))))) ∧
  (∀ i, (link s n).isOpen = true → privSlot s n = some i → Awake [Dom.rfa, Dom.chz] s →
    Starts (.linkPrivilege h n 1) h 0x35 s → exec (.linkPrivilege h n 1) s = .next
      { acceptedBy h 0x35 (tuneLanes n (withTone (onPriv i (fun r => { r with link := some n, measuring := true })) (started h s))) with
        running := s.running ++ [{ runningOf (.linkPrivilege h n 1) h 0x35 with
          aux := i, accepted := true, wait := .privCal n }] })

/-- The downlink commands (08 R230 to R246): what each does when its checks pass, and a step above the ceiling. CARRIER_OPEN
and TX_ENABLE wait where the TX LO is not locked; CARRIER_CLOSE and TX_DISABLE stay in progress while a carrier ramps down,
TX_ENABLE until the start boundary where a carrier of its mask is to start. It rests also on the model's own choices: log
entries 40 and 59. -/
def Obligations.TxCommands : Prop := ∀ (h : Hdr) (s : State),
  (∀ c hz k st x e u, c ≤ 15 → (carrier s c).phase = .closed → txEdge (started h s) ≠ 0 → k ≤ 2 → st ≤ 63 → e ≤ 1 →
    (x ≠ 0xFFFF → x ≤ 255 ∧ (session s x).phase ≠ .free ∧ (session s x).phase ≠ .removing ∧
      (openCarriers s).any (fun q => q.2.session == some x) = false) → (e = 1 → x ≠ 0xFFFF) →
    carrierFreqOk (started h s) c hz = true → st ≤ ceilingOf s.tx.steps → permitted s.rf.perm true hz = true →
    routesFit (onCarrier c (fun _ => freshCarrier hz k st x e) (started h s)) = true →
    admitWork [carrierAsk c k] (started h s) = (.ok, u) → Awake [Dom.rfa, Dom.txd, Dom.abc] s →
    Starts (.carrierOpen h c hz k st x e) h 0x40 s →
    (locked s 2 = true → exec (.carrierOpen h c hz k st x e) s = .next (completed h 0x40 []
      (parSet (P.txStep8 c) k (parSet (P.txStep c) st (parSet (P.txFreq c) hz (onCarrier c (fun _ => freshCarrier hz k st x e)
        (commitWork [⟨wkCarrier, c⟩] (acceptedBy h 0x40 u)))))))) ∧
    (locked s 2 = false → exec (.carrierOpen h c hz k st x e) s = .next
      { (if (synth s 2).phase = .off then relockWindow 2 u else u) with
        running := s.running ++ [{ runningOf (.carrierOpen h c hz k st x e) h 0x40 with wait := .lock 2 }] })) ∧
  (∀ c, c ≤ 15 → (carrier s c).phase ≠ .closed → Starts (.carrierClose h c) h 0x41 s → exec (.carrierClose h c) s = .next (
      let v := forgetStopped (2 ^ c) (rampDown (2 ^ c) 2 (started h s))
      { acceptedBy h 0x41 v with running := s.running ++ [{ runningOf (.carrierClose h c) h 0x41 with
          aux := toRamp (2 ^ c) (started h s), accepted := true, wait := if (carrier v c).phase = .stopping then .rampDown (2 ^ c) else .boundary }] })) ∧
  (∀ c st, c ≤ 15 → st ≤ 63 → (carrier s c).phase ≠ .closed → st ≤ ceilingOf s.tx.steps → Awake [Dom.txd] s →
    Starts (.carrierSetPower h c st) h 0x42 s → exec (.carrierSetPower h c st) s = .next
      (replied h 0x42 [] (onCarrier c (fun q => { q with stepNext := some st }) (started h s)))) ∧
  (∀ c st, c ≤ 15 → st ≤ 63 → (carrier s c).phase ≠ .closed → ceilingOf s.tx.steps < st → Awake [Dom.txd] s →
    Starts (.carrierSetPower h c st) h 0x42 s →
    exec (.carrierSetPower h c st) s = .next (turnedAway h 0x42 .planForbidden (started h s))) ∧
  (∀ c hz p p', c ≤ 15 → (carrier s c).phase ≠ .closed → (carrier s c).retune = none →
    carrierFreqOk (started h s) c hz = true → permitted s.rf.perm true hz = true →
    retunePeriod s (announced s (carrier s c).session) (parNow (started h s) (P.txHopLead c)) p = some p' →
    Awake [Dom.txd] s → Starts (.carrierRetune h c hz p) h 0x43 s →
    exec (.carrierRetune h c hz p) s = .next (completed h 0x43 (leBytes 8 p')
      (parSet (P.txRetunePeriodHi c) (p' / 2 ^ 32) (parSet (P.txRetunePeriodLo c) (p' % 2 ^ 32) (parSet (P.txRetuneTarget c) hz
        (onCarrier c (fun q => { q with retune := some ⟨hz, p', 0, announced s q.session, q.freq, 0⟩ })
          (acceptedBy h 0x43 (started h s)))))))) ∧
  (∀ m, m ≠ 0 → (∀ c ∈ maskBits 16 m, (carrier s c).phase ≠ .closed) → txEdge (started h s) ≠ 0 → s.supply.brown = false →
    s.rattle.txLoop = false → Awake [Dom.rfa, Dom.txd] s → Starts (.txEnable h m) h 0x44 s →
    (locked s 2 = true → toStart m s ≠ [] → exec (.txEnable h m) s = .next
      { acceptedBy h 0x44 (startSequence m (started h s)) with running := s.running ++
        [{ runningOf (.txEnable h m) h 0x44 with accepted := true, wait := .txStart }] }) ∧
    (locked s 2 = true → toStart m s = [] →
      exec (.txEnable h m) s = .next (completed h 0x44 [] (acceptedBy h 0x44 (started h s)))) ∧
    (locked s 2 = false → exec (.txEnable h m) s = .next
      { (if (synth s 2).phase = .off then relockWindow 2 (started h s) else started h s) with
        running := s.running ++ [{ runningOf (.txEnable h m) h 0x44 with wait := .lock 2 }] })) ∧
  (∀ m, m ≠ 0 → Starts (.txDisable h m) h 0x45 s →
    (let v := forgetStopped m (rampDown m 1 (started h s))
     (rampingOf m v = 0 → exec (.txDisable h m) s = .next (replied h 0x45 [] v)) ∧
     (rampingOf m v ≠ 0 → exec (.txDisable h m) s = .next { v with running := s.running ++
       [{ runningOf (.txDisable h m) h 0x45 with aux := toRamp m (started h s), wait := .rampDown (rampingOf m v) }] })))

/-- The session commands (09 R265 to R274, R268, R271, R273) and the command link commands (09 R253, R275 to R279) where they
are outside the protected set: what each does when its checks pass. SESSION_SEND, CL_START and a command-link hop stay in
progress until the air answers. It rests also on the model's own choices: log entry 61. -/
def Obligations.ClCommands : Prop := ∀ (h : Hdr) (s : State),
  (∀ n tx f k, (policy s).testBit 8 = false → tx ≠ 0 → tx ≠ 0xFFFFFFFF →
    (∀ m, sessionOfTx s tx = some m → m = n) →
    ((session s n).phase ≠ .free → (session s n).txId = tx ∧ (session s n).phase ≠ .removing ∧
      ((session s n).flags = f % 4 ∨ sessionNamed s n = false)) →
    (session s n).change = none → Starts (.sessionAdd h n tx f k) h 0x52 s →
    exec (.sessionAdd h n tx f k) s = .next (completed h 0x52 [] (onSession n (fun x =>
      if x.phase = .free then { Session.reset with phase := .added, flags := f % 4, txId := tx, key := k }
      else if x.phase = .joined && clRunning s then
        { x with flags := f % 4, pendKey := k, change := some ⟨keyBoundary (started h s), false, false, 0, false⟩ }
      else { x with flags := f % 4, key := k, epoch := (x.epoch + 1) % 2 ^ 32 }) (acceptedBy h 0x52 (started h s))))) ∧
  (∀ n, (policy s).testBit 8 = false → n ≤ 255 → (session s n).phase = .joined → clRunning s = true →
    sessionNamed s n = false → Starts (.sessionRemove h n) h 0x53 s →
    exec (.sessionRemove h n) s = .next (completed h 0x53 []
      (onSession n (fun x => { x with phase := .removing, remove := true, removeAt := now s }) (acceptedBy h 0x53 (started h s))))) ∧
  (∀ n, (policy s).testBit 8 = false → n ≤ 255 → (session s n).phase ≠ .free → (session s n).phase ≠ .removing →
    ((session s n).phase = .joined → clRunning s = false) → sessionNamed s n = false → Starts (.sessionRemove h n) h 0x53 s →
    exec (.sessionRemove h n) s = .next (completed h 0x53 []
      (queueEvent 0x500D n 0 (onSession n (fun _ => Session.reset) (acceptedBy h 0x53 (started h s)))))) ∧
  (∀ n, n ≤ 255 → Starts (.sessionStatus h n) h 0x55 s → exec (.sessionStatus h n) s = .next (replied h 0x55
    (if (session s n).phase = .free then leBytes 1 0 ++ leBytes 2 0x8000 ++ leBytes 8 0 ++ leBytes 1 127
      else leBytes 1 (sesPhaseNo (session s n).phase) ++ sBytes 2 (session s n).level ++ leBytes 8 (session s n).heard ++
        leBytes 1 (session s n).battery) (started h s))) ∧
  (∀ n d, n ≤ 255 → (session s n).phase = .joined → clRunning s = true → Awake [Dom.clr] s →
    Starts (.sessionSend h n d) h 0x54 s → exec (.sessionSend h n d) s = .next
      { acceptedBy h 0x54 (onSession n (fun x => { x with out := some ⟨d, x.toggle, 0⟩, toggle := !x.toggle }) (started h s)) with
        running := s.running ++ [{ runningOf (.sessionSend h n d) h 0x54 with accepted := true, wait := .sessionSend n }] }) ∧
  (∀ f p, (s.cl.phase = .stopped ∨ s.cl.phase = .muted) → clStarting s = false → s.supply.brown = false → clFreqOk f = true → -20 ≤ p → p ≤ 0 →
    ¬(locked s 3 = true ∧ s.clk.cmd.freq = f) → Awake [Dom.rfa, Dom.clr] s → Starts (.clStart h f p) h 0x50 s →
    exec (.clStart h f p) s = .next { started h s with
      cl := { s.cl with phase := .starting, b := nextBeacon (period s + 1), acks := 0, prevAcks := 0 }
      running := s.running ++ [{ runningOf (.clStart h f p) h 0x50 with
        aux := clSynthKept s, wait := .lock 4 }] }) ∧
  (∀ f p, (s.cl.phase = .stopped ∨ s.cl.phase = .muted) → clStarting s = false → s.supply.brown = false → clFreqOk f = true → -20 ≤ p → p ≤ 0 →
    locked s 3 = true → s.clk.cmd.freq = f → Awake [Dom.rfa, Dom.clr] s → Starts (.clStart h f p) h 0x50 s →
    exec (.clStart h f p) s = .next { acceptedBy h 0x50 { started h s with
        cl := { s.cl with phase := .starting, b := nextBeacon (period s + 1), acks := 0, prevAcks := 0 } } with
      running := s.running ++ [{ runningOf (.clStart h f p) h 0x50 with
        aux := clSynthKept s, accepted := true, wait := .clStart }] }) ∧
  ((s.cl.phase ≠ .stopped ∨ clStarting s = true) → Starts (.clStop h) h 0x51 s →
    exec (.clStop h) s = .next (replied h 0x51 [] (stopCl 1 (failClStart (started h s))))) ∧
  (s.cl.phase = .stopped → clStarting s = false → Starts (.clStop h) h 0x51 s →
    exec (.clStop h) s = .next (turnedAway h 0x51 .badState (started h s))) ∧
  (∀ f i p, s.cl.phase = .running → s.cl.hop = none → clFreqOk f = true → f ≠ s.cl.freq →
    (p = 0 ∨ (p % 20 = 0 ∧ period s + parGet (started h s) P.clHopLead ≤ p ∧ p ≤ period s + 1000)) → Awake [Dom.clr] s →
    Starts (.clHop h 2 i f p) h 0x56 s → exec (.clHop h 2 i f p) s = .next (
      let n := if p = 0 then nextBeacon (period s + parGet (started h s) P.clHopLead) else p
      { acceptedBy h 0x56 (parSet P.clHopPeriodHi (n / 2 ^ 32) (parSet P.clHopPeriodLo (n % 2 ^ 32) (parSet P.clHopTarget f
          { started h s with cl := { s.cl with hop := some ⟨f, n, 0, false, s.cl.freq, 0⟩ } }))) with
        running := s.running ++ [{ runningOf (.clHop h 2 i f p) h 0x56 with aux := n, accepted := true, wait := .clHop }] })) ∧
  (∀ f i p p', i ≤ 63 → (link s i).isOpen = true → (link s i).hop = none → insideWindow (rxEdge (started h s)) f = true →
    permitted s.rf.perm false f = true → announced s (link s i).session = true →
    retunePeriod s true (parNow (started h s) (P.linkHopLead i)) p = some p' → Awake [Dom.rfa, Dom.chz, Dom.dmd] s →
    Starts (.clHop h 0 i f p) h 0x56 s → exec (.clHop h 0 i f p) s = .next
      (completed h 0x56 [] (scheduleHop i f p' true (acceptedBy h 0x56 (started h s))))) ∧
  (∀ f i p p', i ≤ 15 → (carrier s i).phase ≠ .closed → (carrier s i).retune = none →
    carrierFreqOk (started h s) i f = true → permitted s.rf.perm true f = true → announced s (carrier s i).session = true →
    retunePeriod s true (parNow (started h s) (P.txHopLead i)) p = some p' → Awake [Dom.txd] s →
    Starts (.clHop h 1 i f p) h 0x56 s → exec (.clHop h 1 i f p) s = .next
      (completed h 0x56 [] (scheduleRetune i f p' (acceptedBy h 0x56 (started h s)))))

/-- The audio port commands (11 R311, R320, R322, R327): what each does when its checks pass, and a change of other fields
than the masks on a port that runs. PORT_STOP stays in progress while a port fades out. It rests also on the model's own
choices: log entry 68. -/
def Obligations.PortCommands : Prop := ∀ (h : Hdr) (s : State),
  (∀ p c u, portFieldsOk p c = true → ((port s p).phase = .unconfigured ∨ (port s p).phase = .stopped) →
    admitWork (portAsks p c (started h s)) (started h s) = (.ok, u) → routesFit (withPortCfg p c (started h s)) = true →
    Awake [Dom.aud] s → Starts (.portConfig h p c.format c.rate c.slots c.role c.slotBits c.inMask c.outMask c.drive) h 0x60 s →
    exec (.portConfig h p c.format c.rate c.slots c.role c.slotBits c.inMask c.outMask c.drive) s = .next (completed h 0x60 []
      (showPort p c (onPort p (fun _ => { Port.reset with cfg := c, phase := .stopped, loopback := (port s p).loopback })
        (commitWork (portWork p c (acceptedBy h 0x60 u)) (acceptedBy h 0x60 u)))))) ∧
  (∀ p c u, portFieldsOk p c = true → (port s p).phase = .rateMuted →
    admitWork (portAsks p c (started h s)) (started h s) = (.ok, u) → routesFit (withPortCfg p c (started h s)) = true →
    Awake [Dom.aud] s → Starts (.portConfig h p c.format c.rate c.slots c.role c.slotBits c.inMask c.outMask c.drive) h 0x60 s →
    exec (.portConfig h p c.format c.rate c.slots c.role c.slotBits c.inMask c.outMask c.drive) s = .next (completed h 0x60 []
      (showPort p c (onPort p (fun q => { q with
          cfg := c, next := none, differs := 0, acquired := false
          phase := if rateClass (isSlip c) (port s p).rate == cfgClass c || c.role == 0 then .reacquiring else .rateMuted })
        (commitWork (portWork p c (acceptedBy h 0x60 u)) (acceptedBy h 0x60 u)))))) ∧
  (∀ p c u, portFieldsOk p c = true → portIdle (port s p) = false → masksOnly (portCfgNow (port s p)) c = true →
    admitWork (portAsks p c (started h s)) (started h s) = (.ok, u) → routesFit (withPortCfg p c (started h s)) = true →
    Awake [Dom.aud] s → Starts (.portConfig h p c.format c.rate c.slots c.role c.slotBits c.inMask c.outMask c.drive) h 0x60 s →
    exec (.portConfig h p c.format c.rate c.slots c.role c.slotBits c.inMask c.outMask c.drive) s = .next (completed h 0x60 []
      (onPort p (fun q => { q with next := some c })
        (commitWork (portWork p c (acceptedBy h 0x60 u)) (acceptedBy h 0x60 u))))) ∧
  (∀ p c, portFieldsOk p c = true → portIdle (port s p) = false → masksOnly (portCfgNow (port s p)) c = false →
    Awake [Dom.aud] s → Starts (.portConfig h p c.format c.rate c.slots c.role c.slotBits c.inMask c.outMask c.drive) h 0x60 s →
    exec (.portConfig h p c.format c.rate c.slots c.role c.slotBits c.inMask c.outMask c.drive) s =
      .next (turnedAway h 0x60 .badState (started h s))) ∧
  (∀ m st n, m ≠ 0 → m ≤ 63 → st ≤ 2 → (st = 2 → period s < n ∧ n ≤ period s + 65535) →
    (∀ i ∈ maskBits 8 m, (port s i).phase = .stopped) → Awake [Dom.aud] s → Starts (.portStart h m st n) h 0x61 s →
    exec (.portStart h m st n) s = .next (completed h 0x61 [] (each (maskBits 8 m) (fun i => onPort i (fun q => { q with
        phase := .armed, start := st
        startAt := if st = 0 then some ((period s + 1) * 61440) else if st = 2 then some (n * 61440) else none }))
      (acceptedBy h 0x61 (started h s))))) ∧
  (∀ m, m ≠ 0 → Starts (.portStop h m) h 0x62 s →
    (let v := stopPorts 1 m (started h s)
     (portsStopping m v = 0 → exec (.portStop h m) s = .next (completed h 0x62 [] (acceptedBy h 0x62 v))) ∧
     (portsStopping m v ≠ 0 → exec (.portStop h m) s = .next { acceptedBy h 0x62 v with running := s.running ++
       [{ runningOf (.portStop h m) h 0x62 with
         aux := toStop m (started h s), accepted := true, wait := .portStop (portsStopping m v) }] })))

/-- The router commands (11 R330, R331, R333, R337, R338): what each does when its checks pass, and a route that would break
the latency limit. A tap takes the slot that its command has reserved. It rests also on the model's own choices: log entries
40 and 67. -/
def Obligations.RouterCommands : Prop := ∀ (h : Hdr) (s : State),
  (∀ n a b g u, n ≤ 511 → routeFieldsOk a b g = true → (route s n).fading = false →
    ((route s n).inUse = true → (route s n).src = a ∧ (route s n).dst = b) → dstTaken (started h s) n b = false →
    latencyFits (started h s) a b = true → admitFor (routeKey n) (routeAsks (started h s) n a b) (started h s) = (.ok, u) →
    Awake (if (busOfDst b).isSome then [Dom.aud, Dom.abc] else [Dom.aud]) s → Starts (.routeSet h n a b g) h 0x63 s →
    exec (.routeSet h n a b g) s = .next (completed h 0x63 []
      (mirrorRoute n ⟨a, b, g, true⟩ (setRoute n a b g (commitFor (routeKey n) (fun _ => true) (acceptedBy h 0x63 u)))))) ∧
  (∀ n a b g, n ≤ 511 → routeFieldsOk a b g = true → (route s n).fading = false →
    ((route s n).inUse = true → (route s n).src = a ∧ (route s n).dst = b) → dstTaken (started h s) n b = false →
    latencyFits (started h s) a b = false →
    Awake (if (busOfDst b).isSome then [Dom.aud, Dom.abc] else [Dom.aud]) s → Starts (.routeSet h n a b g) h 0x63 s →
    exec (.routeSet h n a b g) s = .next (turnedAway h 0x63 .refusedCapacity (bump P.audLatencyRefusals (started h s)))) ∧
  (∀ n, n ≤ 511 → (route s n).inUse = true → Awake [Dom.aud] s → Starts (.routeClear h n) h 0x64 s →
    exec (.routeClear h n) s = .next (completed h 0x64 [] (mirrorRoute n ⟨(route s n).src, (route s n).dst, (route s n).gain, false⟩
      (removeTap n (onRoute n (fun r => { r with
          inUse := false, fading := true, ended := !(chargeOf s ⟨wkRoute, n⟩).isSome, ramp := { r.ramp with next := some 0 } })
        (acceptedBy h 0x64 (started h s))))))) ∧
  (∀ b c g, b ≤ 31 → c ≤ 2 → gainCodeOk g = true →
    (c ≠ (bus s b).cls → (liveRoutes s).any (fun p => busOfDst p.2.dst == some b || srcOf p.2.src == some (.bus b)) = false) →
    Awake [Dom.aud] s → Starts (.mixSetGain h b c g) h 0x65 s → exec (.mixSetGain h b c g) s = .next (completed h 0x65 []
      (onBus b (fun x => { x with cls := c, gain := g, ramp := { x.ramp with next := some (linGain g) } })
        (acceptedBy h 0x65 (started h s))))) ∧
  (∀ n k o l t u, n ≤ 511 → (k = 3 ∨ k = 4) → o % 4 = 0 → l % (24 * k) = 0 → 48 * k ≤ l → o + l ≤ 0x40000 →
    bufferTaken (started h s) n o l = false → (route s n).inUse = true → (route s n).fading = false → tapSlot s n = some t →
    admitFor (routeKey n) [tapAsk t k] (started h s) = (.ok, u) → tapSlot u n = some t → Awake [Dom.aud, Dom.mem] s →
    Starts (.tapConfig h n k o l) h 0x66 s → exec (.tapConfig h n k o l) s = .next (completed h 0x66 []
      (commitFor (routeKey n) (fun _ => true) (onTap t (fun _ => ⟨n, k, o, l, o⟩) (acceptedBy h 0x66 u))))) ∧
  (∀ n k o, n ≤ 511 → (k = 3 ∨ k = 4) → o % 4 = 0 → (route s n).inUse = true → (route s n).fading = false →
    Awake [Dom.aud, Dom.mem] s → Starts (.tapConfig h n k o 0) h 0x66 s →
    exec (.tapConfig h n k o 0) s = .next (completed h 0x66 [] (removeTap n (acceptedBy h 0x66 (started h s)))))

/-- The Abacus commands (10 R297, R299 to R306) with ABC running: what each does when its checks pass, and what ends each
otherwise, in the order of its checks. A rod that a link, a carrier or a bus holds refuses all five. PROG_RETIRE, and
COEF_WRITE on a RUNNING rod or while ABC restarts, stay in progress until the boundary. It rests also on the model's own
choices: log entry 64. -/
def Obligations.RodCommands : Prop := ∀ (h : Hdr) (s : State) (n : Nat), n ≤ 63 → Awake [Dom.abc] s →
  ((rod s n).phase = .link ∨ (rod s n).phase = .carrier ∨ (rod s n).phase = .bus →
    (∀ f ws, Starts (.progLoad h n f ws) h 0x70 s → exec (.progLoad h n f ws) s =
      .next (turnedAway h 0x70 (if ws = [] ∨ 254 < ws.length then .badParam else .badState) (started h s))) ∧
    (∀ k, Starts (.progAdmit h n k) h 0x71 s → exec (.progAdmit h n k) s = .next (turnedAway h 0x71 .badState (started h s))) ∧
    (Starts (.progRetire h n) h 0x72 s → exec (.progRetire h n) s = .next (turnedAway h 0x72 .badState (started h s))) ∧
    (∀ b f ws, Starts (.coefWrite h n b f ws) h 0x73 s → exec (.coefWrite h n b f ws) s =
      .next (turnedAway h 0x73 (if ws = [] ∨ 509 < ws.length then .badParam else .badState) (started h s))) ∧
    (∀ p, Starts (.coefSwap h n p) h 0x74 s → exec (.coefSwap h n p) s = .next (turnedAway h 0x74 .badState (started h s)))) ∧
  ((rod s n).phase ≠ .link → (rod s n).phase ≠ .carrier → (rod s n).phase ≠ .bus →
    (∀ f ws, Starts (.progLoad h n f ws) h 0x70 s →
      ((rod s n).phase ≠ .running → ws ≠ [] → ws.length ≤ 254 → f + ws.length ≤ 512 → exec (.progLoad h n f ws) s =
        .next (completed h 0x70 [] (onRod n (fun r => { r with phase := .loaded, prog := smSetList 0 r.prog f ws })
          (acceptedBy h 0x70 (started h s))))) ∧
      (ws = [] ∨ 254 < ws.length ∨ 512 < f + ws.length → exec (.progLoad h n f ws) s = .next (turnedAway h 0x70 .badParam (started h s))) ∧
      ((rod s n).phase = .running → ws ≠ [] → ws.length ≤ 254 → f + ws.length ≤ 512 →
        exec (.progLoad h n f ws) s = .next (turnedAway h 0x70 .badState (started h s)))) ∧
    (∀ k, Starts (.progAdmit h n k) h 0x71 s →
      (∀ c u, (rod s n).phase = .loaded → k ≤ 2 → progCheck (rod s n).prog = .inr c →
        routesFit (onRod n (admitted k c) (started h s)) = true → admitWork [progAsk n c] (started h s) = (.ok, u) →
        (rod u n).prog = (rod s n).prog → exec (.progAdmit h n k) s =
          .next (completed h 0x71 (leBytes 4 (pips (admitTc (acceptedBy h 0x71 u)) c))
            (commitWork [⟨wkProgram, n⟩] (onRod n (admitted k c) (acceptedBy h 0x71 u))))) ∧
      (∀ a w, (rod s n).phase = .loaded → k ≤ 2 → progCheck (rod s n).prog = .inl (a, w) → exec (.progAdmit h n k) s =
        .next (turnedAway h 0x71 .badParam (parSet P.abcProgCheck24 n (parSet P.abcProgCheck16 w
          (parSet P.abcProgCheck a (started h s)))))) ∧
      (∀ c, (rod s n).phase = .loaded → k ≤ 2 → progCheck (rod s n).prog = .inr c →
        routesFit (onRod n (admitted k c) (started h s)) = false → exec (.progAdmit h n k) s =
          .next (turnedAway h 0x71 .refusedCapacity (bump P.audLatencyRefusals (started h s)))) ∧
      (2 < k → exec (.progAdmit h n k) s = .next (turnedAway h 0x71 .badParam (started h s))) ∧
      ((rod s n).phase ≠ .loaded → k ≤ 2 →
        exec (.progAdmit h n k) s = .next (turnedAway h 0x71 .badState (started h s)))) ∧
    (Starts (.progRetire h n) h 0x72 s →
      ((rod s n).phase = .running → exec (.progRetire h n) s = .next { acceptedBy h 0x72 (started h s) with
        running := s.running ++ [{ runningOf (.progRetire h n) h 0x72 with accepted := true, wait := .boundary }] }) ∧
      ((rod s n).phase ≠ .running → exec (.progRetire h n) s = .next (turnedAway h 0x72 .badState (started h s)))) ∧
    (∀ b f ws, Starts (.coefWrite h n b f ws) h 0x73 s →
      (b ≤ 1 → ws ≠ [] → ws.length ≤ 509 → f + ws.length ≤ 512 → (rod s n).phase ≠ .running → restarting s Dom.abc = false →
        exec (.coefWrite h n b f ws) s = .next (completed h 0x73 [] (onRod n (fun r =>
          if b = 0 then { r with bank0 := smSetList 0 r.bank0 f ws } else { r with bank1 := smSetList 0 r.bank1 f ws })
          (acceptedBy h 0x73 (started h s))))) ∧
      (b ≤ 1 → ws ≠ [] → ws.length ≤ 509 → f + ws.length ≤ 512 → ((rod s n).phase = .running → (rod s n).swap = none ∧ b ≠ (rod s n).active) →
        (rod s n).phase = .running ∨ restarting s Dom.abc = true →
        exec (.coefWrite h n b f ws) s = .next { acceptedBy h 0x73 (started h s) with
          running := s.running ++ [{ runningOf (.coefWrite h n b f ws) h 0x73 with accepted := true, wait := .boundary }] }) ∧
      (1 < b ∨ ws = [] ∨ 509 < ws.length ∨ 512 < f + ws.length →
        exec (.coefWrite h n b f ws) s = .next (turnedAway h 0x73 .badParam (started h s))) ∧
      (b ≤ 1 → ws ≠ [] → ws.length ≤ 509 → f + ws.length ≤ 512 → (rod s n).phase = .running → (rod s n).swap ≠ none ∨ b = (rod s n).active →
        exec (.coefWrite h n b f ws) s = .next (turnedAway h 0x73 .badState (started h s)))) ∧
    (∀ p, Starts (.coefSwap h n p) h 0x74 s →
      ((rod s n).phase = .running → (rod s n).swap = none → (p = 0 ∨ (period s < p ∧ p ≤ period s + 65535)) →
        exec (.coefSwap h n p) s = .next (
          let a := if p = 0 then period s + 1 else p
          replied h 0x74 (leBytes 8 a) (parSet (P.abcSwapPeriodLo n) (a % 2 ^ 32) (parSet (P.abcSwapPeriodHi n) (a / 2 ^ 32)
            (onRod n (fun r => { r with swap := some a }) (started h s)))))) ∧
      ((rod s n).phase ≠ .running ∨ (rod s n).swap ≠ none →
        exec (.coefSwap h n p) s = .next (turnedAway h 0x74 .badState (started h s))) ∧
      ((rod s n).phase = .running → (rod s n).swap = none → p ≠ 0 → (p ≤ period s ∨ period s + 65535 < p) →
        exec (.coefSwap h n p) s = .next (turnedAway h 0x74 .badParam (started h s)))))

/-- ANALOG_CONFIG (12 R341, R342, R350 to R355): a mode or a start-up field is written at once and the command stays in
progress while its sequence runs; a gain or a mute field is written at the boundary; a value out of range is turned away. It
rests also on the model's own choices: log entry 69. -/
def Obligations.AnalogCommand : Prop := ∀ (h : Hdr) (s : State) (t f : Nat) (v : Int),
  (∀ a b, anaRange t f = some (a, b) → (a : Int) ≤ v → v ≤ b → startsSequence t f = true → Awake [Dom.ana] s →
    Starts (.analogConfig h t f v) h 0x67 s → exec (.analogConfig h t f v) s = .next (
      let u := (anaBegin t f v.toNat (started h s)).2
      { acceptedBy h 0x67 u with
        running := s.running ++ [{ runningOf (.analogConfig h t f v) h 0x67 with
          aux := anaSet (started h s) t f, accepted := true
          wait := if (anaBegin t f v.toNat (started h s)).1 then .analogSeq t else .boundary }] })) ∧
  (∀ a b, anaRange t f = some (a, b) → (a : Int) ≤ v → v ≤ b → startsSequence t f = false → Awake [Dom.ana] s →
    Starts (.analogConfig h t f v) h 0x67 s → exec (.analogConfig h t f v) s = .next
      { acceptedBy h 0x67 (started h s) with
        running := s.running ++ [{ runningOf (.analogConfig h t f v) h 0x67 with
          aux := anaSet (started h s) t f, accepted := true, wait := .boundary }] }) ∧
  (∀ a b, anaRange t f = some (a, b) → (v < a ∨ b < v) → Starts (.analogConfig h t f v) h 0x67 s →
    exec (.analogConfig h t f v) s = .next (turnedAway h 0x67 .badParam (started h s))) ∧
  (anaRange t f = none → Starts (.analogConfig h t f v) h 0x67 s →
    exec (.analogConfig h t f v) s = .next (turnedAway h 0x67 .badParam (started h s)))

/-- The instrumentation commands (13 R369, R376, R377, R379 to R383): what each does when its checks pass. MEAS_NOW stays in
progress until its conversion ends; a busy converter drops it. It rests also on the model's own choices: log entry 70. -/
def Obligations.InstrumentCommands : Prop := ∀ (h : Hdr) (s : State),
  (∀ n ch r o k t d, measConfigCheck n ch r o k t (started h s) = .ok → Awake [Dom.ana] s →
    Starts (.measConfig h n ch r o k t d) h 0x80 s → exec (.measConfig h n ch r o k t d) s = .next (completed h 0x80 [] (
      let u := onFine n (fun f => { f with
        channel := ch, order := o, notch := k, trigger := t, delay := d, d := (2048000 + r) / (2 * r), seqAt := 0
        conv := if (fine s n).trigger = 1 ∧ t ≠ 1 then f.conv.filter (fun c => c.urgent) else f.conv }) (acceptedBy h 0x80 (started h s))
      if (fine s n).trigger ≠ 1 then runContinuous n u else u))) ∧
  (∀ n ch r o k t d, measConfigCheck n ch r o k t (started h s) = .badParam → Starts (.measConfig h n ch r o k t d) h 0x80 s →
    exec (.measConfig h n ch r o k t d) s = .next (turnedAway h 0x80 .badParam (started h s))) ∧
  (∀ n ch, n ≤ 1 → channelOk n ch = true → s.inst.refReady = true → (fine s n).conv = none → (fine s n).trigger ≠ 1 →
    Awake [Dom.ana] s → Starts (.measNow h n ch) h 0x81 s → exec (.measNow h n ch) s = .next
      { acceptedBy h 0x81 (startConv n ch 0 true (started h s)) with
        running := s.running ++ [{ runningOf (.measNow h n ch) h 0x81 with accepted := true, wait := .conversion n }] }) ∧
  (∀ n ch, n ≤ 1 → channelOk n ch = true → s.inst.refReady = true → ((fine s n).conv.isSome = true ∨ (fine s n).trigger = 1) →
    Awake [Dom.ana] s → Starts (.measNow h n ch) h 0x81 s →
    exec (.measNow h n ch) s = .next (turnedAway h 0x81 .dropped (bump P.measUrgentDropped (started h s)))) ∧
  (∀ m o l u, m ≠ 0 → m ≤ 3 → o % 8 = 0 → l % 8 = 0 → 64 ≤ l → o + l ≤ 0x40000 →
    s.audio.taps.any (fun p => p.2.length != 0 && overlaps o l p.2.start p.2.length) = false → s.inst.stream = none →
    admitFor (streamKey m) [streamAsk m] (started h s) = (.ok, u) → Awake [Dom.ana, Dom.mem] s → Starts (.measStreamStart h m o l) h 0x82 s →
    exec (.measStreamStart h m o l) s = .next (completed h 0x82 [] (parSet P.measStreamStart o (parSet P.measStreamLength l
      (each (maskBits 2 m) (fun n => onFine n (fun f => { f with joining := true }))
        (commitFor (streamKey m) (fun _ => true) { acceptedBy h 0x82 u with inst := { s.inst with stream := some ⟨o, l, o⟩ } })))))) ∧
  (∀ m, 1 ≤ m → m ≤ 3 → Starts (.measStreamStop h m) h 0x83 s →
    exec (.measStreamStop h m) s = .next (replied h 0x83 [] (leaveStream m (started h s)))) ∧
  (∀ c v, c ≤ 7 → v ≤ 16383 → Awake [Dom.ana] s → Starts (.cdacSet h c v 0) h 0x84 s →
    exec (.cdacSet h c v 0) s = .next (replied h 0x84 [] (onCdac c (fun x => x.aim (now s) v) (started h s)))) ∧
  (∀ c v m, c ≤ 7 → v ≤ 16383 → 1 ≤ m → m ≤ 4 → timerOn (started h s) (m - 1) = true → Awake [Dom.ana] s →
    Starts (.cdacSet h c v m) h 0x84 s → exec (.cdacSet h c v m) s = .next (replied h 0x84 []
      (onCdac c (fun x => { x with pending := some (m, v) }) (started h s)))) ∧
  (∀ c r, c ≤ 7 → r ≤ 1 → (cdac s c).phase < 2 → Awake [Dom.ana] s → Starts (.cdacRange h c r) h 0x85 s →
    exec (.cdacRange h c r) s = .next (completed h 0x85 [] (onCdac c (fun x =>
      if x.range = r then x else { x.move (now s) 2 with newRange := r }) (acceptedBy h 0x85 (started h s)))))

/-- A byte pushed into CMD_MAILBOX (02 R38, R42, R45 to R47, R50): it joins the packet in assembly; the last byte of a packet
hands the packet on; a full FIFO and a length above 1024 start discard mode; nothing happens while bytes are dropped, SEQ does
not run, AON is in reset or the bank of the host balls is off. It rests also on the model's own choices: log entries 1 and 28.
-/
def Obligations.MailboxWrite : Prop := ∀ (c : Chan) (b : Byte) (s : State),
  (s.supply.resetHeld ≠ none ∨ s.supply.iohOn = false → exec (.cmdMailboxWrite c b) s = .next s) ∧
  (s.supply.resetHeld = none → s.supply.iohOn = true →
  (s.seq.running = true → (chan s c).discard = false → cmdLevel s c < 2048 →
    ((chan s c).asm.length ≤ 2 ∨ ((chan s c).asm.length ≠ 3 ∧
      (chan s c).asm.length + 1 ≠ 6 + fldAt ((chan s c).asm ++ [b]) 2 2)) →
    exec (.cmdMailboxWrite c b) s = .next (onChan c (fun k => { k with asm := k.asm ++ [b] }) s)) ∧
  (s.seq.running = true → (chan s c).discard = false → cmdLevel s c < 2048 → (chan s c).asm.length = 3 →
    fldAt ((chan s c).asm ++ [b]) 2 2 ≤ 1024 →
    exec (.cmdMailboxWrite c b) s = .next (onChan c (fun k => { k with asm := k.asm ++ [b] }) s)) ∧
  (s.seq.running = true → (chan s c).discard = false → cmdLevel s c < 2048 → (chan s c).asm.length = 3 →
    1024 < fldAt ((chan s c).asm ++ [b]) 2 2 → exec (.cmdMailboxWrite c b) s = .next (enterDiscard c 3 s)) ∧
  (s.seq.running = true → (chan s c).discard = false → 2048 ≤ cmdLevel s c →
    exec (.cmdMailboxWrite c b) s = .next (enterDiscard c 2 s)) ∧
  (s.seq.running = true → (chan s c).discard = false → cmdLevel s c < 2048 → 4 ≤ (chan s c).asm.length →
    (chan s c).asm.length + 1 = 6 + fldAt ((chan s c).asm ++ [b]) 2 2 →
    exec (.cmdMailboxWrite c b) s = .next (packetIn c ((chan s c).asm ++ [b]) (onChan c (fun k => { k with asm := [] }) s))) ∧
  (s.seq.running = false ∨ (chan s c).discard = true → exec (.cmdMailboxWrite c b) s = .next s))

/-- A read of REPLY_MAILBOX, the flushes, the timebase latch and the write of each register of the front window (02 R40, R43,
R44, R59, 14 R400) while AON is out of reset and the bank of the host balls is up; else nothing happens. The last byte of a
reply that is read counts towards a SOFT reset that waits for the reply to RESET (`softCount`, `softFlush`). Writes to
read-only and reserved bytes do nothing. It rests also on the model's own choices: log entry 38. -/
def Obligations.FrontAccesses : Prop := ∀ (c : Chan) (s : State),
  (s.supply.resetHeld ≠ none ∨ s.supply.iohOn = false →
    exec (.replyMailboxRead c) s = .next s ∧ exec (.flushCmd c) s = .next s ∧ exec (.flushReply c) s = .next s ∧
    exec .timebaseLatch s = .next s ∧ (∀ v, exec (.alertStatusWrite v) s = .next s) ∧
    (∀ a v, exec (.frontWindowWrite c a v) s = .next s)) ∧
  (s.supply.resetHeld = none → s.supply.iohOn = true →
    (∀ b bs rest, s.seq.running = true → (chan s c).replies = (b :: bs) :: rest →
      exec (.replyMailboxRead c) s = .next (
        let t := softCount c (onChan c (fun k => { k with replies := if bs = [] then rest else bs :: rest, partly := !bs.isEmpty }) s)
        { t with front := { t.front with spiOut := [b] } })) ∧
    (s.seq.running = true → (chan s c).replies = [] → exec (.replyMailboxRead c) s = .next (
        let t := bump P.sysReplyUnderrun (onChan c (fun k => { k with intUnderrun := true }) s)
        { t with front := { s.front with spiOut := [0] } })) ∧
    (s.seq.running = false → exec (.replyMailboxRead c) s = .next { s with front := { s.front with spiOut := [0] } }) ∧
    (s.seq.running = true → exec (.flushCmd c) s = .next (pump (onChan c (fun k => { k with asm := [], discard := false })
        { s with waiting := s.waiting.filter (fun a => a.hdr.ch != c) }))) ∧
    (s.seq.running = true → exec (.flushReply c) s =
      .next (onChan c (fun k => { k with replies := [], partly := false }) (softFlush c s))) ∧
    (s.seq.running = false → exec (.flushCmd c) s = .next s ∧ exec (.flushReply c) s = .next s) ∧
    exec .timebaseLatch s = .next { s with front := { s.front with tbLatch := s.timebase } } ∧
    (∀ v, exec (.alertStatusWrite v) s = .next { s with
      front := { s.front with
        alertNormal := s.front.alertNormal && !v.getLsbD 0, alertBrown := s.front.alertBrown && !v.getLsbD 4
        alertDeadline := s.front.alertDeadline && !v.getLsbD 5, alertCosign := s.front.alertCosign && !v.getLsbD 6 }
      tw := { s.tw with answered := false } }) ∧
    (∀ v, exec (.frontWindowWrite c 0x08 v) s = .next (onChan c (fun k => { k with
        intDiscard := k.intDiscard && !v.getLsbD 5, intUnderrun := k.intUnderrun && !v.getLsbD 6 }) { s with
      front := { s.front with
        readyRise := s.front.readyRise && !v.getLsbD 3, wake := s.front.wake && !v.getLsbD 4
        eventsLost := s.front.eventsLost && !v.getLsbD 7 } })) ∧
    (∀ n v, n ≤ 3 → exec (.frontWindowWrite c (0x0C + n) v) s = .next
      { s with front := { s.front with intMask := putByte s.front.intMask n v } }) ∧
    (∀ v, exec (.frontWindowWrite c 0x10 v) s = exec (.alertStatusWrite v) s) ∧
    (∀ v, exec (.frontWindowWrite c 0x11 v) s = .next { s with front := { s.front with alertMask := v &&& 0x71 } }) ∧
    (∀ v, exec (.frontWindowWrite c 0x14 v) s = .next (
      let t := if v.getLsbD 0 then flushCmd c s else s
      if v.getLsbD 1 then flushReply c t else t)) ∧
    (exec (.flushCmd c) s = .next (flushCmd c s) ∧ exec (.flushReply c) s = .next (flushReply c s)) ∧
    (∀ a v, 0x20 ≤ a → a ≤ 0x7F → exec (.frontWindowWrite c a v) s = exec (.cmdMailboxWrite c v) s) ∧
    (∀ v, exec (.frontWindowWrite c 0xE0 v) s = .next { s with front := { s.front with groupEn := v.getLsbD 2 } }) ∧
    (∀ v, exec (.frontWindowWrite c 0xE1 v) s = .next { s with front := { s.front with groupAddr := v.toNat % 128 } }) ∧
    (∀ v, exec (.frontWindowWrite c 0xE2 v) s = .next { s with front := { s.front with groupMask := v.toNat % 128 } }) ∧
    (∀ n v, n ≤ 3 → exec (.frontWindowWrite c (0xF8 + n) v) s = .next
      { s with front := { s.front with scratch := putByte s.front.scratch n v } }) ∧
    (∀ a v, (a ≤ 0x07 ∨ (0x09 ≤ a ∧ a ≤ 0x0B) ∨ a = 0x12 ∨ a = 0x13 ∨ (0x15 ≤ a ∧ a ≤ 0x1F) ∨ (0x80 ≤ a ∧ a ≤ 0xDF) ∨
      (0xE3 ≤ a ∧ a ≤ 0xF7) ∨ (0xFC ≤ a ∧ a ≤ 0xFF)) → exec (.frontWindowWrite c a v) s = .next s))

/-- The SPI transactions (02 R36 to R39, 15 R417, 19 R475, R480, R489). While AON is in reset, the bank of the host balls is
off or the boot mode is 01, the port drives nothing and nothing happens. Else the fall of chip select is a wake source while
it is enabled, which leaves the state u; then come the status byte and the data; a transaction that needs SEQ while SEQ does
not run has no effect, answers WAKING and zeros, and is counted; so is a transaction part of whose bytes need SEQ, whose other
bytes are served. It rests also on the model's own choices: log entries 28 and 38. -/
def Obligations.SpiTransactions : Prop := ∀ (s u : State) (q : Bool),
  (s.supply.resetHeld ≠ none ∨ s.supply.iohOn = false ∨ s.front.bootMode = 1 →
    (∀ d, exec (.spiWriteMailbox q d) s = .next (drive [] s)) ∧ (∀ n, exec (.spiReadMailbox q n) s = .next (drive [] s)) ∧
    (∀ a n, exec (.spiReadFrontWindow q a n) s = .next (drive [] s)) ∧
    (∀ a d, exec (.spiWriteFrontWindow q a d) s = .next (drive [] s)) ∧
    (∀ n, exec (.spiReadStatus q n) s = .next (drive [] s)) ∧ (∀ k, exec (.spiProtoErr k) s = .next (drive [] s))) ∧
  (s.supply.resetHeld = none → s.supply.iohOn = true → s.front.bootMode ≠ 1 →
    u = (if wakeEnabled s 0 0 then settle (fireWake 0 s) else s) →
  (∀ d, u.seq.running = true → exec (.spiWriteMailbox q d) s = .next
    (drive [spiStatus false u] (d.foldl (fun t b => writeCmd .operator b t) u))) ∧
  (∀ d, u.seq.running = false → exec (.spiWriteMailbox q d) s = .next (drive [spiStatus true u] (bump P.sysSpiWakingReplies u))) ∧
  (∀ n, u.seq.running = true → exec (.spiReadMailbox q n) s = .next
    (drive (spiStatus false u :: (popRun n u).1) (popRun n u).2)) ∧
  (∀ n, u.seq.running = false → exec (.spiReadMailbox q n) s = .next
    (drive (spiStatus true u :: List.replicate n 0) (bump P.sysSpiWakingReplies u))) ∧
  (∀ a n, a + n ≤ 0x18 → exec (.spiReadFrontWindow q a n) s = .next
    (drive (spiStatus false u :: (List.range n).map (fun i => showByte .operator (a + i) u)) u)) ∧
  (∀ a n, 0x20 ≤ a → a ≤ 0xDF → u.seq.running = false → exec (.spiReadFrontWindow q a n) s = .next
    (drive (spiStatus true u :: List.replicate n 0) (bump P.sysSpiWakingReplies u))) ∧
  (∀ a v, a ≤ 0x1F ∨ 0xE0 ≤ a ∧ a ≤ 0xFF → exec (.spiWriteFrontWindow q a [v]) s = .next
    (drive [spiStatus false u] (frontWrite .operator a v u))) ∧
  (∀ a d, 0x20 ≤ a → a ≤ 0xDF → u.seq.running = false → exec (.spiWriteFrontWindow q a d) s = .next
    (drive [spiStatus true u] (bump P.sysSpiWakingReplies u))) ∧
  (∀ a n, a ≤ 0xFF → needsSeq a = false ∨ u.seq.running = true → exec (.spiReadFrontWindow q a n) s = .next (
    let r := readRun n a u
    drive (spiStatus false u :: r.1) (if r.2.1 then bump P.sysSpiWakingReplies r.2.2 else r.2.2))) ∧
  (∀ a d, a ≤ 0xFF → needsSeq a = false ∨ u.seq.running = true → exec (.spiWriteFrontWindow q a d) s = .next (
    let r := writeRun d a u
    drive [spiStatus false u] (if r.1 then bump P.sysSpiWakingReplies r.2 else r.2))) ∧
  (∀ n, exec (.spiReadStatus q n) s = .next (drive (List.replicate (n + 1) (spiStatus false u)) u)) ∧
  (∀ k, (128 ≤ k.toNat ∨ k.toNat % 64 = 0 ∨ 5 < k.toNat % 64) →
    exec (.spiProtoErr k) s = .next (bump P.sysSpiProtoErr (drive [] u))) ∧
  (∀ k, ¬(128 ≤ k.toNat ∨ k.toNat % 64 = 0 ∨ 5 < k.toNat % 64) → exec (.spiProtoErr k) s = .next (drive [] u)))

/-- Two-wire transfers (14 R391 to R398, 15 R417). In the awake states a match is a wake source while an entry to sleep is
abandoned by it, which leaves the state u: the first byte of a write sets the channel's pointer; a data byte goes to the
register it names and advances it; a byte for a full command FIFO, or for SEQ while it does not run, is not acknowledged; a
read gives bytes from the pointer on; a byte that needs SEQ while SEQ restarts is stretched. In sleep a match that wakes is
held until SEQ runs; where it may not wake, where AON is in reset or the bank is off, and at an address that is not the
device's, nothing is acknowledged. While a transfer is held no other begins. It rests also on the model's own choices: log
entry 39. -/
def Obligations.TwoWireTransfers : Prop := ∀ (c : Chan) (x : Nat) (s u : State),
  (∀ r, twChannel s (0x48 + s.front.addrPins) r = some .operator ∧ twChannel s (0x50 + s.front.addrPins) r = some .custodian) ∧
  (x ≠ 0x48 + s.front.addrPins → x ≠ 0x50 + s.front.addrPins → twChannel s x true = none ∧
    twChannel s x false = if groupMatch s x then some .operator else none) ∧
  (∀ d, twChannel s x false = none → exec (.twWriteTransfer x d) s = .next (twNotTaken s)) ∧
  (∀ n m, twChannel s x true = none → exec (.twReadTransfer x n m) s = .next (twNotTaken s)) ∧
  (∀ d, twChannel s x false = some c →
    (s.tw.held ≠ none → exec (.twWriteTransfer x d) s = .next s) ∧
    (s.tw.held = none → s.supply.resetHeld ≠ none ∨ s.supply.iohOn = false ∨ (2 < s.power.state ∧ wakeEnabled s 1 0 = false) →
      exec (.twWriteTransfer x d) s = .next (twNotTaken s)) ∧
    (s.tw.held = none → s.supply.resetHeld = none → s.supply.iohOn = true → 2 < s.power.state → wakeEnabled s 1 0 = true →
      exec (.twWriteTransfer x d) s = .next (twStretched c x (.write d) [] [] (settle (fireWake 1 s))))) ∧
  (∀ n m, twChannel s x true = some c →
    (s.tw.held ≠ none → exec (.twReadTransfer x n m) s = .next s) ∧
    (s.tw.held = none → s.supply.resetHeld ≠ none ∨ s.supply.iohOn = false ∨ (2 < s.power.state ∧ wakeEnabled s 1 0 = false) →
      exec (.twReadTransfer x n m) s = .next (twNotTaken s)) ∧
    (s.tw.held = none → s.supply.resetHeld = none → s.supply.iohOn = true → 2 < s.power.state → wakeEnabled s 1 0 = true →
      exec (.twReadTransfer x n m) s = .next (twStretched c x (.read n m) [] [] (settle (fireWake 1 s))))) ∧
  (s.tw.held = none → s.supply.resetHeld = none → s.supply.iohOn = true → s.power.state ≤ 2 →
    u = (if wakeEnabled s 1 0 then settle (fireWake 1 s) else s) →
    (twChannel s x false = some c →
      exec (.twWriteTransfer x []) s = .next (onTw (fun t => { t with inTransfer := false, sent := [], acks := [true] }) u) ∧
      (∀ p, exec (.twWriteTransfer x [p]) s = .next (twDone [] [true, true] (setTwPtr c p.toNat u))) ∧
      (∀ p v, p.toNat < 0x20 ∨ 0xE0 ≤ p.toNat → exec (.twWriteTransfer x [p, v]) s = .next (twDone [] [true, true, true]
        (setTwPtr c (p.toNat + 1) (frontWrite c p.toNat v (setTwPtr c p.toNat u))))) ∧
      (∀ p v, 0x20 ≤ p.toNat → p.toNat ≤ 0x7F → u.seq.running = true → (chan u c).discard = false → cmdLevel u c < 2048 →
        exec (.twWriteTransfer x [p, v]) s = .next (twDone [] [true, true, true]
          (setTwPtr c (p.toNat + 1) (pushByte c v (setTwPtr c p.toNat u))))) ∧
      (∀ p v, 0x20 ≤ p.toNat → p.toNat ≤ 0x7F → u.seq.running = true → ((chan u c).discard = true ∨ 2048 ≤ cmdLevel u c) →
        exec (.twWriteTransfer x [p, v]) s = .next (twDone [] [true, true, false]
          (bump P.sysTwFullNacks (pushByte c v (setTwPtr c p.toNat u))))) ∧
      (∀ p v, 0x20 ≤ p.toNat → p.toNat ≤ 0xDF → u.seq.running = false → u.seq.restarting = false →
        exec (.twWriteTransfer x [p, v]) s = .next (twDone [] [true, true, false]
          (twUnserved x 2 true (setTwPtr c p.toNat u)))) ∧
      (∀ p v l, 0x20 ≤ p.toNat → p.toNat ≤ 0xDF → u.seq.running = false → u.seq.restarting = true →
        exec (.twWriteTransfer x (p :: v :: l)) s = .next (twStretched c x (.put (v :: l)) [] [true, true] (setTwPtr c p.toNat u))) ∧
      (∀ p d, exec (.twWriteTransfer x (p :: d)) s = .next (twWrite c x d [true, true] (setTwPtr c p.toNat u)))) ∧
    (twChannel s x true = some c →
      (twPtr u c ≠ 0x18 → (twPtr u c < 0x20 ∨ 0xE0 ≤ twPtr u c ∧ twPtr u c ≤ 0xFF) → exec (.twReadTransfer x 1 none) s =
        .next (twDone [showByte c (twPtr u c) u] [true] (setTwPtr c (twPtr u c + 1) u))) ∧
      (twPtr u c = 0x18 → (let v := { u with front := { u.front with tbLatch := u.timebase } }
        exec (.twReadTransfer x 1 none) s = .next (twDone [showByte c 0x18 v] [true] (setTwPtr c 0x19 v)))) ∧
      (0x80 ≤ twPtr u c → twPtr u c ≤ 0xDF → u.seq.running = true → exec (.twReadTransfer x 1 none) s = .next
        (twDone [(readReply c u).1] [true] (setTwPtr c (twPtr u c + 1) (readReply c u).2))) ∧
      (u.seq.running = false → u.seq.restarting = false → 0x20 ≤ twPtr u c → twPtr u c ≤ 0xDF →
        exec (.twReadTransfer x 1 none) s = .next (twDone [0] [true] (twUnserved x 2 true u))) ∧
      (∀ n m, u.seq.running = false → u.seq.restarting = true → 0x20 ≤ twPtr u c → twPtr u c ≤ 0xDF →
        exec (.twReadTransfer x (n + 1) m) s = .next (twStretched c x (.get (n + 1) 0 m) [] [true] u)) ∧
      (∀ n m, exec (.twReadTransfer x n m) s = .next (twRead c x n 0 m false [] u))))

/-- The conditions of the two-wire port (14 R396, R398, R401, R402, R404), with AON out of reset and the bank up, else nothing
happens: the alert response is answered with the urgent or the primary address, and lost to a lower one; an error ends the
transfer, is counted and, while SEQ runs, reported; a held clock resets the bus interface and is counted and reported; an
address match in sleep starts the wake; a match or a byte that SEQ does not serve within 2 ms is counted and the transfer
given up. It rests also on the model's own choices: log entry 39. -/
def Obligations.TwoWireConditions : Prop := ∀ (s : State),
  (s.supply.resetHeld ≠ none ∨ s.supply.iohOn = false →
    (∀ o, s.tw.held = none → exec (.alertResponse o) s = .next (twNotTaken s)) ∧ (∀ k, exec (.twProtoError k) s = .next s) ∧
    (∀ a d, exec (.twWakeNack a d) s = .next s) ∧ (∀ a, exec (.twAddressMatchSleep a) s = .next s) ∧
    (∀ b, exec (.twSclTimeout b) s = .next s)) ∧
  (∀ o, s.tw.held ≠ none → exec (.alertResponse o) s = .next s) ∧
  (s.supply.resetHeld = none → s.supply.iohOn = true →
  (∀ o, s.tw.held = none → alertAsserted s = true → alertByte s &&& o = alertByte s → exec (.alertResponse o) s = .next
    (bump P.sysTwAlertAnswers { s with tw := { s.tw with answered := true, sent := [alertByte s], acks := [true] } })) ∧
  (∀ o, s.tw.held = none → alertAsserted s = true → alertByte s &&& o ≠ alertByte s → exec (.alertResponse o) s = .next
    (bump P.sysTwAlertLost { s with tw := { s.tw with sent := [alertByte s &&& o], acks := [true] } })) ∧
  (∀ o, s.tw.held = none → alertAsserted s = false → exec (.alertResponse o) s = .next (twNotTaken s)) ∧
  (∀ k, 1 ≤ k → k ≤ 3 → s.seq.running = true → exec (.twProtoError k) s = .next
    (queueCounted (0x0011 * 65536) sec1 0x0011 k (bump P.sysTwProtoErr { s with tw := { s.tw with inTransfer := false, held := none } }))) ∧
  (∀ k, 1 ≤ k → k ≤ 3 → s.seq.running = false → exec (.twProtoError k) s = .next
    (bump P.sysTwProtoErr { s with tw := { s.tw with inTransfer := false, held := none } })) ∧
  (∀ a d, s.tw.held = none → (twChannel s a false).isSome = true → s.seq.running = false →
    (d = 1 ∧ 2 < s.power.state ∨ d = 2 ∧ s.power.state ≤ 2) → exec (.twWakeNack a d) s = .next
    (queueWhenRunning 0x0012 a d (bump P.sysTwWakeNacks { s with tw := { s.tw with inTransfer := false } }))) ∧
  (∀ a d, s.tw.held ≠ none → elapsed s (s.tw.heldAt + usTicks 2000) = true → (twChannel s a false).isSome = true →
    s.seq.running = false → (d = 1 ∧ 2 < s.power.state ∨ d = 2 ∧ s.power.state ≤ 2) →
    exec (.twWakeNack a d) s = .next (twGivenUp s)) ∧
  (∀ a, (twChannel s a false).isSome = true → wakeEnabled s 1 0 = true → 2 < s.power.state →
    exec (.twAddressMatchSleep a) s = .next (settle (refreshOuts
      { s with
        tw := { s.tw with inTransfer := true, sent := [], acks := [] }
        power := { s.power with waking := true, wakeSources := Nat.lor s.power.wakeSources 2 }
        seq := { s.seq with waking := true }
        front := { s.front with wake := true, wakeReason := Nat.lor s.front.wakeReason 2 } }))) ∧
  (∀ b, exec (.twSclTimeout b) s = .next (queueWhenRunning 0x0010 0 (if b then 1 else 0) (bump P.sysTwSclTimeouts
    { s with tw := { s.tw with inTransfer := false, held := none } }))))

/-- Timeouts of a channel and of a command, and held replies (02 R42, R43, R47, R49, R53, 18 R469): what each instant does,
and that it does nothing where there is nothing for it; a class timeout pauses while the command stalls on a wake. It rests
also on the model's own choices: log entries 3 and 28. -/
def Obligations.ProtocolInstants : Prop := ∀ (c : Chan) (s : State),
  ((chan s c).asm ≠ [] → exec (.packetAssemblyTimeout c) s = .next (queueEvent 0x0003 (match c with | .operator => 0 | .custodian => 1) 1
    (bump P.sysPktDiscarded (onChan c (fun k => { k with asm := [] }) s)))) ∧
  ((chan s c).asm = [] → exec (.packetAssemblyTimeout c) s = .next s) ∧
  exec (.discardModeEnd c) s = .next (onChan c (fun k => { k with discard := false }) s) ∧
  ((∀ x xs, (chan s c).held = x :: xs → 4096 < replyLevel (chan s c) + x.bytes.length) →
    exec (.heldReplyEntersFifo c) s = .next (settle s)) ∧
  (∀ x xs, (chan s c).held = x :: xs → replyLevel (chan s c) + x.bytes.length ≤ 4096 →
    (∀ y ys, xs = y :: ys → 4096 < replyLevel (chan s c) + x.bytes.length + y.bytes.length) →
    exec (.heldReplyEntersFifo c) s = .next (settle (onChan c (fun k =>
      { k with replies := k.replies ++ [x.bytes], held := xs
               tags := match x.frees with | some t => k.tags &&& ~~~ tagBit t | none => k.tags }) s))) ∧
  (∀ t r, s.running.find? (fun q => q.hdr.ch == c && q.hdr.tag == t) = some r → (∀ d, r.wait ≠ .domainWake d) →
    exec (.cmdTimeout c t) s = .next (settle (queueEvent 0x0006 (cmdArg r.hdr r.op) r.cls (bump (timeoutCounter r.cls)
      (finish r .timeout [] (undone (progOf r.cmd) r (stopRunning r s))))))) ∧
  (∀ t, s.running.find? (fun q => q.hdr.ch == c && q.hdr.tag == t) = none →
    exec (.cmdTimeout c t) s = .next (settle s) ∧ exec (.replyDelayEnd c t) s = .next (settle s)) ∧
  (∀ t r d, s.running.find? (fun q => q.hdr.ch == c && q.hdr.tag == t) = some r → r.wait = .domainWake d →
    exec (.cmdTimeout c t) s = .next (settle s)) ∧
  (∀ t r, s.running.find? (fun q => q.hdr.ch == c && q.hdr.tag == t) = some r → r.wait = .delayStart →
    exec (.replyDelayEnd c t) s = .next (settle (runCmd (progOf r.cmd) r (paramsOf r.cmd) (stopRunning r s)))) ∧
  (∀ t r, s.running.find? (fun q => q.hdr.ch == c && q.hdr.tag == t) = some r → r.wait = .replyDelay →
    exec (.replyDelayEnd c t) s = .next (settle (complete (progOf r.cmd) r (stopRunning r s))))

/-- The sequencer's watchdog, its restart and the time alarm (02 R55, R59, R60, R526): the third expiry within 10 s is a WDOG
reset; an earlier one restarts SEQ: both channels are emptied and hold an ABORTED reply for every command that ran and every
held reply, every command is undone, the proposal is discarded and perturbations are disarmed. When SEQ runs again these
replies enter the FIFOs, and a two-wire transfer that was stretched goes on. The alarm fires once the timebase has reached it;
a timebase that is bridged reaches it at the resumption, or in sleep. It rests also on the model's own choices: log entries
35, 36 and 37. -/
def Obligations.SequencerInstants : Prop := ∀ (s : State),
  (s.seq.running = true → (s.seq.expiries.filter (fun t => now s < t + 1228800000)).length ≤ 1 →
    exec .seqWatchdogExpiry s = .next (seqRestarts { bump P.sysSeqRestarts s with seq := { s.seq with
      expiries := s.seq.expiries.filter (fun t => now s < t + 1228800000) ++ [now s] } })) ∧
  (s.seq.running = false → exec .seqWatchdogExpiry s = .next s) ∧
  (seqRestarts s = (
    let cleared (c : Chan) (k : Channel) : Channel :=
      { k with asm := [], discard := false, replies := [], partly := false, held := abortedReplies c s }
    let t := each s.running (fun r u => undone (progOf r.cmd) r u)
      { s with op := cleared .operator s.op, cu := cleared .custodian s.cu, running := [], waiting := [] }
    let t := each [1, 2, 3, 4, 5, 6, 7, 8, 9] (disarm 3) { t with prot := { t.prot with proposal := none } }
    { t with seq := { t.seq with running := false, waking := true, restarting := true, softBytes := 0 } })) ∧
  (s.running = [] → s.rattle.armed = [] → seqRestarts s =
    { s with
      op := { s.op with
        asm := [], discard := false, replies := [], partly := false
        held := s.op.held.filterMap (fun x => x.frees.map (abortedReply (fldAt x.bytes 0 1))) }
      cu := { s.cu with
        asm := [], discard := false, replies := [], partly := false
        held := s.cu.held.filterMap (fun x => x.frees.map (abortedReply (fldAt x.bytes 0 1))) }
      waiting := [], prot := { s.prot with proposal := none }
      seq := { s.seq with running := false, waking := true, restarting := true, softBytes := 0 } }) ∧
  (s.seq.running = true → 2 ≤ (s.seq.expiries.filter (fun t => now s < t + 1228800000)).length →
    ∃ t, exec .seqWatchdogExpiry s = .next t ∧ t.supply.wdogCause = 2 ∧ t.seq = Seq.reset ∧
      (s.supply.resetHeld = none → t.front.resetCause = 4 ∧ t.supply.resetHeld = none ∧ t.timebase = s.timebase)) ∧
  (s.seq.restarting = true → exec .seqRestarted s = .next (
    let refill (k : Channel) : Channel := admitHeld k.held.length k
    twResume (settle (queueWaited (queueEvent 0x0004 0 (s.op.held.length + s.cu.held.length)
      { s with
        op := refill s.op, cu := refill s.cu
        seq := { s.seq with running := true, waking := false, restarting := false }
        front := { s.front with readyRise := true } }))))) ∧
  (s.seq.restarting = false → exec .seqRestarted s = .next s) ∧
  (∀ x, s.seq.softReset = some x → exec .softResetTrigger s = .next (enterReset 3 s)) ∧
  (s.seq.softReset = none → exec .softResetTrigger s = .next s) ∧
  (∀ a, s.alarm = some a → a.time ≤ now s → a.action = 0 → s.clk.bridging = false → s.power.state ≤ 2 → exec .timeAlarm s =
    .next (settle (queueWhenRunning 0x0005 0 (a.time % 2 ^ 32) { s with alarm := none }))) ∧
  (∀ a, s.alarm = some a → a.action = 1 → 2 < s.power.state → (s.clk.bridging = true ∨ a.time ≤ now s) → exec .timeAlarm s =
    .next (settle (fireWake 3 { s with
      alarm := none, seq := { s.seq with atRun := (0x0005, 0, a.time % 2 ^ 32) :: s.seq.atRun } }))) ∧
  (s.power.state ≤ 2 → s.clk.bridging = true ∨ s.alarm = none ∨ (∃ a, s.alarm = some a ∧ now s < a.time) →
    exec .timeAlarm s = .next s)

/-- The resets (15 R421, R422, 19 R479, R480, R490), from a state in which none is held: what a PIN, a BOR and a POR reset
leave, the release, a ROM check that fails, a reserved boot mode, and the boot that ends with `READY` once its plan has no
knob left to raise. It rests also on the model's own choices: log entries 10, 20 and 74. -/
def Obligations.ResetKinds : Prop := ∀ (s : State), s.supply.resetHeld = none →
  (∃ t, exec .pinReset s = .next t ∧ t.supply.resetHeld = some 2 ∧ t.timebase = 0 ∧ t.alarm = none ∧ t.seq = Seq.reset ∧
    t.tw = Tw.reset ∧ t.power.on = 1 ∧ t.front.scratch = s.front.scratch ∧ t.front.intMask = s.front.intMask ∧
    t.clk.lfCrystal = s.clk.lfCrystal) ∧
  (∀ r, r = 1 ∨ r = 3 ∨ (r = 2 ∧ s.supply.rfArmed = true) → ∃ t, exec (.bor r) s = .next (parSet P.sysLastBorRail r t) ∧
    t.supply.resetHeld = some 1 ∧ t.timebase = 0 ∧ t.alarm = none ∧ t.front.scratch = 0 ∧ t.front.intMask = 0x0000000B ∧
    t.supply.rfArmed = false ∧ t.supply.brown = false ∧ t.power.on = 1) ∧
  (∀ r, r = 0 ∨ 3 < r ∨ (r = 2 ∧ s.supply.rfArmed = false) → exec (.bor r) s = .next s) ∧
  (∃ t, exec (.por 0) s = .next (parSet P.sysSupplyOrder 0 t) ∧ t.supply.resetHeld = some 0 ∧ t.timebase = 0 ∧
    t.alarm = none ∧ t.front.scratch = 0 ∧ t.power.on = 1) ∧
  (∀ o, o % 8 ≠ 0 → exec (.por o) s = .next (queueWhenRunning 0x0022 0 (o % 8) (parSet P.sysSupplyOrder (o % 8) (enterReset 0 s)))) ∧
  (∀ k b a, exec (.resetRelease b a) { s with supply := { s.supply with resetHeld := some k }, clk := { s.clk with xtalHeld := false } } = .next
    { s with
      clk := { s.clk with xtalHeld := false }
      front := { s.front with bootMode := b % 4, addrPins := a % 4, resetCause := k }
      supply := { s.supply with resetHeld := none } }) ∧
  (∀ k b a, exec (.resetRelease b a) { s with supply := { s.supply with resetHeld := some k }, clk := { s.clk with xtalHeld := true } } = .next
    { s with supply := { s.supply with resetHeld := some k }, clk := { s.clk with xtalHeld := true } }) ∧
  (∀ b a, exec (.resetRelease b a) s = .next s) ∧
  (∀ ok l, s.supply.booting = false ∨ s.clk.pllLocked = false ∨ s.front.romFail = true → exec (.bootReady ok l) s = .next s) ∧
  (∀ l, s.supply.booting = true → s.clk.pllLocked = true → s.front.romFail = false → s.age.plan = none → 2 ≤ s.front.bootMode →
    ∃ t, exec (.bootReady true l) s = .next t ∧ t.front.romFail = false ∧ t.seq = s.seq) ∧
  (∀ l, s.supply.booting = true → s.clk.pllLocked = true → s.front.romFail = false → s.age.plan = none →
    ∃ t, exec (.bootReady false l) s = .next t ∧ t.front.romFail = true ∧ t.seq = s.seq) ∧
  (∀ l p, s.supply.booting = true → s.clk.pllLocked = true → s.front.romFail = false → s.age.plan = none → s.front.bootMode ≤ 1 →
    (let u := startPlan 1 (bootCount l { (draw s).2 with
        front := { s.front with otpValid := Config.otpCheckOk s.free, romFail := false } })
     u.age.plan = some p → biasNow u = p.biasTo → vselNow u = p.vselTo →
     exec (.bootReady true l) s = .next (settle (riseReady (endPlan p u)))))

/-- The entry to a power state (15 R411 to R413): the acknowledgement of the domain asked, once its action is done, switches
it off, and the next is asked; the last completes the entry; a wake source that has fired abandons the entry at its abort
point, the next domain or SEQ; a domain that cannot answer in time, or refuses, is rolled back. With no entry, from another
domain or before the action is done nothing happens. It rests also on the model's own choices: log entry 71. -/
def Obligations.PowerEntry : Prop := ∀ (s : State) (d : Nat),
  (s.power.entry = none → exec (.domainEntryAck d) s = .next s ∧ exec (.powerHandshakeTimeout d) s = .next s ∧
    exec .entryAborted s = .next s) ∧
  (∀ e, s.power.entry = some e →
    (let u (l : List Nat) := { stopDomain d s with power := { (stopDomain d s).power with
        entry := some { (stopDomain d s).power.entry.getD e with ask := l, askedAt := now (stopDomain d s), stopped := d :: e.stopped } } }
     let f := (stopDomain d s).power.entry.getD e
     (e.ask.head? = some d → entryDone d s = true → nextAsked (e.ask.drop 1) (stopDomain d s) = [] →
       exec (.domainEntryAck d) s = .next (settle (entryComplete f.target (u [])))) ∧
     (∀ n l, e.ask.head? = some d → entryDone d s = true → nextAsked (e.ask.drop 1) (stopDomain d s) = n :: l →
       (f.abort = true → exec (.domainEntryAck d) s = .next (settle (abandonEntry (u (n :: l))))) ∧
       (f.abort = false → refusalOf (u (n :: l)) n = 0 → exec (.domainEntryAck d) s = .next (settle (askDomain n (u (n :: l))))) ∧
       (f.abort = false → refusalOf (u (n :: l)) n ≠ 0 →
         exec (.domainEntryAck d) s = .next (settle (refuseEntry n (refusalOf (u (n :: l)) n) (u (n :: l))))))) ∧
    (e.ask.head? ≠ some d ∨ entryDone d s = false → exec (.domainEntryAck d) s = .next s) ∧
    (e.ask.head? ≠ some d ∨ elapsed s (e.askedAt + msTicks (delayMs d)) = false →
      exec (.powerHandshakeTimeout d) s = .next s) ∧
    (e.ask.head? = some d → elapsed s (e.askedAt + msTicks (delayMs d)) = true →
      exec (.powerHandshakeTimeout d) s = .next (settle (refuseEntry d 2 s))) ∧
    (e.abort = true → exec .entryAborted s = .next (settle (failWaiting .powerEntry .aborted (bump P.pwrWakeAborts (rollback s))))) ∧
    (e.abort = false → exec .entryAborted s = .next s))

/-- Idle gating, wakes on demand, wake sources and the wake from sleep (15 R408, R409, R413, R417 to R419): what each does,
for a command that stalls on the domain and for none; a wake that exceeds its longest time ends the commands that stall on it
with HW_FAULT; a source that is not enabled, or none, does nothing. It rests also on the model's own choices: log entries 3,
19 and 72. -/
def Obligations.PowerInstants : Prop := ∀ (s : State),
  (∀ d, mayGate s d = true → 2 * parGet s P.pwrIdleDelay ≤ smGet 0 s.power.idle d → s.power.entry = none →
    exec (.idleGate d) s = .next { stopDomain d s with
      power := { (stopDomain d s).power with idle := smErase (stopDomain d s).power.idle d } }) ∧
  (∀ d, mayGate s d = false ∨ smGet 0 s.power.idle d < 2 * parGet s P.pwrIdleDelay ∨
      (∃ e, s.power.entry = some e ∧ e.ask.contains d = true) → exec (.idleGate d) s = .next s) ∧
  (∀ d us, s.power.coming.contains d = true → domAllowed s.power.state d = true → (∀ r ∈ s.running, ∀ e, r.wait ≠ .domainWake e) →
    exec (.domainWakeDone d us) s = .next (settle (planResume (resumeStalled (startDomain d s))))) ∧
  (∀ d us r, s.power.coming.contains d = true → domAllowed s.power.state d = true → r ∈ s.running →
    (∃ e, r.wait = .domainWake e) → ((progOf r.cmd).needs s).contains d = true →
    exec (.domainWakeDone d us) s = .next (settle (planResume (resumeStalled (parSet P.pwrWakeStallMax
      (max (parGet (startDomain d s) P.pwrWakeStallMax) (min us 65535)) (startDomain d s)))))) ∧
  (∀ d, s.power.coming.contains d = true → elapsed s (smGet 0 s.power.comingAt d + usTicks (wakeUs d)) = true →
    (let v := { s with power := { s.power with
       coming := s.power.coming.filter (fun e => e != d), comingAt := smErase s.power.comingAt d } }
     let stalled := s.running.filter (fun r => match r.wait with | .domainWake _ => ((progOf r.cmd).needs v).contains d | _ => false)
     let u := bump P.pwrWakeTimeouts v
     (stalled = [] → exec (.domainWakeFault d) s = .next (settle (queueEvent 0x9004 d 0 u))) ∧
     (stalled ≠ [] → exec (.domainWakeFault d) s = .next (settle (each stalled
       (fun r t => endCmd .hwFault [] r (queueEvent 0x9004 d (cmdArg r.hdr r.op) t)) u))))) ∧
  (∀ d, s.power.coming.contains d = false → exec (.domainWakeFault d) s = .next s) ∧
  (∀ d us, s.power.coming.contains d = false ∨ domAllowed s.power.state d = false → exec (.domainWakeDone d us) s = .next s) ∧
  (∀ n p, n ≤ 2 → wakeEnabled s n p = true → 2 < s.power.state → exec (.wakeSourceFire n p) s = .next (settle (refreshOuts
    { s with
      power := { s.power with waking := true, wakeSources := Nat.lor s.power.wakeSources (2 ^ n) }
      seq := { s.seq with waking := true }
      front := { s.front with wake := true, wakeReason := Nat.lor s.front.wakeReason (2 ^ n) } }))) ∧
  (∀ n p e, n ≤ 2 → wakeEnabled s n p = true → s.power.state ≤ 2 → s.power.entry = some e → 2 < e.target →
    (e.ask.head? = some Dom.seq → exec (.wakeSourceFire n p) s = .next (settle (abandonEntry s))) ∧
    (e.ask.head? ≠ some Dom.seq → exec (.wakeSourceFire n p) s = .next (settle
      { s with power := { s.power with entry := some { e with abort := true } } }))) ∧
  (∀ n p, wakeEnabled s n p = false → exec (.wakeSourceFire n p) s = .next s) ∧
  (∀ n p, s.supply.iohOn = false → n ≤ 2 → wakeEnabled s n p = false) ∧
  (∀ lf us, 2 < s.power.state → s.power.waking = true → s.clk.pllLocked = true → exec (.woke lf us) s = .next (
    let u := wakeParams lf us s
    twResume (settle (planDue 4 (wakeBrown (queueWaited (queueEvent 0x9003 u.front.wakeReason (lf % 2 ^ 32)
      { u with
        front := { u.front with resetCause := if s.power.state = 3 then 5 else 6, wake := true, readyRise := true }
        power := { u.power with state := 0, waking := false, wakeSources := 0, on := 0x807 }
        seq := { u.seq with running := true, waking := false } })))))))  ∧
  (∀ lf us, s.power.state ≤ 2 ∨ s.power.waking = false ∨ s.clk.pllLocked = false → exec (.woke lf us) s = .next s)

/-- Supply monitoring and brown hold (19 R475, R481 to R485, R492): a rail that falls below its warning threshold is counted,
alerted, reported and begins brown hold or joins it, VDDA_RF once armed and with RF_CALIBRATE stopped at once; the end of
brown hold, 1 ms after every rail is above its threshold, is reported and defers plans for 1 ms more; the presence of a rail
and of a bank. It rests also on the model's own choices: log entries 3, 22 and 73. -/
def Obligations.SupplyInstants : Prop := ∀ (s : State),
  (exec .rfMonitorArmed s = .next (if s.supply.up.getLsbD 5 then { s with supply := { s.supply with rfArmed := true } } else s)) ∧
  (∀ r, r ≤ 2 → (r = 1 → s.supply.rfArmed = true) → s.supply.resetHeld = none → s.power.state ≤ 2 → s.supply.brown = false →
    (let u := queueCounted (0x0020 * 65536 + r) 1228800 0x0020 r (brownBegins
       (raiseAlert (fun f => { f with alertBrown := true }) (bump (warnCounter r) { s with supply := { s.supply with
         low := s.supply.low ||| BitVec.ofNat 3 (2 ^ r)
         lowAt := if s.supply.low = 0 then now s else max s.supply.lowAt (now s) } })))
     exec (.brownWarn r) s = .next (settle (if r = 1 then stopCalibrate u else u)))) ∧
  (∀ r, (r = 0 ∨ r = 2) → s.supply.resetHeld = none → s.power.state ≤ 2 → s.supply.brown = true →
    ∃ u, exec (.brownWarn r) s = .next (settle (queueCounted (0x0020 * 65536 + r) 1228800 0x0020 r u)) ∧
      u.supply.low = s.supply.low ||| BitVec.ofNat 3 (2 ^ r) ∧ u.supply.entered = s.supply.entered ||| BitVec.ofNat 3 (2 ^ r) ∧
      u.supply.brown = true ∧ u.tx = s.tx ∧ u.carriers = s.carriers ∧ u.cl = s.cl) ∧
  (s.supply.resetHeld = none → 2 < s.power.state → exec (.brownWarn 2) s = .next (settle
    (raiseAlert (fun f => { f with alertBrown := true }) (bump P.sysBrownWarnAon { s with supply := { s.supply with
      low := s.supply.low ||| 4, lowAt := if s.supply.low = 0 then now s else max s.supply.lowAt (now s) } })))) ∧
  (∀ r, 2 < r ∨ (r = 1 ∧ s.supply.rfArmed = false) ∨ s.supply.resetHeld ≠ none ∨ (2 < s.power.state ∧ r ≠ 2) →
    exec (.brownWarn r) s = .next (settle s)) ∧
  (∀ us, s.supply.brown = true → elapsed s (s.supply.lowAt + msTicks 1) = true →
    exec (.brownHoldEnd us) s = .next (settle (planResume (queueWhenRunning 0x0021
      s.supply.entered.toNat (us % 2 ^ 32) (parSet P.sysBrownHoldMax (max (parGet s P.sysBrownHoldMax) (min us 4294967295))
        { s with supply := { s.supply with low := 0, lowAt := now s, entered := 0, brown := false, deferral := true } }))))) ∧
  (∀ us, s.supply.brown = false → elapsed s (s.supply.lowAt + msTicks 1) = true →
    exec (.brownHoldEnd us) s = .next { s with supply := { s.supply with low := 0 } }) ∧
  (∀ us, elapsed s (s.supply.lowAt + msTicks 1) = false → exec (.brownHoldEnd us) s = .next s ∧
    exec .postBrownHoldDeferralEnd s = .next s) ∧
  (s.supply.deferral = true → elapsed s (s.supply.lowAt + msTicks 1) = true → exec .postBrownHoldDeferralEnd s = .next (
    let u := startDue { s with supply := { s.supply with deferral := false } }
    settle (if u.clk.calDeferred then tempCal u else u))) ∧
  (s.supply.deferral = false → exec .postBrownHoldDeferralEnd s = .next s) ∧
  (∀ r b o mv, 3 ≤ r → r ≤ 9 → exec (.railPresenceChange r b o mv) s = .next { s with supply := { s.supply with
    up := if b then s.supply.up ||| BitVec.ofNat 10 (2 ^ r) else s.supply.up &&& ~~~ BitVec.ofNat 10 (2 ^ r)
    present := if o then s.supply.present &&& ~~~ BitVec.ofNat 10 (2 ^ r) else s.supply.present ||| BitVec.ofNat 10 (2 ^ r) } }) ∧
  (∀ b mv, exec (.railPresenceChange 1 b true mv) s = .next { s with supply := { s.supply with
    up := if b then s.supply.up ||| 2 else s.supply.up &&& ~~~ 2
    present := s.supply.present &&& ~~~ 2, iohOn := false, ioh33 := false } }) ∧
  (∀ mv, s.supply.up.getLsbD 0 = true → s.supply.ioaOn = false → exec (.railPresenceChange 2 true false mv) s = .next
    { s with supply := { s.supply with
      up := s.supply.up ||| 4, present := s.supply.present ||| 4, ioaOn := true, ioa33 := decide (2500 < mv) } })

/-- Crystals, the low-frequency source and the main PLL (04 R92 to R98): qualification; a failure holds every domain but AON
in a WDOG reset with the timebase frozen, and a failure in that hold is counted; the release reports the cycles counted; the
low-frequency source changes; a lock check of the PLL bridges the time that was lost and counts the misses of the gap while
CKG restarts; a lock loss brings all synthesisers down. Where none of this applies nothing happens. LOCK_FAIL may overrule a
check. It rests also on the model's own choices: log entries 3 and 43. -/
def Obligations.ClockInstants : Prop := ∀ (s : State),
  ((s.supply.resetHeld = none ∨ s.clk.xtalHeld = true) → (s.power.state ≠ 4 ∨ s.power.waking = true) → exec .xtalQualified s =
    .next (refreshOuts { s with clk := { s.clk with xtalQual := true, xtalMeant := true } })) ∧
  ((s.supply.resetHeld ≠ none ∧ s.clk.xtalHeld = false) ∨ (s.power.state = 4 ∧ s.power.waking = false) →
    exec .xtalQualified s = .next s) ∧
  (s.clk.xtalMeant = true → s.clk.xtalHeld = false → s.supply.resetHeld = none → ∃ t, exec .xtalFail s = .next t ∧ t.timebase = s.timebase ∧
    t.supply.resetHeld = some 4 ∧ t.supply.wdogCause = 1 ∧ t.clk.xtalQual = false ∧ t.clk.xtalHeld = true ∧ t.clk.bridging = true ∧
    t.clk.pllLocked = false ∧ t.clk.lfCrystal = s.clk.lfCrystal ∧ t.power.on = 1 ∧ t.seq = Seq.reset) ∧
  (s.clk.xtalMeant = true → s.clk.xtalHeld = true → s.clk.xtalQual = true → exec .xtalFail s = .next
    { bump P.clkXtalFails s with clk := { s.clk with xtalQual := false } }) ∧
  (s.clk.xtalMeant = false ∨ (s.clk.xtalHeld = true ∧ s.clk.xtalQual = false) ∨ (s.clk.xtalHeld = false ∧ s.supply.resetHeld ≠ none) →
    exec .xtalFail s = .next s) ∧
  (∀ lf b a, s.clk.xtalHeld = true → s.clk.xtalQual = true → exec (.xtalFailRelease lf b a) s = .next (queueWhenRunning 0x1008 0 lf
    { s with
      clk := { s.clk with xtalHeld := false }
      front := { s.front with bootMode := b % 4, addrPins := a % 4, resetCause := 4 }
      power := { s.power with on := 0x805 }
      supply := { s.supply with resetHeld := none } })) ∧
  (∀ lf b a, s.clk.xtalHeld = false ∨ s.clk.xtalQual = false → exec (.xtalFailRelease lf b a) s = .next s) ∧
  exec .lfCrystalTakeover s = .next { s with clk := { s.clk with lfCrystal := true } } ∧
  (s.clk.lfCrystal = true → exec .lfSourceChange s = .next (queueWhenRunning 0x100A 1 0
    { s with clk := { s.clk with lfCrystal := false } })) ∧
  (s.clk.lfCrystal = false → exec .lfSourceChange s = .next s) ∧
  (∀ c lf, s.clk.xtalQual = true → s.clk.pllLocked = false → s.supply.resetHeld = none → s.power.state ≤ 2 ∨ s.power.waking = true →
    (let v := (lockVerdict 0 false c s).2
     let u := refreshOuts (bridge lf { v with clk := { v.clk with pllLocked := true } })
     ((lockVerdict 0 false c s).1 = true → exec (.mainPllLockCheck c lf) s = .next
       (if restarting u Dom.ckg && decide (period v < period u) then gapMisses u else u)) ∧
     ((lockVerdict 0 false c s).1 = false → exec (.mainPllLockCheck c lf) s = .next v))) ∧
  (∀ c, s.rattle.armed = [] → lockVerdict 0 false c s = (c, s)) ∧
  (∀ lf, s.clk.bridging = true → bridge lf s =
    { s with clk := { s.clk with bridging := false }, timebase := s.timebase + BitVec.ofNat 64 (3750 * lf) }) ∧
  (∀ c lf, s.clk.xtalQual = false ∨ s.clk.pllLocked = true ∨ s.supply.resetHeld ≠ none ∨ (2 < s.power.state ∧ s.power.waking = false) →
    exec (.mainPllLockCheck c lf) s = .next s) ∧
  (s.clk.pllLocked = true → exec .mainPllLockLost s = .next (settle (refreshOuts (lockFault 0 0 true (restartDomain Dom.ckg 3
    (pllDown s)))))) ∧
  (s.clk.pllLocked = false → exec .mainPllLockLost s = .next (settle s))

/-- The reference and cascade synchronisation (04 R99 to R103, R115 to R118): the states of the reference loop, with its
correction in half units of 0.001 ppm, which moves by five half units at most at a boundary, and at a loss to the average of
the last second; a sync instant loads the timebase, the primary's on its own boundary, and a follower repeats its edge; a
monitor edge records its error and reports a slip of more than four ticks. Each event does nothing where its state is another.
It rests also on the model's own choices: log entries 3 and 31. -/
def Obligations.ReferenceInstants : Prop := ∀ (s : State),
  (refMode s ≠ 0 → s.clk.refState ≠ 2 → s.clk.refState ≠ 3 → exec .refQualified s =
    .next { s with clk := { s.clk with refState := 2 } }) ∧
  (refMode s = 0 ∨ s.clk.refState = 2 ∨ s.clk.refState = 3 → exec .refQualified s = .next s) ∧
  (∀ c, s.clk.refState = 2 → (let u := { s with clk := { s.clk with refState := 3, refCorr := slewTo 5 (2 * c) s.clk.refCorr } }
    exec (.refLocked c) s = .next (queueEvent 0x1003 (refMode s) (uint 32 (refOffset u)) u))) ∧
  (∀ c, s.clk.refState ≠ 2 → exec (.refLocked c) s = .next s) ∧
  (∀ k c, s.clk.refState = 2 ∨ s.clk.refState = 3 → exec (.refLost k c) s = .next
    (queueEvent 0x1002 (refMode s) k (bump P.clkRefLosses
      { s with clk := { s.clk with refState := 4, refCorr := slewTo 5000 (2 * c) s.clk.refCorr } }))) ∧
  (∀ k c, s.clk.refState ≠ 2 → s.clk.refState ≠ 3 → exec (.refLost k c) s = .next s) ∧
  (∀ n g c, 0 ≤ n → -200000 ≤ c → c ≤ 200000 → |slewTo n g c - c| ≤ n ∧ -200000 ≤ slewTo n g c ∧ slewTo n g c ≤ 200000 ∧
    (|g - c| ≤ n → -200000 ≤ g → g ≤ 200000 → slewTo n g c = g)) ∧
  (s.clk.refState = 4 → exec .holdoverEnd s = .next (queueEvent 0x1004 (refMode s) (uint 32 (refOffset s))
    (bump P.clkHoldoverEnds { s with clk := { s.clk with refState := 5 } }))) ∧
  (s.clk.refState ≠ 4 → exec .holdoverEnd s = .next s) ∧
  (s.clk.refState = 5 → s.clk.refCorr = 0 → exec .returnToCrystalDone s = .next { s with clk := { s.clk with refState := 0 } }) ∧
  (s.clk.refState ≠ 5 ∨ s.clk.refCorr ≠ 0 → exec .returnToCrystalDone s = .next s) ∧
  (let p := parGet s P.clkSyncPeriodLo + 2 ^ 32 * parGet s P.clkSyncPeriodHi
   let u := each [1, 2] (fun id t => if loInUse id t then t else onSynth id (fun y => { y with acc := some (p * 61440) }) t)
     { s with timebase := BitVec.ofNat 64 (p * 61440), clk := { s.clk with synced := true, divPhase := p * 61440 } }
   (parGet s P.clkSyncArm = 1 → parGet s P.clkSyncRole = 1 → s.clk.pllLocked = true → now s = p * 61440 →
     exec .syncInstant s = .next (queueEvent 0x1005 1 (p % 2 ^ 32) (parSet P.clkSyncArm 0 u))) ∧
   (parGet s P.clkSyncArm = 1 → parGet s P.clkSyncRole = 2 → s.clk.pllLocked = true →
     exec .syncInstant s = .next (queueEvent 0x1005 2 (p % 2 ^ 32) (parSet P.clkSyncArm 0 (followerEdge (p * 1966080 : Nat) u)))) ∧
   (parGet s P.clkSyncArm ≠ 1 ∨ parGet s P.clkSyncRole = 0 ∨ s.clk.pllLocked = false ∨
     (parGet s P.clkSyncRole = 1 ∧ now s ≠ p * 61440) → exec .syncInstant s = .next s)) ∧
  (∀ e, parGet s P.clkSyncArm = 2 → parGet s P.clkSyncRole = 2 →
    (let u := followerEdge (((now s + 30720) / 61440 * 1966080 : Nat) + e) s
     (-4 ≤ e → e ≤ 4 → exec (.syncMonitorEdge e) s = .next (parSet P.clkSyncError (uint 16 e) u)) ∧
     (e < -4 ∨ 4 < e → exec (.syncMonitorEdge e) s = .next (queueEvent 0x1006 0 (uint 32 e) (bump P.clkSyncSlips
       (parSet P.clkSyncError (uint 16 (clampI (-32768) 32767 e)) u)))))) ∧
  (∀ e, parGet s P.clkSyncArm ≠ 2 ∨ parGet s P.clkSyncRole ≠ 2 → exec (.syncMonitorEdge e) s = .next s)

/-- Synthesiser locks, calibrations and the die temperature (04 R106 to R112, 05 R138, 08 R227, R229): a confirmed check locks
and lets the requests that wait go on; the first failed check leaves the output muted and ends the requests, the second begins
the search again and ends an RF_CALIBRATE; a loss relocks and cuts the transmitter of that synthesiser; a calibration is
followed by a lock, or by none where there is no frequency or domain for it; a sample 8 degrees from the last calibration
calibrates, and waits while brown hold lasts. LOCK_FAIL may overrule a check. It rests also on the model's own choices: log
entries 44 and 45. -/
def Obligations.SynthInstants : Prop := ∀ (s : State),
  (∀ id c b, synthAble id s = true → (synth s id).phase = .searching → (let v := (lockVerdict id false c s).2
    ((lockVerdict id false c s).1 = true → exec (.synthLockCheck id c b) s = .next (settle (lockDeclared id b v))) ∧
    ((lockVerdict id false c s).1 = false → exec (.synthLockCheck id c b) s = .next (settle (
      let w := waitingFor (.lock id) v ++ clLockWaits id v
      queueEvent 0x1009 id w.length (bump P.clkLockRetries (each w (endCmd .synthNotLocked [])
        (onSynth id (fun y => { y with phase := .retrying, band := b % 64 }) v)))))))) ∧
  (∀ id c b, synthAble id s = true → (synth s id).phase = .retrying → (let v := (lockVerdict id true c s).2
    ((lockVerdict id true c s).1 = true → exec (.synthLockCheck id c b) s = .next (settle (lockDeclared id b v))) ∧
    ((lockVerdict id true c s).1 = false → exec (.synthLockCheck id c b) s = .next (settle (
      let w := waitingFor (.lock id) v ++ clLockWaits id v
      let t := each w (endCmd .synthNotLocked []) (lockFault id b false
        (startLock id (synth v id).freq (onSynth id (fun y => { y with band := b % 64 }) v)))
      if (synth v id).inCal then failWaiting .calibrate .hwFault t else t))))) ∧
  (∀ id second c, s.rattle.armed = [] → lockVerdict id second c s = (c, s)) ∧
  (∀ id c b, synthAble id s = false ∨ ((synth s id).phase ≠ .searching ∧ (synth s id).phase ≠ .retrying) →
    exec (.synthLockCheck id c b) s = .next s) ∧
  (∀ b, locked s 2 = true → exec (.synthLockLost 2 b) s = .next (settle (txFaultCut 4 (lockFault 2 b true (researchSynth 2 s))))) ∧
  (∀ b, locked s 3 = true → exec (.synthLockLost 3 b) s = .next (settle (clFaultCut 3 (lockFault 3 b true (researchSynth 3 s))))) ∧
  (∀ b, locked s 1 = true → exec (.synthLockLost 1 b) s = .next (settle (lockFault 1 b true (researchSynth 1 s)))) ∧
  (∀ id b, locked s id = false ∨ id = 0 ∨ 3 < id → exec (.synthLockLost id b) s = .next (settle s)) ∧
  (∀ id, 1 ≤ id → id ≤ 3 → (synth s id).phase = .calibrating →
    (let u := onSynth id (fun y => { y with calDue := false, phase := .off }) s
     ((synth s id).freq ≠ 0 → domOn u (synthDomain id) = true → exec (.fullSynthCalibrationDone id) s =
       .next (startLock id (synth s id).freq u)) ∧
     ((synth s id).freq = 0 ∨ domOn u (synthDomain id) = false → exec (.fullSynthCalibrationDone id) s = .next (settle (
       let v := if (waitingFor (.lock id) u).isEmpty then u else relockWindow id u
       if (synth s id).inCal then synthPart id v else v))))) ∧
  (∀ id, id = 0 ∨ 3 < id ∨ (synth s id).phase ≠ .calibrating → exec (.fullSynthCalibrationDone id) s = .next s) ∧
  (s.tx.qcal = true → exec .txQuadratureCalibrationDone s = .next (settle (calPart 2 (doneWaiting .qcal
    { s with tx := { s.tx with qcal := false } })))) ∧
  (s.tx.qcal = false → exec .txQuadratureCalibrationDone s = .next s) ∧
  (∀ t, s.seq.running = false → exec (.tempSample t) s = .next { s with clk := { s.clk with dieTemp := t } }) ∧
  (∀ t, s.seq.running = true →
    (let u := staleTx t (stalePriv t (each [1, 2, 3] (fun id v => if locked v id then onSynth id (fun y => { y with trim := false }) v else v)
       (onClk (fun k => { k with dieTemp := t, calRef := some (k.calRef.getD t) }) s)))
     (|t - s.clk.calRef.getD t| < 80 ∨ s.clk.calDeferred = true → exec (.tempSample t) s = .next u) ∧
     (80 ≤ |t - s.clk.calRef.getD t| → s.clk.calDeferred = false → exec (.tempSample t) s = .next
       (if s.supply.brown then { u with clk := { u.clk with calDeferred := true } } else tempCal u))))

/-- Image calibration, the privileged calibration and the scan (04 R113, R114, 05 R133 to R147): fast mode ends in normal mode
once its time is over; an alarm is raised once, when the estimate has been low for 1 s; a tone of two periods makes the record
measured valid at the die temperature, and the lanes take its path; a dwell's measurements join the pass and the staircase
goes on, a linear sweep stays; a pass joins the plan, and the last one ends the scan. Before its time, and where there is
nothing for it, each does nothing. It rests also on the model's own choices: log entries 3, 47 and 48. -/
def Obligations.RfInstants : Prop := ∀ (s : State),
  (s.rf.imageCal = 1 → s.rf.fastUntil ≤ now s →
    exec .imageCalFastEnd s = .next (settle (imagePart { s with rf := { s.rf with imageCal := 2 } }))) ∧
  (s.rf.imageCal ≠ 1 ∨ now s < s.rf.fastUntil → exec .imageCalFastEnd s = .next s) ∧
  (∀ i, i < 55 → s.rf.imageCal ≠ 1 → 2000 ≤ s.rf.a.below → s.rf.a.irrAlarmed = false → exec (.imageCalAlarm 0 i) s = .next
    (queueEvent 0x2002 0 i { s with rf := { s.rf with a := { s.rf.a with irr := i, irrAlarmed := true } } })) ∧
  (∀ i, i < 55 → s.rf.imageCal ≠ 1 → 2000 ≤ s.rf.b.below → s.rf.b.irrAlarmed = false → exec (.imageCalAlarm 1 i) s = .next
    (queueEvent 0x2002 1 i { s with rf := { s.rf with b := { s.rf.b with irr := i, irrAlarmed := true } } })) ∧
  (∀ a i, 1 < a ∨ 55 ≤ i ∨ s.rf.imageCal = 1 ∨ (chain a s).below < 2000 ∨ (chain a s).irrAlarmed = true →
    exec (.imageCalAlarm a i) s = .next s) ∧
  (∀ n i a b c d t, privOf s n = some i → measured s = some n → s.rf.toneAt = some t → t + 122880 ≤ now s →
    (let u := onLink n (pathFrom true (now s)) (withTone (onPriv i (fun r => { r with
        valid := true, stale := false, measuring := false, temp := s.clk.dieTemp, freq := (link s n).freq
        aRe := clampI (-32768) 32767 a, aIm := clampI (-32768) 32767 b, bRe := clampI (-32768) 32767 c
        bIm := clampI (-32768) 32767 d })) s)
     let v := if calWants 1 u && (waitingFor (.privCal n) u).isEmpty then queueEvent 0x2004 n i u else u
     exec (.privCalDone n a b c d) s = .next (settle (imagePart (doneWaiting (.privCal n) v))))) ∧
  (∀ n a b c d, privOf s n = none ∨ measured s ≠ some n ∨ (∀ t, s.rf.toneAt = some t → now s < t + 122880) →
    exec (.privCalDone n a b c d) s = .next s) ∧
  (∀ sc m, s.rf.scan = some sc → locked s 1 = true → parGet s P.clkRampProfile ≠ 1 → sc.f ≤ sc.stop →
    sc.began + usTicks (parGet s P.clkRampDwell) ≤ now s →
    (let u := { s with free := s.free + 1, rf := { s.rf with scan := some { measureDwell m sc s with
        f := sc.f + 16 * sc.step, began := now s, loFree := loFree s } } }
     (sc.stop < sc.f + 16 * sc.step → exec (.scanDwellEnd m) s = .next u) ∧
     (sc.f + 16 * sc.step ≤ sc.stop → exec (.scanDwellEnd m) s = .next (moveLo u)))) ∧
  (∀ sc m, s.rf.scan = some sc → locked s 1 = true → parGet s P.clkRampProfile = 1 → exec (.scanDwellEnd m) s = .next
    { s with free := s.free + 1, rf := { s.rf with scan := some (measureDwell m sc s) } }) ∧
  (∀ m, s.rf.scan = none ∨ locked s 1 = false → exec (.scanDwellEnd m) s = .next s) ∧
  (∀ sc m, s.rf.scan = some sc → parGet s P.clkRampProfile ≠ 1 → sc.stop < sc.f ∨ now s < sc.began + usTicks (parGet s P.clkRampDwell) →
    exec (.scanDwellEnd m) s = .next s) ∧
  (∀ sc, s.rf.scan = some sc →
    (if parGet s P.clkRampProfile = 1 then travelled sc s (sc.stop - sc.start) = true else sc.stop < sc.f) →
    (let total := sc.pass.foldl joinPass sc.total
     let t := each (sc.pass.map Prod.fst) (writeBin total) s
     let u := { t with free := t.free + 1 }
     let v := parSet P.rfrScanPasses (min 255 (sc.done + 1)) { u with rf := { u.rf with scan := some { sc with
       done := sc.done + 1, f := sc.start, began := now u, loFree := loFree u, seen := [], pass := [], total := total } } }
     (sc.passes = sc.done + 1 → exec .scanPassEnd s = .next (settle (endScan v))) ∧
     (sc.passes ≠ sc.done + 1 → exec .scanPassEnd s = .next (settle (moveLo v))))) ∧
  (∀ sc, s.rf.scan = some sc →
    (if parGet s P.clkRampProfile = 1 then travelled sc s (sc.stop - sc.start) = false else sc.f ≤ sc.stop) →
    exec .scanPassEnd s = .next s) ∧
  (s.rf.scan = none → exec .scanPassEnd s = .next s)

/-- Detections of a lane (07 R196 to R203): a detector fires at its threshold; SEARCH takes a candidate; a preamble candidate
goes on to VERIFY at its own sync word, within 2 kHz, one lane sample and 24 symbols; WATCH takes one at the capture level, or
the lock refuses it and counts; a preamble without its sync word is a false start. A lane that does not work, a level or
correlation too low, a detection that the other tracker holds or a bar covers, and a tracker that is busy change nothing. It
rests also on the model's own choices: log entries 51, 52 and 53. -/
def Obligations.LinkDetections : Prop := ∀ (n k start : Nat) (a b : Window) (s : State),
  (laneRuns s n = false ∨ 1 < k → exec (.preambleDetected n k start a b) s = .next s ∧
    ∀ i, exec (.syncWordDetected n k start i (a, b)) s = .next s) ∧
  (preambleFires (link s n).range a b = none ∨ preambleLevel (max a.power b.power) = false →
    exec (.preambleDetected n k start a b) s = .next s) ∧
  (∀ i, syncFires (link s n).range i a b = false → exec (.syncWordDetected n k start i (a, b)) s = .next s) ∧
  (laneRuns s n = true → k ≤ 1 →
  (∀ df tau, preambleFires (link s n).range a b = some (df, tau) → preambleLevel (max a.power b.power) = true →
    (let t : Tracker := { Tracker.reset with
       phase := .pre, cand := start, start := start, df := df, tau := tau, level := max a.power b.power, training := true }
     exec (.preambleDetected n k start a b) s = .next (detected n k (preambleTaken (link s n) k start) t s))) ∧
  (∀ i, syncFires (link s n).range i a b = true →
    ((trk (link s n) k).phase ≠ .pre →
      (let t : Tracker := { Tracker.reset with
         phase := .verify, cand := start, start := start, df := binOffset i, level := max a.power b.power, training := false }
       exec (.syncWordDetected n k start i (a, b)) s = .next (detected n k (syncTaken (link s n) k start) t s))) ∧
    ((trk (link s n) k).phase = .pre → exec (.syncWordDetected n k start i (a, b)) s = .next (
      if ownSync (trk (link s n) k) start (binOffset i) then
        onLink n (onTrk k (fun t => { t with phase := .verify, start := start, level := max a.power b.power })) s
      else s))) ∧
  (∀ t : Tracker, barred (period s) (link s n) t.start t.df = false →
    ((trk (link s n) k).phase = .search → detected n k false t s = onLink n (onTrk k (fun _ => t)) s) ∧
    ((trk (link s n) k).phase = .watch → reaches t.level (trk (link s n) (1 - k)).level (parNow s (P.linkCapture n)) = true →
      parNow s (P.linkCapture8 n) ≠ 1 → detected n k false t s = onLink n (onTrk k (fun _ => t)) s) ∧
    ((trk (link s n) k).phase = .watch → reaches t.level (trk (link s n) (1 - k)).level (parNow s (P.linkCapture n)) = true →
      parNow s (P.linkCapture8 n) = 1 → detected n k false t s = bump (P.linkCaptureRefused n) s) ∧
    ((trk (link s n) k).phase = .watch → reaches t.level (trk (link s n) (1 - k)).level (parNow s (P.linkCapture n)) = false →
      detected n k false t s = s) ∧
    ((trk (link s n) k).phase ≠ .search → (trk (link s n) k).phase ≠ .watch → detected n k false t s = s)) ∧
  (∀ t : Tracker, detected n k true t s = s ∧ (barred (period s) (link s n) t.start t.df = true → ∀ x, detected n k x t s = s)) ∧
  ((trk (link s n) k).phase = .pre → (trk (link s n) k).cand + 20480 ≤ now s →
    exec (.preTimeout n k) s = .next (bump (P.linkFalseStarts n) (giveUp n k s)))) ∧
  (1 < k ∨ (trk (link s n) k).phase ≠ .pre ∨ now s < (trk (link s n) k).cand + 20480 → exec (.preTimeout n k) s = .next s)

/-- Frames of a lane (06 R178, 07 R193, R198 to R204, R211): a candidate's frame that fails its CRC is a false start; one that
passes waits for a frame of the same period that the other tracker verifies, else it is an intrusion, or with the link's own
air ID acquires or captures; the ACTIVE tracker's frame is delivered, or lost, or abandoned while a capture is verified; a
window without a sync word is a loss; bars end, and a silent lane searches again. CRC_FAIL may overrule a CRC. It rests also
on the model's own choices: log entries 13, 53 and 54. -/
def Obligations.LinkFrames : Prop := ∀ (n : Nat) (f : RxFrame) (s : State),
  (laneRuns s n = false ∨ 1 < f.tracker → exec (.uplinkFrame n f) s = .next s) ∧
  (laneRuns s n = true → f.tracker ≤ 1 → (let k := f.tracker
   let r := if (link s n).tie.any (fun v => v.trk == k) then settleTie n s else s
   let t := (fillBuffers n f r).1
   let g := (fillBuffers n f r).2
   let l := link t n
   ((trk (link r n) k).phase = .verify →
     (let q := demodulate t n (trk l k).training true g
      let x := uplinkParse l.range (frameBits l.range q.syms)
      let c := crcVerdict n x.isSome t
      (x = none ∨ c.1 = false → exec (.uplinkFrame n f) s = .next (settleTie n (bump (P.linkFalseStarts n) (giveUp n k c.2)))) ∧
      (∀ u, x = some u → c.1 = true →
        exec (.uplinkFrame n f) s = .next (passed n (verdictOf c.2 n k g q u) (measureFrame n g q c.2))))) ∧
   ((trk (link r n) k).phase = .active →
     (l.hopping.any (fun h => decide (nearPeriod g.start < h.period)) = true →
       exec (.uplinkFrame n f) s = .next (lateFrame n k g t)) ∧
     (l.hopping.any (fun h => decide (nearPeriod g.start < h.period)) = false →
       (syncWindow l * 512 < Machine.dist g.start (trk l k).start → exec (.uplinkFrame n f) s = .next t) ∧
       (Machine.dist g.start (trk l k).start ≤ syncWindow l * 512 → capturing l = true →
         exec (.uplinkFrame n f) s = .next (abandonFrame n k t)) ∧
       (Machine.dist g.start (trk l k).start ≤ syncWindow l * 512 → capturing l = false →
         (let q := demodulate t n (trk l k).training (firstAfterHop l g.start) g
          let x := uplinkParse l.range (frameBits l.range q.syms)
          let m := measureFrame n g q
            (if 1 < |g.syncErr| ∨ q.aerial ≠ l.aerial ∨ l.hopping ≠ none then bump (P.linkRunaheadUndos n) t else t)
          let c := crcVerdict n x.isSome m
          (x = none ∨ c.1 = false → exec (.uplinkFrame n f) s = .next
            (loseFrame n k q (dueOf l g.start) (bump (P.linkFramesCrcFail n) c.2))) ∧
          (∀ u, x = some u → c.1 = true → (let v := verdictOf c.2 n k g q u
            (u.airId ≠ l.air → exec (.uplinkFrame n f) s = .next (loseFrame n k q (dueOf l g.start) (intrusion n v c.2))) ∧
            (u.airId = l.air → exec (.uplinkFrame n f) s = .next
              (hopDone n (deliverFrame n v l.hopping.isNone (follow n v c.2)))))))))) ∧
   ((trk (link r n) k).phase ≠ .verify → (trk (link r n) k).phase ≠ .active → exec (.uplinkFrame n f) s = .next r))) ∧
  (∀ v : Verdict,
    ((link s n).tie = none → (trk (link s n) (1 - v.trk)).phase = .verify →
      nearPeriod (trk (link s n) (1 - v.trk)).start = nearPeriod v.start →
      passed n v s = onLink n (fun l => { l with tie := some v }) s) ∧
    ((link s n).tie = none → ((trk (link s n) (1 - v.trk)).phase ≠ .verify ∨
      nearPeriod (trk (link s n) (1 - v.trk)).start ≠ nearPeriod v.start) → v.airId = (link s n).air → passed n v s = verified n v s) ∧
    ((link s n).tie = none → ((trk (link s n) (1 - v.trk)).phase ≠ .verify ∨
      nearPeriod (trk (link s n) (1 - v.trk)).start ≠ nearPeriod v.start) → v.airId ≠ (link s n).air →
      passed n v s = giveUp n v.trk (intrusion n v s)) ∧
    (∀ w, (link s n).tie = some w → passed n v s = settleBoth n v w (onLink n (fun l => { l with tie := none }) s)) ∧
    (∀ w, v.airId = (link s n).air → w.airId = (link s n).air → frameLevel w < frameLevel v → settleBoth n v w s = verified n v s) ∧
    (∀ w, w.airId = (link s n).air → frameLevel v < frameLevel w → settleBoth n v w s = verified n w s)) ∧
  (∀ k, activeTrk (link s n) = some k → laneRuns s n = true →
    (trk (link s n) k).start + syncWindow (link s n) * 512 ≤ now s →
    (capturing (link s n) = true → exec (.syncWindowClose n) s = .next (abandonFrame n k s)) ∧
    (capturing (link s n) = false →
      (let u := if firstAfterHop (link s n) (trk (link s n) k).start then
         onLink n (fun l => { l with tapsA := Taps.reset, tapsB := Taps.reset }) s else s
       exec (.syncWindowClose n) s = .next (declareLoss n (dueOf (link s n) (trk (link s n) k).start) (bump (P.linkFramesNoSync n)
         (bump (P.linkRunaheadUndos n) (onLink n (onTrk k (fun t => { t with start := t.start + t.len })) u))))))) ∧
  (activeTrk (link s n) = none ∨ laneRuns s n = false → exec (.syncWindowClose n) s = .next s) ∧
  (∀ k, activeTrk (link s n) = some k → now s < (trk (link s n) k).start + syncWindow (link s n) * 512 →
    exec (.syncWindowClose n) s = .next s) ∧
  exec (.intrusionBarEnd n) s = .next (onLink n (fun l => { l with bars := l.bars.filter (fun b => decide (period s < b.untilPeriod)) }) s) ∧
  ((link s n).isOpen = true → 2 ≤ (link s n).silent → exec (.laneReacquire n) s = .next (queueEvent 0x3010 n 0
    (bump (P.linkLaneReacq n) (onLink n (fun l => { searchLane l with
      t0 := { l.t0 with phase := .search, training := false }
      t1 := { l.t1 with phase := .search, training := false } }) s)))) ∧
  ((link s n).isOpen = false ∨ (link s n).silent < 2 → exec (.laneReacquire n) s = .next s)

/-- Hops of a link (07 R219 to R224): the choice of an alternate schedules a hop, or is counted as without one; at the
boundary the link is at its target and its ACTIVE tracker expects its next frame there; at the limit it returns to the old
frequency and searches. Without a hop, or before its time, nothing happens. It rests also on the model's own choices: log
entries 3 and 56. -/
def Obligations.LinkHops : Prop := ∀ (n : Nat) (s : State),
  (∀ v, (link s n).isOpen = true → (link s n).measuring = true →
    (let r := onLink n (fun l => { l with measuring := false }) s
     let u := onLink n (fun l => { l with lastHop := some (period s) }) r
     ((link s n).hop ≠ none → exec (.hopAltChosen n v) s = .next r) ∧
     (∀ a, (link s n).hop = none → bestAlternate (alternates u n v) = some a → exec (.hopAltChosen n v) s = .next
       (scheduleHop n a.1 (nextBeacon (period s + parNow u (P.linkHopLead n))) false u)) ∧
     ((link s n).hop = none → bestAlternate (alternates u n v) = none → exec (.hopAltChosen n v) s = .next
       (queueEvent 0x3007 n (linkLqNow (link s n)) (bump (P.linkHopNoAlt n) u))))) ∧
  (∀ v, (link s n).isOpen = false ∨ (link s n).measuring = false → exec (.hopAltChosen n v) s = .next s) ∧
  (∀ l : List (Nat × Nat), (∀ a, bestAlternate l = some a → a ∈ l ∧ ∀ y ∈ l, a.2 ≤ y.2) ∧ (bestAlternate l = none → l = [])) ∧
  (∀ h, (link s n).hop = some h → h.period ≤ period s →
    (let r := settleTie n s
     let u := clearHopFields n (parSet (P.linkFreq n) h.target (unannounced 0 n h r))
     let on (t : Tracker) : Tracker := { t with
       phase := .active, cand := (h.period + 1) * 61440, start := (h.period + 1) * 61440
       df := t.df * h.target / (link r n).freq, training := true }
     let off : Tracker := { Tracker.reset with phase := .watch }
     let moved (l : Link) : Link := { l with
       freq := h.target, hop := none, hopping := some { h with old := l.freq, concealed := 0 }, lastHop := some h.period }
     ((activeTrk (link r n)).getD 0 = 0 → exec (.hopBoundary n) s = .next (remeasure n (onLink n (fun l => { moved l with
       t0 := on (link r n).t0, t1 := off }) u))) ∧
     ((activeTrk (link r n)).getD 0 = 1 → exec (.hopBoundary n) s = .next (remeasure n (onLink n (fun l => { moved l with
       t0 := off, t1 := on (link r n).t1 }) u))))) ∧
  ((link s n).hop = none → exec (.hopBoundary n) s = .next s) ∧
  (∀ h, (link s n).hop = some h → period s < h.period → exec (.hopBoundary n) s = .next s) ∧
  (∀ h, (link s n).hopping = some h → h.period + 2 + parNow s (P.linkHopFallback n) ≤ period s → exec (.hopFailed n) s = .next
    (remeasure n (queueEvent 0x3006 n h.target (bump (P.linkHopFails n) (parSet (P.linkFreq n) h.old
      (onLink n (fun l => { searchLane l with freq := h.old, hopping := none }) s)))))) ∧
  (∀ h, (link s n).hopping = some h → period s < h.period + 2 + parNow s (P.linkHopFallback n) →
    exec (.hopFailed n) s = .next s) ∧
  ((link s n).hopping = none → exec (.hopFailed n) s = .next s)

/-- The instants of transmission (08 R236, R243 to R248): carriers whose boundary has come are on, with the PA pins high;
ramps end and are reported with their cause, a brown hold's with one cut counted; `PA_EN` falls after its delay; HELD carriers
resume; a retune is done the boundary after the move. Before its time, and where transmission is not possible, each does
nothing. It rests also on the model's own choices: log entries 3 and 59. -/
def Obligations.TxInstants : Prop := ∀ (s : State),
  (let due := ((openCarriers s).filter (fun p => p.2.phase == .starting && decide (p.2.m ≤ period s))).map Prod.fst
   (due ≠ [] → locked s 2 = true → domOn s Dom.txd = true → restarting s Dom.txd = false → restarting s Dom.ckg = false →
     s.clk.pllLocked = true → s.supply.brown = false →
     exec .txStartBoundary s = .next (settle (doneStarts (each due (fun c u => queueEvent 0x4001 c ((carrier u c).m % 2 ^ 32)
       (onCarrier c (fun q => { q with phase := .on }) u))
       { s with tx := { s.tx with paEn := true, paMute := true, enAt := none, muteAt := none, offDelay := false } })))) ∧
   ((due = [] ∨ mayRadiate s = false) → exec .txStartBoundary s = .next s)) ∧
  (locked s 2 = false ∨ domOn s Dom.txd = false ∨ restarting s Dom.txd = true ∨ s.supply.brown = true → mayRadiate s = false) ∧
  (let due := rampsDue s
   let u := each due rampEnded s
   (exec .txRampDownEnd s = .next (settle (doneRamps (paRelease (
     if due.any (fun c => (carrier s c).stopCause == 3) then bump P.txBrownCuts u else u)))))) ∧
  (∀ c, c ∈ rampsDue s ↔ ∃ q, (c, q) ∈ openCarriers s ∧ q.phase = .stopping ∧
    (q.stopCause = 3 ∨ s.supply.brown = true ∨ (q.m + 1) * 61440 + 2048 ≤ now s)) ∧
  (∀ c, (carrier s c).stopCause ≠ 3 ∨ parGet s P.sysTxAutoResume ≠ 1 → rampEnded c s = queueEvent 0x4002 c (carrier s c).stopCause
    (onCarrier c (fun q => { q with phase := .opened, m := 0 }) s)) ∧
  (∀ c, (carrier s c).stopCause = 3 → parGet s P.sysTxAutoResume = 1 → rampEnded c s = queueEvent 0x4002 c 3
    (onCarrier c (fun q => { q with phase := .held, m := 0 }) s)) ∧
  (s.tx.offDelay = true → s.tx.offSince + usTicks (parGet s P.txPaOffDelay) ≤ now s → exec .paOffDelayExpiry s = .next { s with
    tx := { s.tx with paEn := false, enAt := none, offDelay := false } }) ∧
  (s.tx.offDelay = false ∨ now s < s.tx.offSince + usTicks (parGet s P.txPaOffDelay) → exec .paOffDelayExpiry s = .next s) ∧
  (let due := ((openCarriers s).filter (fun p => p.2.phase == .held && p.2.m != 0 && decide (p.2.m ≤ period s))).map Prod.fst
   (due ≠ [] → mayRadiate s = true →
     exec .txResumed s = .next (settle (doneStarts (each due (fun c u => queueEvent 0x4003 c ((carrier u c).m % 2 ^ 32)
       (onCarrier c (fun q => { q with phase := .on }) u))
       { s with tx := { s.tx with paEn := true, paMute := true, enAt := none, muteAt := none, offDelay := false } })))) ∧
   (due = [] ∨ mayRadiate s = false → exec .txResumed s = .next s)) ∧
  (∀ c r, (carrier s c).retune = some r → (carrier s c).retuning = true → r.period < period s → exec (.carrierRetuned c) s = .next
    (queueEvent 0x4005 c r.target (bump (P.txRetunes c) (parSet (P.txRetunePeriodHi c) 0 (parSet (P.txRetunePeriodLo c) 0
      (parSet (P.txRetuneTarget c) 0 (onCarrier c (fun q => { q with retune := none, retuning := false }) s))))))) ∧
  (∀ c, (carrier s c).retune = none ∨ (carrier s c).retuning = false ∨
      (∃ r, (carrier s c).retune = some r ∧ period s ≤ r.period) → exec (.carrierRetuned c) s = .next s)

/-- The beacon slot and its ends (09 R255 to R258, R266, R276, R281): a beacon in progress ends first. A running link hops if
it is due, begins a superframe and sends its beacon, or abandons it without a grant, lock or domain; a HELD one resumes when
it may radiate; a starting one sends its first beacon once its synthesiser is locked, or waits for the next boundary. A
received slot without a valid reply is a missed poll; a withdrawn grant abandons the beacon. It rests also on the model's own
choices: log entry 62. -/
def Obligations.CommandLinkSlots : Prop := ∀ (s : State),
  (let r := beaconEnds s
   (∀ g l, period s % 20 ≠ 0 → exec (.beaconSlot g l) s = .next (settle s)) ∧
   (∀ g l, period s % 20 = 0 → r.cl.phase = .running → exec (.beaconSlot g l) s =
     .next (settle (beaconOrNot g (newSuperframe (hopChannel l r))))) ∧
   (∀ g l, period s % 20 = 0 → r.cl.phase = .held → (let u := newSuperframe (hopChannel l r)
     (clAble u = true → locked u 3 = true → exec (.beaconSlot g l) s = .next (settle (beaconOrNot g
       (queueEvent 0x500A 0 (period u % 2 ^ 32) { u with cl := { u.cl with phase := .running } })))) ∧
     (clAble u = false ∨ locked u 3 = false → exec (.beaconSlot g l) s = .next (settle (abandonBeacon u))))) ∧
   (∀ g l, period s % 20 = 0 → r.cl.phase = .starting →
     (period r < r.cl.b ∨ clAble r = false → exec (.beaconSlot g l) s = .next (settle r)) ∧
     (r.cl.b ≤ period r → clAble r = true →
       (r.clk.cmd.phase = .calibrating ∨ r.clk.cmd.phase = .searching ∨ r.clk.cmd.phase = .retrying →
         exec (.beaconSlot g l) s = .next (settle { r with cl := { r.cl with b := nextBeacon (period r + 1) } })) ∧
       (r.clk.cmd.phase = .locked → (startFreq r).getD r.clk.cmd.freq = r.clk.cmd.freq →
         exec (.beaconSlot g l) s = .next (settle (startBeacon g r))) ∧
       (∀ t, r.clk.cmd.phase = .off ∨ (r.clk.cmd.phase = .locked ∧ (startFreq r).getD r.clk.cmd.freq ≠ r.clk.cmd.freq) →
         (lockChannel ((startFreq r).getD r.clk.cmd.freq) l r = (some true, t) →
           exec (.beaconSlot g l) s = .next (settle (startBeacon g t))) ∧
         (lockChannel ((startFreq r).getD r.clk.cmd.freq) l r = (some false, t) →
           exec (.beaconSlot g l) s = .next (settle (if (failClLock t).cl.phase = .starting then startLater (failClLock t) else failClLock t))) ∧
         (lockChannel ((startFreq r).getD r.clk.cmd.freq) l r = (none, t) → exec (.beaconSlot g l) s = .next (settle (startLater t)))))) ∧
   (∀ g l, period s % 20 = 0 → r.cl.phase = .stopped ∨ r.cl.phase = .muted → exec (.beaconSlot g l) s = .next (settle r)) ∧
   (∀ n g, (s.cl.phase ≠ .running ∧ s.cl.phase ≠ .held) ∨ 30 ≤ n → exec (.replySlotEnd n g) s = .next s) ∧
   (∀ n g, s.cl.phase = .running ∨ s.cl.phase = .held → n < 30 →
     (r.cl.phase ≠ .running ∨ r.cl.listening = false → exec (.replySlotEnd n g) s = .next (slotPins n r)) ∧
     (r.cl.phase = .running → r.cl.listening = true →
       (slotRequested r n = true → g = false → exec (.replySlotEnd n g) s = .next (settle (slotPins n (coexDenied r)))) ∧
       (slotRequested r n = false ∨ g = true →
         (r.cl.acks.testBit n = true ∨ joinSlot r n = true → exec (.replySlotEnd n g) s = .next (settle (slotPins n r))) ∧
         (r.cl.acks.testBit n = false → joinSlot r n = false →
           exec (.replySlotEnd n g) s = .next (settle (slotPins n (missedPoll (slotSession r n) r)))))))) ∧
  (∀ g, (parGet s P.clCoexCfg = 1 ∧ g = false → beaconOrNot g s = abandonBeacon (coexDenied s)) ∧
    (parGet s P.clCoexCfg ≠ 1 ∨ g = true → locked s 3 = false ∨ clAble s = false → beaconOrNot g s = abandonBeacon s) ∧
    (parGet s P.clCoexCfg ≠ 1 ∨ g = true → locked s 3 = true → clAble s = true → beaconOrNot g s = { s with cl := { s.cl with
      beacon := beaconBody s, air := clAir (clChannel s.cl.freq) (beaconBody s), beaconing := true, listening := true
      abandonedLast := false, txen := true } })) ∧
  (s.cl.phase = .running → s.cl.listening = true → exec .clPreambleFalseStart s = .next (bump P.clFalseStarts s)) ∧
  (s.cl.phase ≠ .running ∨ s.cl.listening = false → exec .clPreambleFalseStart s = .next s) ∧
  (∀ h l, s.cl.hop = some h → h.period ≤ period s → (let t := lockChannel h.target l s
    (t.1 ≠ some false → exec (.clHopDone l) s = .next (settle (doneWaiting .clHop t.2))) ∧
    (t.1 = some false → exec (.clHopDone l) s = .next (settle (doneWaiting .clHop
      (queueEvent 0x1009 3 0 (bump P.clkLockRetries t.2))))))) ∧
  (∀ l, s.cl.hop = none ∨ (∃ h, s.cl.hop = some h ∧ period s < h.period) → exec (.clHopDone l) s = .next (settle s)) ∧
  (s.cl.beaconing = true → parGet s P.clCoexCfg = 1 → exec .coexGrantWithdrawn s = .next (abandonBeacon (bump P.clCoexAborts s))) ∧
  (s.cl.beaconing = false ∨ parGet s P.clCoexCfg ≠ 1 → exec .coexGrantWithdrawn s = .next s)

/-- Packets of a reply slot (09 R254, R262 to R268, R277): a capture abandons a packet, or the capture lock refuses it; a
failed CRC and a failed MIC are counted, another system or another session is an intrusion; a verified poll reply and a
verified join take effect, a join of an unknown transmitter is reported. Outside a received slot nothing happens. CRC_FAIL may
overrule the CRC. It rests also on the model's own choices: log entry 63. -/
def Obligations.CommandLinkPackets : Prop := ∀ (s : State) (n : Nat) (pkt : ClPacket),
  (let r := beaconEnds s
   let read := clPacketRead n pkt
   (r.cl.phase ≠ .running ∨ r.cl.listening = false ∨ 30 ≤ n →
     exec (.pollReply n pkt) s = .next (settle r) ∧ exec (.join n pkt) s = .next (settle r)) ∧
   (r.cl.phase = .running → r.cl.listening = true → n < 30 →
     (captures pkt r = 0 → exec (.pollReply n pkt) s = .next (settle (read r)) ∧ exec (.join n pkt) s = .next (settle (read r))) ∧
     (captures pkt r ≠ 0 → parGet r P.clCapture8 = 1 → (let u := bumpBy (captures pkt r) P.clCaptureRefused r
       exec (.pollReply n pkt) s = .next (settle (read u)) ∧ exec (.join n pkt) s = .next (settle (read u)))) ∧
     (captures pkt r ≠ 0 → parGet r P.clCapture8 ≠ 1 → exec (.pollReply n pkt) s = .next (settle (bump P.clCaptureSwitches r)) ∧
       exec (.join n pkt) s = .next (settle (bump P.clCaptureSwitches r))))) ∧
  (let a := clAirBody (clChannel s.cl.freq) 26 pkt.air
   let v := crcVerdict 0x80 a.2 s
   let u := v.2
   let sys := beNat ((a.1.drop 2).take 3)
   let mine := slotSession u n
   (v.1 = false → clPacketRead n pkt s = bump P.clCrcFails u) ∧
   (v.1 = true → sys ≠ parGet u P.clSystemId → clPacketRead n pkt s = queueLimited 0x500B 12288000 0x500B mine sys
     (bump P.clIntrusions u)) ∧
   (v.1 = true → sys = parGet u P.clSystemId → fldAt a.1 0 1 % 16 = 1 →
     (joinSlot u n = true ∨ fldAt a.1 1 1 ≠ mine → clPacketRead n pkt s = queueLimited 0x500B 12288000 0x500B mine (sys + 2 ^ 31)
       (bump P.clIntrusions u)) ∧
     (joinSlot u n = false → fldAt a.1 1 1 = mine → (let x := session u mine
       (x.phase = .free ∨ replyKey x (fldAt a.1 5 1) = none → clPacketRead n pkt s = bump P.clMicFails u) ∧
       (∀ key epoch, x.phase ≠ .free → replyKey x (fldAt a.1 5 1) = some (key, epoch) →
         (clMic key u.cl.b n (a.1.take 22) ≠ (a.1.drop 22).take 4 → clPacketRead n pkt s = bump P.clMicFails u) ∧
         (clMic key u.cl.b n (a.1.take 22) = (a.1.drop 22).take 4 → clPacketRead n pkt s = pollValid n mine pkt.level
           (if x.flags.testBit 1 then a.1.take 7 ++ clCrypt key 4 n mine u.cl.b epoch ((a.1.drop 7).take 15) ++ a.1.drop 22
            else a.1) u))))) ∧
   (v.1 = true → sys = parGet u P.clSystemId → fldAt a.1 0 1 % 16 = 2 → (let tx := beNat ((a.1.drop 5).take 4)
     (joinSlot u n = false ∨ fldAt a.1 1 1 ≠ mine → clPacketRead n pkt s = u) ∧
     (joinSlot u n = true → fldAt a.1 1 1 = mine →
       (sessionOfTx u tx = none → clPacketRead n pkt s = queueEvent 0x5003 0 tx (bump P.clJoinUnknown u)) ∧
       (∀ m, sessionOfTx u tx = some m →
         (clMic (session u m).key u.cl.b n (a.1.take 22) ≠ (a.1.drop 22).take 4 → clPacketRead n pkt s = bump P.clMicFails u) ∧
         (clMic (session u m).key u.cl.b n (a.1.take 22) = (a.1.drop 22).take 4 →
           ((session u m).phase = .removing → clPacketRead n pkt s = ackSlot n u) ∧
           ((session u m).phase ≠ .removing → (session u m).phase ≠ .joined → clPacketRead n pkt s =
             bump P.clJoins (onSession m (fun x => { x with
               phase := .assigned, assign := some (beNat ((a.1.drop 9).take 4)), missed := 0 }) (ackSlot n u))) ∧
           ((session u m).phase = .joined → clPacketRead n pkt s =
             bump P.clJoins (onSession m (fun x => { x with
               phase := .assigned, assign := some (beNat ((a.1.drop 9).take 4)), missed := 0 })
                 (failSends (some m) (ackSlot n u))))))))) ∧
   (v.1 = true → sys = parGet u P.clSystemId → fldAt a.1 0 1 % 16 ≠ 1 → fldAt a.1 0 1 % 16 ≠ 2 → clPacketRead n pkt s = u))

/-- Ends of a session and of its key change (09 R268, R272): a removal whose reason holds frees the session; at its boundary a
confirmed change switches to the new key and epoch, an unconfirmed one moves on by KEY_LEAD superframes. Otherwise nothing
happens. It rests also on the model's own choices: log entries 3 and 62. -/
def Obligations.SessionInstants : Prop := ∀ (n : Nat) (s : State),
  ((session s n).phase = .removing → (session s n).remove = false → exec (.sessionRemoved n 1) s = .next (queueEvent 0x500D n 1
    (onSession n (fun _ => Session.reset) s))) ∧
  ((session s n).phase = .removing → s.cl.phase ≠ .running → exec (.sessionRemoved n 2) s = .next (queueEvent 0x500D n 2
    (onSession n (fun _ => Session.reset) s))) ∧
  ((session s n).phase = .removing → (session s n).removeAt + sec1 ≤ now s → exec (.sessionRemoved n 3) s = .next
    (queueEvent 0x500D n 3 (onSession n (fun _ => Session.reset) s))) ∧
  (∀ r, (session s n).phase ≠ .removing ∨ r = 0 ∨ 3 < r ∨ (r = 1 ∧ (session s n).remove = true) ∨ (r = 2 ∧ s.cl.phase = .running) ∨
    (r = 3 ∧ now s < (session s n).removeAt + sec1) → exec (.sessionRemoved n r) s = .next s) ∧
  (∀ k, (session s n).change = some k → k.switched = false → k.n ≤ period s → k.confirmed = true →
    exec (.keyChangeBoundary n) s = .next (onSession n (fun x => { x with
      epoch := (x.epoch + 1) % 2 ^ 32, key := x.pendKey, pendKey := x.key, change := some { k with switched := true } }) s)) ∧
  (∀ k, (session s n).change = some k → k.switched = false → k.n ≤ period s → k.confirmed = false →
    exec (.keyChangeBoundary n) s = .next (onSession n (fun x => { x with
      change := some { k with n := k.n + 20 * parGet s P.clKeyLead, half := 0 } }) s)) ∧
  (∀ k, (session s n).change = some k → (k.switched = true ∨ period s < k.n) → exec (.keyChangeBoundary n) s = .next s) ∧
  ((session s n).change = none → exec (.keyChangeBoundary n) s = .next s)

/-- The instants of an audio port (11 R314 to R327): start at S, the trigger that sets S, the end of a stop once its fade of 1
ms is over, loss, realignment and return, acquisition, glitches and slips, and the measured rate: a class that differs twice
mutes a running port, one that returns realigns it, another follows it. Without a clock the port engines are held, and nothing
happens; so it is where the port is in another state. It rests also on the model's own choices: log entry 68. -/
def Obligations.PortInstants : Prop := ∀ (p : Nat) (s : State),
  (unclocked s = true → (∀ c us f r x o, exec (.portStartInstant p) s = .next s ∧ exec .startTrig s = .next s ∧
    exec (.portStopped p) s = .next s ∧ exec (.portLost p c) s = .next s ∧ exec (.portEdgesReturn p) s = .next s ∧
    exec (.portReturned p us) s = .next s ∧ exec (.asrcAcquired p) s = .next s ∧ exec (.portGlitch p) s = .next s ∧
    exec (.portSlip p f) s = .next s ∧ exec (.portRateMeasured p r x o) s = .next s)) ∧
  (unclocked s = false →
  (∀ t, (port s p).phase = .armed → (port s p).startAt = some t → t ≤ now s → domOn s Dom.aud = true →
    exec (.portStartInstant p) s = .next (queueEvent 0x6005 p (t % 2 ^ 32) (parSet P.audStartTimeLo (t % 2 ^ 32)
      (parSet P.audStartTimeHi (t / 2 ^ 32) (onPort p (fun q => { q with
        phase := .running, startAt := none, differs := 0
        acquired := !isSlip (port s p).cfg && q.cfg.role == 0, fade := if isSlip (port s p).cfg then 2 else 0 }) s))))) ∧
  (∀ t, (port s p).startAt = some t → now s < t → exec (.portStartInstant p) s = .next s) ∧
  ((port s p).phase ≠ .armed ∨ (port s p).startAt = none ∨ domOn s Dom.aud = false → exec (.portStartInstant p) s = .next s) ∧
  (domOn s Dom.aud = true → s.supply.ioaOn = true → exec .startTrig s = .next (each (List.range 6) (fun i => onPort i (fun q =>
    if q.phase = .armed ∧ q.start = 1 ∧ q.startAt = none then { q with startAt := some (ceilDiv (now s + 1229) 2560 * 2560) } else q))
      (bump P.audStartTrigs s))) ∧
  (domOn s Dom.aud = false ∨ s.supply.ioaOn = false → exec .startTrig s = .next s) ∧
  ((port s p).stopping = true → (port s p).stopAt + 122880 ≤ now s →
    exec (.portStopped p) s = .next (settle (donePortStops (queueEvent 0x6006 p (port s p).stopCause
      (onPort p (fun q => { q with phase := .stopped, stopping := false, acquired := false, differs := 0, fade := 0, outBlocks := []
                                   slip := none, spoilt := false }) s))))) ∧
  ((port s p).stopping = false ∨ now s < (port s p).stopAt + 122880 → exec (.portStopped p) s = .next s) ∧
  (∀ c, (port s p).cfg.role = 1 → ((port s p).phase = .running ∨ (port s p).phase = .reacquiring ∨ (port s p).phase = .rateMuted) →
    exec (.portLost p c) s = .next (queueEvent 0x6001 p c (bump (P.audPortLost p)
      (onPort p (fun q => { q with phase := .lost, acquired := false, differs := 0, gridRun := 0 }) s)))) ∧
  (∀ c, clocked (port s p) = false → exec (.portLost p c) s = .next s) ∧
  ((port s p).phase = .lost → exec (.portEdgesReturn p) s = .next (onPort p (fun q => { q with phase := .reacquiring }) s)) ∧
  ((port s p).phase ≠ .lost → exec (.portEdgesReturn p) s = .next s) ∧
  (∀ us, (port s p).phase = .reacquiring → exec (.portReturned p us) s = .next (queueEvent 0x6002 p us
    (onPort p (fun q => { q with phase := .running, acquired := !isSlip q.cfg, fade := 0, differs := 0 }) s))) ∧
  (∀ us, (port s p).phase ≠ .reacquiring → exec (.portReturned p us) s = .next s) ∧
  ((port s p).phase = .running → isSlip (port s p).cfg = false → exec (.asrcAcquired p) s = .next
    (onPort p (fun q => { q with acquired := true }) s)) ∧
  ((port s p).phase ≠ .running ∨ isSlip (port s p).cfg = true → exec (.asrcAcquired p) s = .next s) ∧
  ((port s p).cfg.role = 1 → (port s p).phase = .running → exec (.portGlitch p) s = .next
    (queueCounted (0x6003 * 65536 + p) sec1 0x6003 p (bump (P.audPortGlitches p) (onPort p (fun q => { q with spoilt := true }) s)))) ∧
  ((port s p).cfg.role ≠ 1 ∨ (port s p).phase ≠ .running → exec (.portGlitch p) s = .next s ∧
    ∀ f, exec (.portSlip p f) s = .next s) ∧
  (∀ f, isSlip (port s p).cfg = true → (port s p).cfg.role = 1 → (port s p).phase = .running → exec (.portSlip p f) s = .next
    (queueCounted (0x6007 * 65536 + p) sec1 0x6007 p (bump (P.audPortUnderruns p) (bump (P.audPortOverruns p)
      (onPort p (fun q => { q with slip := some f }) s))))) ∧
  (∀ f, isSlip (port s p).cfg = false → exec (.portSlip p f) s = .next s) ∧
  (∀ r x o, clocked (port s p) = false → exec (.portRateMeasured p r x o) s = .next s) ∧
  (∀ r x o, clocked (port s p) = true →
    (let u := onPort p (measuredPort r x o) s
     let same := portClass (port u p) = cfgClass (port s p).cfg
     ((port s p).phase = .running →
       (same → exec (.portRateMeasured p r x o) s = .next (onPort p (fun q => { q with differs := 0 }) u)) ∧
       (¬ same → (port s p).differs = 0 →
         exec (.portRateMeasured p r x o) s = .next (onPort p (fun q => { q with differs := 1 }) u)) ∧
       (¬ same → (port s p).differs ≠ 0 → exec (.portRateMeasured p r x o) s = .next (muteRate p u))) ∧
     ((port s p).phase = .reacquiring →
       (same → exec (.portRateMeasured p r x o) s = .next u) ∧
       (¬ same → exec (.portRateMeasured p r x o) s = .next (muteRate p u))) ∧
     ((port s p).phase = .rateMuted →
       (same → exec (.portRateMeasured p r x o) s = .next (onPort p (fun q => { q with phase := .reacquiring }) u)) ∧
       (¬ same → portClass (port u p) = portClass (port s p) → exec (.portRateMeasured p r x o) s = .next u) ∧
       (¬ same → portClass (port u p) ≠ portClass (port s p) →
         exec (.portRateMeasured p r x o) s = .next (followRate p u))))) ∧
  (∀ r x o (q : Port), (measuredPort r x o q).rate = r ∧ (measuredPort r x o q).ratio = (if isSlip q.cfg then 0 else x) ∧
    (measuredPort r x o q).onGrid = (if 246 ≤ o then false else q.onGrid || (decide (o ≤ 122) && decide (49 ≤ q.gridRun)))))

/-- Ramps of the router (11 R331, R334, R335): at the first zero crossing of the period, or when the timeout has passed
without one, the ramp fires and the samples of the period follow it; a cleared route whose fade is over is marked for removal.
A crossing lies where a sample and the one before it have a product of 0 or less. It rests also on the model's own choices:
log entry 66. -/
def Obligations.RouterInstants : Prop := ∀ (b : Bool) (n : Nat) (s : State),
  (∀ i, (rampOf s b n).phase = 1 → firstCrossing (rampOf s b n).edge (zcChannel s b n) = some i →
    exec (.zeroCrossing b n i) s = .next (runRouter [] (onRamp b n (Ramp.fire i) s))) ∧
  (∀ i, ((rampOf s b n).phase ≠ 1 ∨ firstCrossing (rampOf s b n).edge (zcChannel s b n) ≠ some i) →
    exec (.zeroCrossing b n i) s = .next s) ∧
  (∀ (e : Option Int) (x : List Int) i, firstCrossing e x = some i ↔ i < 24 ∧ crossesAt e x i = true ∧ ∀ j, j < i → crossesAt e x j = false) ∧
  (∀ (e : Option Int) (x : List Int) i, crossesAt e x (i + 1) = true ↔ x.getD i 0 * x.getD (i + 1) 0 ≤ 0) ∧
  ((rampOf s b n).phase = 1 → (rampOf s b n).since + zcLimit s ≤ now s →
    exec (.zcTimeout b n) s = .next (runRouter [] (onRamp b n (Ramp.fire 0) (bump P.audZcTimeouts s)))) ∧
  ((rampOf s b n).phase ≠ 1 ∨ now s < (rampOf s b n).since + zcLimit s → exec (.zcTimeout b n) s = .next s) ∧
  ((route s n).fading = true → (route s n).ramp.endsNow = true →
    exec (.routeFadeEnd n) s = .next (onRoute n (fun r => { r with ended := true }) s)) ∧
  ((route s n).fading = false ∨ (route s n).ramp.endsNow = false → exec (.routeFadeEnd n) s = .next s)

/-- The instants of local analog audio (12 R342 to R359): a sequence whose time has run reaches its state and its command
completes; a jack that changes, no sooner than the debounce time after its last change, acts on the outputs that follow it;
the speaker is clamped at a fault, for good at the third overcurrent within 1 s, and starts again once its wait is past; a
bias output enters and leaves its current limit. Each row that comes at another time changes nothing. It rests also on the
model's own choices: log entry 69. -/
def Obligations.AnalogInstants : Prop := ∀ (s : State),
  (∀ t, (ana s t).phase = 1 ∨ (ana s t).phase = 3 → (ana s t).endAt ≤ now s → (ana s t).up = true → t < 6 →
    exec (.analogSequenceEnd t) s = .next (settle (doneWaiting (.analogSeq t) (onAna t (fun _ => { ana s t with phase := 2 }) s)))) ∧
  (∀ t, (ana s t).phase = 1 ∨ (ana s t).phase = 3 → (ana s t).endAt ≤ now s → (ana s t).up = true → 6 ≤ t →
    exec (.analogSequenceEnd t) s = .next (settle (doneWaiting (.analogSeq t)
      (onAna t (fun _ => { ana s t with phase := 2, ramp := Ramp.at (outGain s t) }) s)))) ∧
  (∀ t, (ana s t).phase = 1 ∨ (ana s t).phase = 3 → (ana s t).endAt ≤ now s → (ana s t).up = false →
    exec (.analogSequenceEnd t) s = .next (settle (doneWaiting (.analogSeq t) (onAna t (fun _ => AnaObj.reset) s)))) ∧
  (∀ t, (((ana s t).phase ≠ 1 ∧ (ana s t).phase ≠ 3) ∨ now s < (ana s t).endAt) → exec (.analogSequenceEnd t) s = .next s) ∧
  (∀ b, domDown s Dom.ana = false → s.ana.jack1 ≠ b → s.ana.jack1At + msTicks (parGet s P.audJackState8) ≤ now s →
    exec (.jackChanged 1 b) s = .next (reviseJacks (queueEvent 0x6010 1 (if b then 1 else 0)
      (bump P.audJackChanges { s with ana := { s.ana with jack1 := b, jack1At := now s } })))) ∧
  (∀ b, domDown s Dom.ana = false → s.ana.jack2 ≠ b → s.ana.jack2At + msTicks (parGet s P.audJackState8) ≤ now s →
    exec (.jackChanged 2 b) s = .next (reviseJacks (queueEvent 0x6010 2 (if b then 1 else 0)
      (bump P.audJackChanges { s with ana := { s.ana with jack2 := b, jack2At := now s } })))) ∧
  (∀ j b, (domDown s Dom.ana = true ∨ (j ≠ 1 ∧ j ≠ 2) ∨
      (j = 1 ∧ (s.ana.jack1 = b ∨ now s < s.ana.jack1At + msTicks (parGet s P.audJackState8))) ∨
      (j = 2 ∧ (s.ana.jack2 = b ∨ now s < s.ana.jack2At + msTicks (parGet s P.audJackState8)))) →
    exec (.jackChanged j b) s = .next s) ∧
  (speakerLive s = true → (s.ana.spkFaults.filter (fun t => now s < t + sec1)).length ≤ 1 → exec .spkOvercurrent s = .next (settle
    (clampSpeaker 1 false { s with ana := { s.ana with spkFaults := now s :: s.ana.spkFaults.filter (fun t => now s < t + sec1) } }))) ∧
  (speakerLive s = true → 2 ≤ (s.ana.spkFaults.filter (fun t => now s < t + sec1)).length → exec .spkOvercurrent s = .next (settle
    (clampSpeaker 1 true { s with ana := { s.ana with spkFaults := now s :: s.ana.spkFaults.filter (fun t => now s < t + sec1) } }))) ∧
  (speakerLive s = true → exec .spkUndervoltage s = .next (settle (clampSpeaker 2 false s))) ∧
  (speakerLive s = false → exec .spkOvercurrent s = .next s ∧ exec .spkUndervoltage s = .next s) ∧
  (s.ana.spkRestart = true → domDown s Dom.ana = false → s.ana.spkDue ≤ now s → exec .spkRestart s = .next (reviseAna 8
    { s with ana := { s.ana with spkRestart := false } })) ∧
  (s.ana.spkRestart = false ∨ domDown s Dom.ana = true ∨ now s < s.ana.spkDue → exec .spkRestart s = .next s) ∧
  (∀ n, (n = 1 ∨ n = 2) → domDown s Dom.ana = false → (ana s (3 + n)).phase ≠ 0 → (ana s (3 + n)).limit = false →
    exec (.micbiasLimit n) s = .next (queueEvent 0x6012 n 0 (bump P.audMicbiasLimits
      (onAna (3 + n) (fun o => { o with limit := true }) s)))) ∧
  (∀ n, (domDown s Dom.ana = true ∨ (n ≠ 1 ∧ n ≠ 2) ∨ (ana s (3 + n)).phase = 0 ∨ (ana s (3 + n)).limit = true) →
    exec (.micbiasLimit n) s = .next s) ∧
  (∀ n, (n = 1 ∨ n = 2) → exec (.micbiasCurrentLimitRecovery n) s = .next (onAna (3 + n) (fun o => { o with limit := false }) s)) ∧
  (∀ n, (n ≠ 1 ∧ n ≠ 2) → exec (.micbiasCurrentLimitRecovery n) s = .next s)

/-- The instants of the instrumentation (13 R368 to R385) while ANA is on: a timer's tick and a PWM output's rising edge
trigger the converters that name them, and the tick moves the control DACs whose pending code names the timer; a conversion
that is due gives its result (to the queue, to the stream, or as the answer of MEAS_NOW); the reference, 5 ms after it was
switched on, lets continuous converters run; the slew limiter moves every output once a microsecond; a range change goes
through its phases. Each row that comes at another time changes nothing. It rests also on the model's own choices: log entry
70. -/
def Obligations.InstrumentInstants : Prop := ∀ (s : State), domDown s Dom.ana = false →
  (∀ t, t ≤ 3 → timerOn s t = true → now s % (10 * parGet s (P.measTmPeriod t)) = 10 * parGet s (P.measTmPhase t) →
    exec (.timerTick t) s = .next (each (List.range 8) (fun c u => match (cdac u c).pending with
      | some (v, code) => if v = t + 1 then onCdac c (Cdac.aim (now u) code) u else u
      | none => u) (triggerAll (2 + t) s))) ∧
  (∀ t, (3 < t ∨ timerOn s t = false ∨ now s % (10 * parGet s (P.measTmPeriod t)) ≠ 10 * parGet s (P.measTmPhase t)) →
    exec (.timerTick t) s = .next s) ∧
  (∀ p, p ≤ 3 → parGet s (P.measPwmCfg p) = 1 → (pwmNow s p).rises (parGet s (P.measPwmCfg1 p) == 1) = some (now s) →
    exec (.pwmEdgeTrigger p) s = .next (triggerAll (6 + p) s)) ∧
  (∀ p, (3 < p ∨ parGet s (P.measPwmCfg p) ≠ 1 ∨ (pwmNow s p).rises (parGet s (P.measPwmCfg1 p) == 1) ≠ some (now s)) →
    exec (.pwmEdgeTrigger p) s = .next s) ∧
  (∀ n v c, n ≤ 1 → (fine s n).conv = some c → c.due ≤ now s → c.urgent = false →
      ((fine s n).trigger = 1 → refReady s = true) →
    exec (.conversionDone n v) s = .next (
      let u := onFine n (fun f => { f with conv := none, tag := ((fine s n).tag + 1) % 256 }) s
      let u := supervise n c.channel c.start (resultOf s c.channel v).1
        (if (resultOf s c.channel v).2 then bump P.measOverranges u else u)
      goOn n c (if (fine u n).streaming then streamRecord n c.channel (resultOf s c.channel v).2 (fine s n).tag (resultOf s c.channel v).1 u
        else queueResult ⟨n, c.channel, (fine s n).tag, (resultOf s c.channel v).2, (resultOf s c.channel v).1, c.start⟩ u))) ∧
  (∀ n v c, n ≤ 1 → (fine s n).conv = some c → c.due ≤ now s → c.urgent = false → (fine s n).trigger = 1 → refReady s = false →
    exec (.conversionDone n v) s = .next (onFine n (fun f => { f with conv := none }) s)) ∧
  (∀ n v c, n ≤ 1 → (fine s n).conv = some c → c.due ≤ now s → c.urgent = true → exec (.conversionDone n v) s = .next (settle (
    let u := onFine n (fun f => { f with conv := none, tag := ((fine s n).tag + 1) % 256 }) s
    let u := supervise n c.channel c.start (resultOf s c.channel v).1
      (if (resultOf s c.channel v).2 then bump P.measOverranges u else u)
    each (waitingFor (.conversion n) u) (fun r t => workDone (progOf r.cmd)
      { r with aux := uint 32 (resultOf s c.channel v).1 * 256 + (fine s n).tag } t) u))) ∧
  (∀ n v, (fine s n).conv = none → exec (.conversionDone n v) s = .next s) ∧
  (∀ n v c, (fine s n).conv = some c → (1 < n ∨ now s < c.due) → exec (.conversionDone n v) s = .next s) ∧
  (parGet s P.measRefEn = 1 → s.inst.refAt + msTicks 5 ≤ now s → exec .refBufferReady s = .next (runContinuous 1 (runContinuous 0
    { s with inst := { s.inst with refReady := true } }))) ∧
  (parGet s P.measRefEn ≠ 1 ∨ now s < s.inst.refAt + msTicks 5 → exec .refBufferReady s = .next s) ∧
  (s.inst.slewAt + usTicks 1 ≤ now s → exec .slewLimiterUpdate s = .next (each (List.range 8)
    (fun c t => onCdac c (Cdac.slew (now t) (parGet t (P.measCdacSlew c))) t) { s with inst := { s.inst with slewAt := now s } })) ∧
  (now s < s.inst.slewAt + usTicks 1 → exec .slewLimiterUpdate s = .next s) ∧
  (∀ c, (cdac s c).phase = 2 → (cdac s c).out = 0 → exec (.cdacRangePhaseEnd c) s = .next
    (onCdac c (fun x => { x with phase := 3, phaseAt := now s }) s)) ∧
  (∀ c, (cdac s c).phase = 3 → (cdac s c).phaseAt + usTicks 50 ≤ now s → exec (.cdacRangePhaseEnd c) s = .next
    (onCdac c (fun x => { x with phase := 4, range := x.newRange }) s)) ∧
  (∀ c, (cdac s c).phase = 4 → (cdac s c).out = (cdac s c).target → exec (.cdacRangePhaseEnd c) s = .next
    (queueEvent 0x8005 c (cdac s c).range (onCdac c (fun x => { x with phase := 0, idleSince := now s }) s))) ∧
  (∀ c, ((cdac s c).phase ≤ 1 ∨ 4 < (cdac s c).phase ∨ ((cdac s c).phase = 2 ∧ (cdac s c).out ≠ 0) ∨
      ((cdac s c).phase = 3 ∧ now s < (cdac s c).phaseAt + usTicks 50) ∨ ((cdac s c).phase = 4 ∧ (cdac s c).out ≠ (cdac s c).target)) →
    exec (.cdacRangePhaseEnd c) s = .next s)

/-- Deadlines and restarts (03 R82 to R88): a stage timeout in a domain that runs is counted and reported, and the item whose
output it replaces misses its deadline; a domain's watchdog, 10 ms after the domain last served it, is counted and reported
once a period; a restart that completes lets the domain run and fade in, its watchdog count begins afresh, rods start as ABC
starts, analog functions as ANA starts, and clock outputs as CKG starts. Each row that comes at another time changes nothing.
It rests also on the model's own choices: log entries 42 and 80. -/
def Obligations.DeadlineInstants : Prop := ∀ (d : Nat) (s : State),
  (∀ g w, d ≤ 11 → domOn s d = true → restarting s d = false → exec (.stageTimeout d g (some w)) s = .next (
    let u := queueEvent 0xA010 d g (bump P.rckStageTimeouts s)
    { u with rck := { u.rck with stalled := u.rck.stalled ++ [(dueAfter u d w, ⟨d, w, stretched u d⟩)] } })) ∧
  (∀ g, d ≤ 11 → domOn s d = true → restarting s d = false → exec (.stageTimeout d g none) s = .next
    (queueEvent 0xA010 d g (bump P.rckStageTimeouts s))) ∧
  (∀ g w, 11 < d ∨ domOn s d = false ∨ restarting s d = true → exec (.stageTimeout d g w) s = .next s) ∧
  (2 ≤ d → d ≤ 11 → domOn s d = true → restarting s d = false → s.rck.wdog.contains d = false →
    (∀ t, smFind s.rck.servedAt d = some t → t + 1228800 ≤ now s) → exec (.domainWdog d) s = .next
    (queueEvent 0xA012 d 0 (bump P.rckDomainWdog { s with rck := { s.rck with wdog := s.rck.wdog ++ [d] } }))) ∧
  (d < 2 ∨ 11 < d ∨ domOn s d = false ∨ restarting s d = true ∨ s.rck.wdog.contains d = true ∨
    (∃ t, smFind s.rck.servedAt d = some t ∧ now s < t + 1228800) → exec (.domainWdog d) s = .next s) ∧
  (restarting s d = true → (d = Dom.ckg → s.clk.pllLocked = true) → exec (.domainRestart d) s = .next (
    let u := { s with rck := { s.rck with restarts := s.rck.restarts.filter (fun e => e != d), fading := smPut s.rck.fading d 2,
                                          servedAt := smPut s.rck.servedAt d (now s) } }
    settle (planResume (if d = Dom.abc then startAbc u else if d = Dom.ana then startAna u
      else if d = Dom.ckg then refreshOuts u else u)))) ∧
  (restarting s Dom.ckg = true → s.clk.pllLocked = false → exec (.domainRestart Dom.ckg) s = .next s) ∧
  (restarting s d = false → exec (.domainRestart d) s = .next s)

/-- Counts of the Tops, the scheduled plan and its steps, and expiries of proposals, patch sequences and perturbations (16
R435, R438, 17 R451, R455, R457, 18 R467). A count of a Top whose domain is on is a reading, or a fault that excludes the Top;
one of a domain that is off is held for the plan. Rows that come before their time change nothing. It rests also on the
model's own choices: log entries 18, 29, 77 and 78. -/
def Obligations.DueInstants : Prop := ∀ (s : State),
  (∀ x, s.seq.running = true → (s.age.countAt = 0 ∨ elapsed s (s.age.countAt + 1228800) = true) → domOn s (topDomain x.top) = true →
    x.top < 32 → topExcluded s x.top = false → topFaulty s x.top x.reading = false → exec (.topsCount [x]) s = .next { s with age :=
      { s.age with countAt := now s
                   readings := smPut s.age.readings x.top ((x.reading :: (smFind s.age.readings x.top).getD []).take 100) } }) ∧
  (∀ x, s.seq.running = true → (s.age.countAt = 0 ∨ elapsed s (s.age.countAt + 1228800) = true) → domOn s (topDomain x.top) = true →
    x.top < 32 → topExcluded s x.top = false → topFaulty s x.top x.reading = true → exec (.topsCount [x]) s = .next (
      keepOffCounts [x] (queueEvent 0xA022 x.top x.reading (bump P.rckTopsFaults
        (parSet P.rckTopsExcluded (Nat.lor (parGet s P.rckTopsExcluded) (2 ^ x.top)) { s with age := { s.age with countAt := now s } }))))) ∧
  (∀ x, s.seq.running = true → (s.age.countAt = 0 ∨ elapsed s (s.age.countAt + 1228800) = true) → domOn s (topDomain x.top) = false →
    x.top < 32 → exec (.topsCount [x]) s = .next { s with age := { s.age with
      countAt := now s, offCounts := smPut s.age.offCounts x.top x.reading } }) ∧
  (∀ l, s.seq.running = true → (s.age.countAt = 0 ∨ elapsed s (s.age.countAt + 1228800) = true) → exec (.topsCount l) s = .next
    (keepOffCounts l (takeReadings l { s with age := { s.age with countAt := now s } }))) ∧
  (∀ l, (s.seq.running = false ∨ (s.age.countAt ≠ 0 ∧ elapsed s (s.age.countAt + 1228800) = false)) → exec (.topsCount l) s = .next s) ∧
  (1440 ≤ parGet s P.rckHoursSincePlan → s.age.plan = none → s.supply.brown = false → s.power.entry = none → s.power.state ≤ 2 →
    exec .scheduledPlan s = .next (settle (startPlan 2 s))) ∧
  (1440 ≤ parGet s P.rckHoursSincePlan → (∀ p, s.age.plan = some p → p.kind ≠ 2 ∧ p.kind ≠ 3) →
    (s.age.plan.isSome = true ∨ s.supply.brown = true ∨ s.power.entry.isSome = true ∨ 2 < s.power.state) →
    exec .scheduledPlan s = .next (settle { s with age := { s.age with due := s.age.due.filter (fun k => k != 2) ++ [2] } })) ∧
  (parGet s P.rckHoursSincePlan < 1440 ∨ (∃ p, s.age.plan = some p ∧ (p.kind = 2 ∨ p.kind = 3)) → exec .scheduledPlan s = .next s) ∧
  (∀ l p, s.age.plan = some p → elapsed s (p.stepAt + usTicks (parGet s P.rckVselSettle + 1000)) = false →
    exec (.knobStepVerified l) s = .next s) ∧
  (∀ l, (∀ p, s.age.plan = some p → p.verifying = none ∧ elapsed s (p.stepAt + usTicks (parGet s P.rckVselSettle + 1000)) = true) →
    exec (.knobStepVerified l) s = .next (settle s)) ∧
  (∀ l p, s.age.plan = some p → elapsed s (p.stepAt + usTicks (parGet s P.rckVselSettle + 1000)) = true →
    exec (.knobStepVerified l) s = .next (settle (afterPlan (some p) (verifyStep l s)))) ∧
  (∀ l p, s.age.plan = some p → elapsed s (p.stepAt + usTicks (parGet s P.rckVselSettle + 1000)) = true → p.verifying = some true →
    (let tops := l.filter (fun x => decide (x.top < 32) && domOn s (topDomain x.top) && !topExcluded s x.top)
     p.u * |gainOf (vselNow s) (biasNow s) - gainOf (vselNow s - 1) (biasNow s)| / 4 ≤ changeSeen tops s →
     (takeReadings tops s).age.plan = some p → exec (.knobStepVerified l) s = .next (settle
       { takeReadings tops s with age := { (takeReadings tops s).age with plan := some { p with verifying := none } } }))) ∧
  (∀ p, s.prot.proposal = some p → p.patch = none → p.made + sec30 ≤ now s → exec .cosignExpired s = .next
    (raiseAlert (fun f => { f with alertCosign := true }) (queueEvent 0xB004 (roleNo p.role) (if p.approved then 2 else 1)
      (bump P.protExpiries { s with prot := { s.prot with proposal := none } })))) ∧
  (∀ p, s.prot.proposal = some p → p.patch.isSome = true → p.patchAt + sec30 ≤ now s → exec .patchSequenceTimeout s = .next
    (raiseAlert (fun f => { f with alertCosign := true }) (queueEvent 0xB004 (roleNo p.role) 3
      (bump P.protExpiries { s with prot := { s.prot with proposal := none } })))) ∧
  ((∀ p, s.prot.proposal = some p → p.patch.isSome = true ∨ now s < p.made + sec30) → exec .cosignExpired s = .next s) ∧
  ((∀ p, s.prot.proposal = some p → p.patch = none ∨ now s < p.patchAt + sec30) → exec .patchSequenceTimeout s = .next s) ∧
  (∀ n p, smFind s.rattle.armed n = some p → p.isArmed = true → p.again.elim p.armedAt (fun x => x.2.2) + sec1 * parGet s P.tstArmLimit ≤ now s →
    exec (.rattleArmLimit n) s = .next (queueEvent 0xF002 n 2 { s with rattle := { s.rattle with
      armed := smPut s.rattle.armed n { p with stopping := true, again := none } } })) ∧
  (∀ n, (∀ p, smFind s.rattle.armed n = some p → p.isArmed = false ∨ now s < p.again.elim p.armedAt (fun x => x.2.2) + sec1 * parGet s P.tstArmLimit) →
    exec (.rattleArmLimit n) s = .next s)

/-- The period boundary (01 R21, 03 R76, R82 to R85): while the timebase runs, the taps of the period that ends are written
and its blocks closed, the timebase goes to the next boundary and the clock outputs and the reference with it, rods run and
misses are judged, changes take effect, every source and output has its samples, and the domains that missed or whose watchdog
expired restart; writing the taps and closing the blocks leaves the timebase, the commands in progress and the clocks as they
are; without the timebase nothing happens. It rests also on the model's own choices: log entries 42 and 65. -/
def Obligations.PeriodBoundary : Prop := ∀ (env : PeriodEnv) (s : State),
  (tbRuns s = true → exec (.periodTick env) s = .next (
    let a := clockTick env (closeBlocks (writeTaps { s with timebase := BitVec.ofNat 64 ((period s + 1) * periodLen) }))
    let j := judge (lateAt a env) (runRods env.aborts (lateAt a env) a)
    let b := countFrames j.1
    let c := pertTick (boundaryChanges env b)
    settle (restartOffenders a.rck.wdog j.2 (flow env (buildFrames b c.rck.missed c))))) ∧
  (closeBlocks (writeTaps { s with timebase := BitVec.ofNat 64 ((period s + 1) * periodLen) })).timebase =
    BitVec.ofNat 64 ((period s + 1) * periodLen) ∧
  (closeBlocks (writeTaps { s with timebase := BitVec.ofNat 64 ((period s + 1) * periodLen) })).running = s.running ∧
  (closeBlocks (writeTaps { s with timebase := BitVec.ofNat 64 ((period s + 1) * periodLen) })).clk = s.clk ∧
  (s.clk.pllLocked = false ∨ s.clk.bridging = true → exec (.periodTick env) s = .next s)

/-- Every command, from every state, answers a next state, and leaves the queue of waiting commands as it found it. It rests
also on the model's own choices: log entries 1 and 3. -/
def Obligations.EveryCommandCompletes : Prop := ∀ (c : Instr) (s : State), ∃ t, exec c s = .next t ∧ t.pending = s.pending

/-- Only the commands that write the RAM of the MEM domain change it: after every other command each byte of it reads as
before (10 R301, 13 R378, 17 to 19). It rests also on the model's own choices: log entry 7. -/
def Obligations.MemoryFrame : Prop := ∀ (c : Instr) (s t : State), memWriter c = false → exec c s = .next t →
  ∀ a, smGet 0 t.mem a = smGet 0 s.mem a

/-- The canonical form of the RAM: addresses strictly rising, no listed byte equal to what an unlisted one reads as (0, the
model's choice, log entry 7). Every step keeps it, from every state. It rests also on the model's own choices: log entries 6
and 7. -/
def Obligations.MemoryFormKept : Prop := ∀ (s t : State), Memory.wf s.mem → step s = .next t → Memory.wf t.mem

/-- On an empty queue the block idles (the model's choice, log entry 2): the timebase counts one sample-clock cycle while it
runs and the next cycle is not a period boundary; otherwise nothing changes. It rests also on the model's own choices: log
entry 2. -/
def Obligations.IdleStep : Prop := ∀ (s : State), s.pending = [] →
  (s.clk.pllLocked = true → s.clk.bridging = false → (s.timebase.toNat + 1) % 61440 ≠ 0 →
    step s = .next { s with timebase := s.timebase + 1 }) ∧
  (s.clk.pllLocked = false ∨ s.clk.bridging = true ∨ (s.timebase.toNat + 1) % 61440 = 0 → step s = .next s)

/-- Packet layouts in both directions (02 R45, R58, 00 R9, R10): for every well-formed host command whose counts its layout
admits, reading the parameters that the layout writes gives the command back, every operand at every value of its field. It
rests also on the model's own choices: log entry 1. -/
def Obligations.PacketRoundTrip : Prop := ∀ (c : Instr) (h : Hdr) (op : Nat) (params : List Byte),
  c.wf = true → fitsPacket c = true → encodeCmd c = some (h, op, params) → decodeCmd h op params = some (canonical c)

/-- The state right after power-up (00 R15, 02 R40, R63, 04 R96, 05 R125, R149, 08 R239, 09 R265, 15 R404, 19 R491): what each
part of the machine holds before its first reset release. It rests also on the model's own choices: log entries 4 and 7. -/
def Obligations.ResetState : Prop :=
  State.reset.timebase = 0 ∧ State.reset.front.intMask = 0x0000000B ∧ State.reset.front.groupMask = 0x7F ∧
  State.reset.rf.a.gain = 12 ∧ State.reset.rf.a.fixed = false ∧ State.reset.rf.b.gain = 12 ∧ State.reset.rf.b.fixed = false ∧
  (∀ f c, permitted State.reset.rf.perm c f = false) ∧
  ceilingOf State.reset.tx.steps = 0 ∧ (∀ k, stepLevel State.reset.tx.steps k = -4660 + 50 * (k : Int)) ∧
  (∀ l, (link State.reset l).isOpen = false ∧ (link State.reset l).tapsA.w = [0, 0, 0, 0, 4096, 0, 0, 0]) ∧
  (∀ c, (carrier State.reset c).phase = .closed) ∧ (∀ n, (session State.reset n).phase = .free) ∧
  (∀ n, (rod State.reset n).phase = .free) ∧ (∀ p, (port State.reset p).phase = .unconfigured) ∧
  State.reset.cl.phase = .stopped ∧ State.reset.events.queue = [] ∧
  (∀ k, cmdLevel State.reset k = 0 ∧ (chan State.reset k).replies = [] ∧ tagsInFlight (chan State.reset k) = 0) ∧
  State.reset.prot.proposal = none ∧ parGet State.reset P.rckHeadroom = 120 ∧
  (∀ a, smGet 0 State.reset.mem a = 0) ∧ State.reset.pending = []

/-- The RAM of the MEM domain has its canonical form at reset. It rests also on the model's own choices: log entries 6 and 7.
-/
def Obligations.ResetMemoryForm : Prop := Memory.wf State.reset.mem

/-- The CRC of packets (02 R46): the check value, the bit-by-bit rule, and where the CRC stands in a packet. -/
def Obligations.PacketCrc : Prop :=
  crc16 [0x31, 0x32, 0x33, 0x34, 0x35, 0x36, 0x37, 0x38, 0x39] = 0x29B1 ∧ crc16 [] = 0xFFFF ∧
  (∀ (bs : List Byte) (b : Byte), crc16 (bs ++ [b]) = ((List.range 8).foldl (fun (r : BitVec 16) i =>
    if r.getLsbD 15 = b.getLsbD (7 - i) then r <<< 1 else (r <<< 1) ^^^ 0x1021#16) (BitVec.ofNat 16 (crc16 bs))).toNat) ∧
  (∀ op tag done st payload, ∃ body, replyBytes op tag done st payload =
    body ++ [BitVec.ofNat 8 (crc16 body), BitVec.ofNat 8 (crc16 body / 256)]) ∧
  (∀ (k : Chan) (body : List Byte) (lo hi : Byte) (s : State), 4 ≤ body.length →
    (packetIn k (body ++ [lo, hi]) s = if crc16 body = lo.toNat + 256 * hi.toNat then
      pump { s with waiting := s.waiting ++ [⟨hdrOf k body, fldAt body 0 1, body.drop 4,
        decodeCmd (hdrOf k body) (fldAt body 0 1) (body.drop 4), body.length + 2⟩] }
      else bump P.sysBadCrcCount (onChan k (placeReply (badCrcReply body) none) s)))

/-- A packet pushed byte by byte (02 R42, R45, R46, R50, R51): on a channel that assembles nothing, whose FIFO has room, the
bytes of a packet with a correct CRC leave the command at the end of the packets that wait, and those that may start do. It
rests also on the model's own choices: log entry 1. -/
def Obligations.PacketAssembly : Prop := ∀ (k : Chan) (op flags : Byte) (params : List Byte) (s : State),
  params.length ≤ 1024 → (chan s k).discard = false → (chan s k).asm = [] → cmdLevel s k + 6 + params.length ≤ 2048 →
  (let body := [op, flags] ++ leBytes 2 params.length ++ params
   let h : Hdr := { ch := k, tag := flags.toNat % 16, roc := flags.getLsbD 4, cosign := flags.getLsbD 5 }
   each (body ++ leBytes 2 (crc16 body)) (pushByte k) s =
     pump { s with waiting := s.waiting ++ [⟨h, op.toNat, params, decodeCmd h op.toNat params, 6 + params.length⟩] })

/-- RF_GET_SPECTRUM (05 R153): the levels of the bins from the one that holds the start frequency, a bin never measured and
each bin from 4077 as 0x8000, and the refusal of a request past bin 4095. -/
def Obligations.SpectrumReply : Prop := ∀ (h : Hdr) (f n : Nat) (s : State), 470000000 ≤ f → 1 ≤ n → n ≤ 1024 →
  Starts (.rfGetSpectrum h f n) h 0x25 s →
  ((f - 470000000) / 130000 + n ≤ 4096 → exec (.rfGetSpectrum h f n) s = .next (replied h 0x25 ((List.range n).flatMap (fun i =>
    let b := (f - 470000000) / 130000 + i
    let peak := (smGet PlanBin.reset s.rf.bins b).peak
    sBytes 2 (if peak = 0 ∨ 4077 ≤ b then -32768 else -600 + 2 * (peak : Int)))) (started h s))) ∧
  (4096 < (f - 470000000) / 130000 + n →
    exec (.rfGetSpectrum h f n) s = .next (turnedAway h 0x25 .badParam (started h s)))

/-- The pointers of a rod (10 R288): SETP, post-modify with and without a modulus, one modification of a pointer that is named
twice, and accesses that use the pointers as they were. -/
def Obligations.PointerPostModify : Prop := ∀ (r : Rod) (c : Sats) (p : Nat), p < 4 →
  r.ap.length = 4 → r.ba.length = 4 →
  (let ap := r.ap.getD p 0
   let step := if r.ml.getD p 0 = 0 then (ap + r.md.getD p 0) % 1024
     else r.ba.getD p 0 + (ap - r.ba.getD p 0 + r.md.getD p 0) % (r.ml.getD p 0 : Int)
   (∀ v q, q < 4 → ((runBead (.setp q 0 v) (r, c)).1.ap.getD p 0 = (if q = p then (v : Int) else ap) ∧
     (runBead (.setp q 0 v) (r, c)).1.ba.getD p 0 = (if q = p then (v : Int) else r.ba.getD p 0))) ∧
   (∀ m b, (b = .mpy m ∨ b = .mac m ∨ b = .msu m ∨ b = .macl m) →
     (runBead b (r, c)).1.ap.getD p 0 = (if (m.xp = p ∧ m.xm = true) ∨ (m.yp = p ∧ m.ym = true) then step else ap) ∧
     (runBead b (r, c)).1.ba = r.ba ∧ (runBead b (r, c)).1.md = r.md ∧ (runBead b (r, c)).1.ml = r.ml) ∧
   (∀ o b, (b = .ld o ∨ b = .ldx o ∨ b = .add o ∨ b = .sub o ∨ b = .max o ∨ b = .min o ∨ b = .st o ∨ b = .stx o) →
     (runBead b (r, c)).1.ap.getD p 0 = (if o.p = p ∧ o.pm = true then step else ap) ∧
     (runBead b (r, c)).1.ba = r.ba ∧ (runBead b (r, c)).1.md = r.md ∧ (runBead b (r, c)).1.ml = r.ml) ∧
   (∀ m, let x (b : Nat) := readWord r true (beadAddr true m.xs b (r.ap.getD m.xp 0))
     let x2 (b : Nat) := readWord r true (beadAddr true m.xs b (stepPtr r m.xp 1)) % 65536
     let y (b : Nat) := readWord r m.yData (beadAddr m.yData m.ys b (r.ap.getD m.yp 0))
     (runBead (.mpy m) (r, c)).1.acc = beads.map (fun b => acc40 (x b * y b)) ∧
     (runBead (.mac m) (r, c)).1.acc = beads.map (fun b => acc40 (accOf r b + x b * y b)) ∧
     (runBead (.msu m) (r, c)).1.acc = beads.map (fun b => acc40 (accOf r b - x b * y b)) ∧
     (runBead (.macl m) (r, c)).1.acc = beads.map (fun b => acc40 (accOf r b + x2 b * y b / 256))) ∧
   (∀ o, let x (b : Nat) := readWord r o.flag (beadAddr o.flag o.sp b (r.ap.getD o.p 0)) * 2 ^ o.sh
     let z (b : Nat) := readWord r true (beadAddr true o.sp b (r.ap.getD o.p 0)) * 256 +
       readWord r true (beadAddr true o.sp b (stepPtr r o.p 1)) % 256
     let at0 (b : Nat) := beadAddr true o.sp b (r.ap.getD o.p 0)
     let at1 (b : Nat) := beadAddr true o.sp b (stepPtr r o.p 1)
     let q (b : Nat) := storeRound o.flag o.sh (accOf r b)
     let q24 (b : Nat) := clampI (-8388608) 8388607 (q b)
     (runBead (.ld o) (r, c)).1.acc = beads.map (fun b => acc40 (x b)) ∧
     (runBead (.add o) (r, c)).1.acc = beads.map (fun b => acc40 (accOf r b + x b)) ∧
     (runBead (.sub o) (r, c)).1.acc = beads.map (fun b => acc40 (accOf r b - x b)) ∧
     (runBead (.max o) (r, c)).1.acc = beads.map (fun b => acc40 (max (accOf r b) (x b))) ∧
     (runBead (.min o) (r, c)).1.acc = beads.map (fun b => acc40 (min (accOf r b) (x b))) ∧
     (runBead (.ldx o) (r, c)).1.acc = beads.map (fun b => acc40 (z b * 2 ^ o.sh)) ∧
     (runBead (.st o) (r, c)).1.data = beads.foldl (fun d b => smSet 0 d (at0 b) (clampI (-32768) 32767 (q b))) r.data ∧
     (runBead (.stx o) (r, c)).1.data = beads.foldl (fun d b => smSet 0 (smSet 0 d (at0 b) (q24 b / 256)) (at1 b) (q24 b % 256)) r.data))

/-- A host command that starts at once and whose checks fail ends with the status of the first that fails (02 R50, R53), in
every form of every well-formed command: what the checks themselves count stands, and nothing else of the machine changes. The
checks of a command, `ownChecks (progOf c)`, are those of its own rules and, last, that the power state and the rails allow
the domains it needs (02 R54). A command in the protected set whose checks pass and that comes without the COSIGN flag ends
with NEEDS_COSIGN (02 R56, 16 R428); whether it is in the set is its `guard`. (An opcode that the table lacks has its clause
in `SystemCommands`.) After POWER_STATE_REQUEST what waits for a quiet instant follows, by `settle`. It rests also on the
model's own choices: log entry 27. -/
def Obligations.RefusedCommands : Prop := ∀ (c : Instr) (h : Hdr) (op : Nat) (s u : State) (st : Status),
  c.wf = true → Starts c h op s →
  ((ownChecks (progOf c) (started h s) = (st, u) ∧ st ≠ .ok) ∨ (ownChecks (progOf c) (started h s) = (.ok, u) ∧
    (∃ extra, (progOf c).guard (started h s) = some extra) ∧ h.cosign = false ∧ st = .needsCosign ∧ u = started h s)) →
  ((∀ g t, c ≠ .powerStateRequest g t) → (∀ g o, c ≠ .badOpcode g o) → exec c s = .next (turnedAway h op st u)) ∧
  (∀ g t, c = .powerStateRequest g t → exec c s = .next (settle (turnedAway h op st u)))
end

