-- ==== Sys2Proof/Laws/Memory.lean ====
section
/-! SUPPORT. The canonical form of a sparse map is kept by every map operation; the vocabulary of the frame lemmas. -/

namespace Sys2Proof.Machine

def Still (s : State) (o : Host.Outcome State Fault Refusal) : Prop := ∀ t, o = .next t → t.pending = s.pending
def Quiet (s : State) (o : Host.Outcome State Fault Refusal) : Prop := ∀ t, o = .next t → t.pending = s.pending ∧ t.mem = s.mem

@[simp] theorem still_next (s t : State) : Still s (.next t) ↔ t.pending = s.pending := by simp [Still]
@[simp] theorem quiet_next (s t : State) : Quiet s (.next t) ↔ (t.pending = s.pending ∧ t.mem = s.mem) := by simp [Quiet]

@[simp] theorem each_pending {β : Type} (l : List β) (f : β → State → State) (s : State)
    (h : ∀ x s, (f x s).pending = s.pending) : (each l f s).pending = s.pending := by
  induction l generalizing s with
  | nil => rfl
  | cons x l ih => exact (ih (f x s)).trans (h x s)
@[simp] theorem each_mem {β : Type} (l : List β) (f : β → State → State) (s : State)
    (h : ∀ x s, (f x s).mem = s.mem) : (each l f s).mem = s.mem := by
  induction l generalizing s with
  | nil => rfl
  | cons x l ih => exact (ih (f x s)).trans (h x s)

@[simp] theorem ite_pending (c : Prop) [Decidable c] (a b : State) :
    (if c then a else b).pending = if c then a.pending else b.pending := by split <;> rfl
@[simp] theorem ite_mem (c : Prop) [Decidable c] (a b : State) : (if c then a else b).mem = if c then a.mem else b.mem := by
  split <;> rfl

def MemWf (m : SMap Nat) : Prop := smWf (fun _ => 0) m
def WfAfter (o : Host.Outcome State Fault Refusal) : Prop := ∀ t, o = .next t → MemWf t.mem
@[simp] theorem wfAfter_next (t : State) : WfAfter (.next t) ↔ MemWf t.mem := by simp [WfAfter]
@[simp] theorem memWf_nil : MemWf [] := ⟨List.Pairwise.nil, by simp⟩
theorem smErase_sub {α : Type} (m : SMap α) (k : Nat) : ∀ p ∈ smErase m k, p ∈ m := by
  induction m with
  | nil => simp [smErase]
  | cons q m ih =>
    intro p hp
    unfold smErase at hp
    split at hp
    · exact List.mem_cons_of_mem _ hp
    · rcases List.mem_cons.1 hp with h | h
      · exact h ▸ List.mem_cons_self
      · exact List.mem_cons_of_mem _ (ih p h)
theorem smErase_wf {α : Type} (d : Nat → α) (m : SMap α) (k : Nat) (h : smWf d m) : smWf d (smErase m k) := by
  refine ⟨?_, fun p hp => h.2 p (smErase_sub m k p hp)⟩
  have h1 := h.1
  clear h
  induction m with
  | nil => exact List.Pairwise.nil
  | cons q m ih =>
    unfold smErase
    have hc := List.pairwise_cons.1 h1
    split
    · exact hc.2
    · exact List.pairwise_cons.2 ⟨fun p hp => hc.1 p (smErase_sub m k p hp), ih hc.2⟩
theorem smPut_mem {α : Type} (m : SMap α) (k : Nat) (v : α) : ∀ p ∈ smPut m k v, p = (k, v) ∨ p ∈ m := by
  induction m with
  | nil => simp [smPut]
  | cons q m ih =>
    intro p hp
    unfold smPut at hp
    split at hp
    · rcases List.mem_cons.1 hp with h | h
      · exact .inl h
      · exact .inr h
    · split at hp
      · rcases List.mem_cons.1 hp with h | h
        · exact .inl h
        · exact .inr (List.mem_cons_of_mem _ h)
      · rcases List.mem_cons.1 hp with h | h
        · exact .inr (h ▸ List.mem_cons_self)
        · exact (ih p h).imp id (List.mem_cons_of_mem _)
theorem smPut_wf {α : Type} (d : Nat → α) (m : SMap α) (k : Nat) (v : α) (hv : v ≠ d k) (h : smWf d m) :
    smWf d (smPut m k v) := by
  refine ⟨?_, fun p hp => (smPut_mem m k v p hp).elim (fun e => e ▸ hv) (h.2 p)⟩
  have h1 := h.1
  clear h
  induction m with
  | nil => exact List.pairwise_singleton _ _
  | cons q m ih =>
    have hc := List.pairwise_cons.1 h1
    unfold smPut
    split
    · rename_i hk
      exact List.pairwise_cons.2 ⟨fun p hp => (List.mem_cons.1 hp).elim (fun e => e ▸ hk)
        (fun hm => lt_trans hk (hc.1 p hm)), h1⟩
    · split
      · rename_i hk
        exact List.pairwise_cons.2 ⟨fun p hp => hk ▸ hc.1 p hp, hc.2⟩
      · refine List.pairwise_cons.2 ⟨fun p hp => (smPut_mem m k v p hp).elim (fun e => ?_) (hc.1 p), ih hc.2⟩
        subst e
        simp only
        omega
theorem smSet_wf {α : Type} [DecidableEq α] (d : α) (m : SMap α) (k : Nat) (v : α) (h : smWf (fun _ => d) m) :
    smWf (fun _ => d) (smSet d m k v) := by
  unfold smSet
  split
  · exact smErase_wf _ m k h
  · rename_i hv
    exact smPut_wf _ m k v hv h
@[simp] theorem memWf_smSetList (l : List Nat) (m : SMap Nat) (k : Nat) (h : MemWf m) : MemWf (smSetList 0 m k l) := by
  induction l generalizing m k with
  | nil => exact h
  | cons v l ih => exact ih _ _ (smSet_wf 0 m k v h)
@[simp] theorem each_wf {β : Type} (l : List β) (f : β → State → State) (s : State)
    (hf : ∀ x s, MemWf s.mem → MemWf (f x s).mem) (h : MemWf s.mem) : MemWf (each l f s).mem := by
  induction l generalizing s with
  | nil => exact h
  | cons x l ih => exact ih (f x s) (hf x s h)

structure Prog.Keeps (p : Prog) : Prop where
  check : ∀ s, (p.check s).2.pending = s.pending ∧ (p.check s).2.mem = s.mem
  begin : ∀ s, (p.begin s).2.2.pending = s.pending ∧ (p.begin s).2.2.mem = s.mem
  resume : ∀ a s, (p.resume a s).2.2.pending = s.pending ∧ (p.resume a s).2.2.mem = s.mem
  apply : ∀ a s, (p.apply a s).2.2.pending = s.pending ∧ (p.apply a s).2.2.mem = s.mem
  undo : ∀ a s, (p.undo a s).pending = s.pending ∧ (p.undo a s).mem = s.mem
  drop : ∀ s, (p.drop s).pending = s.pending ∧ (p.drop s).mem = s.mem

/-! ### Reads after writes -/

theorem smFind_erase_other {α : Type} (m : SMap α) (k j : Nat) (h : j ≠ k) : smFind (smErase m k) j = smFind m j := by
  induction m with
  | nil => rfl
  | cons q m ih =>
    unfold smErase
    split
    · rename_i hq
      have hj : q.1 ≠ j := fun e => h (e.symm.trans hq)
      simp [smFind, hj]
    · simp [smFind, ih]
theorem smFind_put_other {α : Type} (m : SMap α) (k j : Nat) (v : α) (h : j ≠ k) : smFind (smPut m k v) j = smFind m j := by
  have hk : k ≠ j := fun e => h e.symm
  induction m with
  | nil => simp [smPut, smFind, hk]
  | cons q m ih =>
    unfold smPut
    split
    · simp [smFind, hk]
    · split
      · rename_i hq
        have hj : q.1 ≠ j := fun e => h (e.symm.trans hq)
        simp [smFind, hk, hj]
      · simp [smFind, ih]
@[simp] theorem smFind_put_same {α : Type} (m : SMap α) (k : Nat) (v : α) : smFind (smPut m k v) k = some v := by
  induction m with
  | nil => simp [smPut, smFind]
  | cons q m ih =>
    unfold smPut
    split
    · simp [smFind]
    · split
      · simp [smFind]
      · rename_i h1 h2
        simp [smFind, h2, ih]
theorem smFind_none {α : Type} (m : SMap α) (k : Nat) (h : ∀ p ∈ m, p.1 ≠ k) : smFind m k = none := by
  induction m with
  | nil => rfl
  | cons q m ih =>
    simp [smFind, h q (by simp), ih (fun p hp => h p (by simp [hp]))]
theorem smFind_erase_same {α : Type} (d : Nat → α) (m : SMap α) (k : Nat) (h : smWf d m) : smFind (smErase m k) k = none := by
  have h1 := h.1
  clear h
  induction m with
  | nil => rfl
  | cons q m ih =>
    have hc := List.pairwise_cons.1 h1
    unfold smErase
    split
    · rename_i hq
      exact smFind_none m k (fun p hp => by have := hc.1 p hp; omega)
    · rename_i hq
      simp [smFind, hq, ih hc.2]
/-- A write leaves every other key as it was. -/
theorem smGet_smSet_other {α : Type} [DecidableEq α] (d : α) (m : SMap α) (k j : Nat) (v : α) (h : j ≠ k) :
    smGet d (smSet d m k v) j = smGet d m j := by
  unfold smGet smSet
  split
  · rw [smFind_erase_other m k j h]
  · rw [smFind_put_other m k j v h]
/-- In the canonical form a read after a write gives the value written. -/
theorem smGet_smSet_same {α : Type} [DecidableEq α] (d : α) (m : SMap α) (k : Nat) (v : α) (h : smWf (fun _ => d) m) :
    smGet d (smSet d m k v) k = v := by
  unfold smGet smSet
  split
  · rename_i hv
    rw [smFind_erase_same _ m k h]
    exact hv.symm
  · rw [smFind_put_same]
    rfl
/-- A stored field other than the one written is as it was. -/
theorem parGet_parSet_other (s : State) (k j v : Nat) (h : j ≠ k) : parGet (parSet k v s) j = parGet s j := by
  unfold parGet parSet
  dsimp only
  split
  · rw [smFind_erase_other s.par k j h]
  · rw [smFind_put_other s.par k j v h]
/-- In the canonical form of the store a field written reads as its value. -/
theorem parGet_parSet_same (s : State) (k v : Nat) (h : smWf porValue s.par) : parGet (parSet k v s) k = v := by
  unfold parGet parSet
  dsimp only
  split
  · rename_i hv
    rw [smFind_erase_same _ s.par k h]
    exact hv.symm
  · rw [smFind_put_same]
    rfl

end Sys2Proof.Machine
end

