-- ==== Sys2Proof/Laws/FrameBase.lean ====
section
/-! SUPPORT. What the shared operations leave of the queue and of memory: time, events, replies, the ledger, the command protocol. -/

namespace Sys2Proof.Machine

/-! ### Tick -/

@[simp] theorem idleTick_frame (s : State) :
    (idleTick s).pending = s.pending ∧ (idleTick s).mem = s.mem := by
  simp [idleTick]

/-! ### Ops -/

@[simp] theorem parSet_frame (k : ℕ) (v : ℕ) (s : State) :
    (parSet k v s).pending = s.pending ∧ (parSet k v s).mem = s.mem := by
  simp [parSet]

@[simp] theorem bumpBy_frame (n : ℕ) (k : ℕ) (s : State) :
    (bumpBy n k s).pending = s.pending ∧ (bumpBy n k s).mem = s.mem := by
  simp [bumpBy]

@[simp] theorem bump_frame (k : ℕ) (s : State) :
    (bump k s).pending = s.pending ∧ (bump k s).mem = s.mem := by
  simp [bump]

@[simp] theorem draw_frame (s : State) :
    (draw s).2.pending = s.pending ∧ (draw s).2.mem = s.mem := by
  simp [draw]

@[simp] theorem setDom_frame (d : ℕ) (b : Bool) (s : State) :
    (setDom d b s).pending = s.pending ∧ (setDom d b s).mem = s.mem := by
  simp [setDom]

@[simp] theorem onLink_frame (n : ℕ) (f : Link → Link) (s : State) :
    (onLink n f s).pending = s.pending ∧ (onLink n f s).mem = s.mem := by
  simp [onLink]

@[simp] theorem onCarrier_frame (n : ℕ) (f : Carrier → Carrier) (s : State) :
    (onCarrier n f s).pending = s.pending ∧ (onCarrier n f s).mem = s.mem := by
  simp [onCarrier]

@[simp] theorem onSession_frame (n : ℕ) (f : Session → Session) (s : State) :
    (onSession n f s).pending = s.pending ∧ (onSession n f s).mem = s.mem := by
  simp [onSession]

@[simp] theorem onRod_frame (n : ℕ) (f : Rod → Rod) (s : State) :
    (onRod n f s).pending = s.pending ∧ (onRod n f s).mem = s.mem := by
  simp [onRod]

@[simp] theorem onAudio_frame (f : Audio → Audio) (s : State) :
    (onAudio f s).pending = s.pending ∧ (onAudio f s).mem = s.mem := by
  simp [onAudio]

@[simp] theorem onPort_frame (n : ℕ) (f : Port → Port) (s : State) :
    (onPort n f s).pending = s.pending ∧ (onPort n f s).mem = s.mem := by
  simp [onPort]

@[simp] theorem onRoute_frame (n : ℕ) (f : Route → Route) (s : State) :
    (onRoute n f s).pending = s.pending ∧ (onRoute n f s).mem = s.mem := by
  simp [onRoute]

@[simp] theorem onBus_frame (n : ℕ) (f : Bus → Bus) (s : State) :
    (onBus n f s).pending = s.pending ∧ (onBus n f s).mem = s.mem := by
  simp [onBus]

@[simp] theorem onTap_frame (n : ℕ) (f : Tap → Tap) (s : State) :
    (onTap n f s).pending = s.pending ∧ (onTap n f s).mem = s.mem := by
  simp [onTap]

@[simp] theorem onAna_frame (n : ℕ) (f : AnaObj → AnaObj) (s : State) :
    (onAna n f s).pending = s.pending ∧ (onAna n f s).mem = s.mem := by
  simp [onAna]

@[simp] theorem onCdac_frame (n : ℕ) (f : Cdac → Cdac) (s : State) :
    (onCdac n f s).pending = s.pending ∧ (onCdac n f s).mem = s.mem := by
  simp [onCdac]

@[simp] theorem onFine_frame (n : ℕ) (f : Fine → Fine) (s : State) :
    (onFine n f s).pending = s.pending ∧ (onFine n f s).mem = s.mem := by
  simp [onFine]

@[simp] theorem onSynth_frame (id : ℕ) (f : Synth → Synth) (s : State) :
    (onSynth id f s).pending = s.pending ∧ (onSynth id f s).mem = s.mem := by
  simp [onSynth]

@[simp] theorem raiseAlert_frame (f : Front → Front) (s : State) :
    (raiseAlert f s).pending = s.pending ∧ (raiseAlert f s).mem = s.mem := by
  simp [raiseAlert]

@[simp] theorem queueAt_frame (time : BitVec 64) (code : ℕ) (arg : ℕ) (detail : ℕ) (s : State) :
    (queueAt time code arg detail s).pending = s.pending ∧ (queueAt time code arg detail s).mem = s.mem := by
  simp [queueAt]

@[simp] theorem queueEvent_frame (code : ℕ) (arg : ℕ) (detail : ℕ) (s : State) :
    (queueEvent code arg detail s).pending = s.pending ∧ (queueEvent code arg detail s).mem = s.mem := by
  simp [queueEvent]

@[simp] theorem queueWhenRunning_frame (code : ℕ) (arg : ℕ) (detail : ℕ) (s : State) :
    (queueWhenRunning code arg detail s).pending = s.pending ∧ (queueWhenRunning code arg detail s).mem = s.mem := by
  simp [queueWhenRunning]

@[simp] theorem queueWindow_frame (k : ℕ) (span : ℕ) (code : ℕ) (arg : ℕ) (n : ℕ) (detail : ℕ → ℕ) (s : State) :
    (queueWindow k span code arg n detail s).pending = s.pending ∧ (queueWindow k span code arg n detail s).mem = s.mem := by
  unfold queueWindow; split <;> simp

@[simp] theorem queueCounted_frame (k : ℕ) (span : ℕ) (code : ℕ) (arg : ℕ) (s : State) :
    (queueCounted k span code arg s).pending = s.pending ∧ (queueCounted k span code arg s).mem = s.mem := by
  simp [queueCounted]

@[simp] theorem queueLimited_frame (k : ℕ) (span : ℕ) (code : ℕ) (arg : ℕ) (detail : ℕ) (s : State) :
    (queueLimited k span code arg detail s).pending = s.pending ∧ (queueLimited k span code arg detail s).mem = s.mem := by
  simp [queueLimited]

@[simp] theorem onChan_frame (c : Chan) (f : Channel → Channel) (s : State) :
    (onChan c f s).pending = s.pending ∧ (onChan c f s).mem = s.mem := by
  unfold onChan; split <;> simp

@[simp] theorem sendReply_frame (h : Hdr) (op : ℕ) (completion : Bool) (st : Status) (payload : List Byte) (frees : Bool) (s : State) :
    (sendReply h op completion st payload frees s).pending = s.pending ∧ (sendReply h op completion st payload frees s).mem = s.mem := by
  simp [sendReply]

/-! ### ClockOuts -/

@[simp] theorem refreshOuts_frame (s : State) :
    (refreshOuts s).pending = s.pending ∧ (refreshOuts s).mem = s.mem := by
  simp [refreshOuts]

@[simp] theorem outsFor_frame (d : Nat) (s : State) :
    (outsFor d s).pending = s.pending ∧ (outsFor d s).mem = s.mem := by
  unfold outsFor; (repeat' split) <;> simp

@[simp] theorem restartOuts_frame (s : State) :
    (restartOuts s).pending = s.pending ∧ (restartOuts s).mem = s.mem := by
  simp [restartOuts]

@[simp] theorem primaryEdge_frame (p : Nat) (s : State) :
    (primaryEdge p s).pending = s.pending ∧ (primaryEdge p s).mem = s.mem := by
  simp [primaryEdge]

@[simp] theorem followerEdge_frame (t : Int) (s : State) :
    (followerEdge t s).pending = s.pending ∧ (followerEdge t s).mem = s.mem := by
  simp [followerEdge]

@[simp] theorem syncTick_frame (s : State) :
    (syncTick s).pending = s.pending ∧ (syncTick s).mem = s.mem := by
  unfold syncTick; dsimp only; (repeat' split) <;> simp

@[simp] theorem onClk_frame (f : Clocks → Clocks) (s : State) :
    (onClk f s).pending = s.pending ∧ (onClk f s).mem = s.mem := by
  simp [onClk]

@[simp] theorem refTick_frame (env : PeriodEnv) (s : State) :
    (refTick env s).pending = s.pending ∧ (refTick env s).mem = s.mem := by
  simp [refTick]

@[simp] theorem clockTick_frame (env : PeriodEnv) (s : State) :
    (clockTick env s).pending = s.pending ∧ (clockTick env s).mem = s.mem := by
  simp [clockTick]

/-! ### Cosign -/

@[simp] theorem otpBurn_frame (a : ℕ) (bs : List Byte) (s : State) :
    (otpBurn a bs s).pending = s.pending ∧ (otpBurn a bs s).mem = s.mem := by
  simp [otpBurn]

@[simp] theorem setProposal_frame (p : Option Proposal) (s : State) :
    (setProposal p s).pending = s.pending ∧ (setProposal p s).mem = s.mem := by
  simp [setProposal]

@[simp] theorem alertCosign_frame (s : State) :
    (alertCosign s).pending = s.pending ∧ (alertCosign s).mem = s.mem := by
  simp [alertCosign]

@[simp] theorem expireProposal_frame (s : State) :
    (expireProposal s).pending = s.pending ∧ (expireProposal s).mem = s.mem := by
  unfold expireProposal; split <;> simp

@[simp] theorem judgeExpiry_frame (s : State) :
    (judgeExpiry s).pending = s.pending ∧ (judgeExpiry s).mem = s.mem := by
  unfold judgeExpiry; split <;> simp

@[simp] theorem cosignReject_frame (c : Chan) (reason : ℕ) (s : State) :
    (cosignReject c reason s).pending = s.pending ∧ (cosignReject c reason s).mem = s.mem := by
  simp [cosignReject]

@[simp] theorem cosignCheck_frame (h : Hdr) (image : List Byte) (s : State) :
    (cosignCheck h image s).2.2.pending = s.pending ∧ (cosignCheck h image s).2.2.mem = s.mem := by
  unfold cosignCheck; dsimp only; (repeat' split) <;> simp_all

/-! ### Ledger -/

@[simp] theorem reserveRod_frame (r : ℕ) (kind : RodPhase) (s : State) :
    (reserveRod r kind s).pending = s.pending ∧ (reserveRod r kind s).mem = s.mem := by
  simp [reserveRod]

@[simp] theorem releaseRods_frame (s : State) :
    (releaseRods s).pending = s.pending ∧ (releaseRods s).mem = s.mem := by
  simp [releaseRods]

@[simp] theorem setCharges_frame (cs : List Charge) (s : State) :
    (setCharges cs s).pending = s.pending ∧ (setCharges cs s).mem = s.mem := by
  simp [setCharges]

@[simp] theorem putCharge_frame (c : Charge) (s : State) :
    (putCharge c s).pending = s.pending ∧ (putCharge c s).mem = s.mem := by
  simp [putCharge]

@[simp] theorem askRod_frame (a : Ask) (s : State) :
    (askRod a s).2.2.pending = s.pending ∧ (askRod a s).2.2.mem = s.mem := by
  unfold askRod; (repeat' split) <;> simp

@[simp] theorem enterAsk_frame (key : ℕ) (x : State × Bool) (a : Ask) :
    (enterAsk key x a).1.pending = x.1.pending ∧ (enterAsk key x a).1.mem = x.1.mem := by
  have h : ((if a.cycles = 0 then (none, true, x.1) else askRod a x.1 : Option Nat × Bool × State)).2.2.pending = x.1.pending ∧
      ((if a.cycles = 0 then (none, true, x.1) else askRod a x.1 : Option Nat × Bool × State)).2.2.mem = x.1.mem := by
    split <;> simp
  exact ⟨(putCharge_frame _ _).1.trans h.1, (putCharge_frame _ _).2.trans h.2⟩

@[simp] theorem refuse_frame (res : ℕ) (idx : ℕ) (s : State) :
    (refuse res idx s).pending = s.pending ∧ (refuse res idx s).mem = s.mem := by
  simp [refuse]

theorem enterAsks_frame (key : ℕ) (l : List Ask) (x : State × Bool) :
    (l.foldl (enterAsk key) x).1.pending = x.1.pending ∧ (l.foldl (enterAsk key) x).1.mem = x.1.mem := by
  induction l generalizing x with
  | nil => exact ⟨rfl, rfl⟩
  | cons a l ih => exact ⟨(ih _).1.trans (enterAsk_frame key x a).1, (ih _).2.trans (enterAsk_frame key x a).2⟩
@[simp] theorem admitFor_frame (key : ℕ) (asks : List Ask) (s : State) :
    (admitFor key asks s).2.pending = s.pending ∧ (admitFor key asks s).2.mem = s.mem := by
  have h := enterAsks_frame key asks (s, true)
  unfold admitFor
  dsimp only
  split
  · simp
  · split
    · exact h
    · simp

@[simp] theorem commitFor_frame (key : ℕ) (mine : WorkRef → Bool) (s : State) :
    (commitFor key mine s).pending = s.pending ∧ (commitFor key mine s).mem = s.mem := by
  unfold commitFor
  constructor
  · exact each_pending _ _ _ (fun c s => by (repeat' split) <;> simp)
  · exact each_mem _ _ _ (fun c s => by (repeat' split) <;> simp)

@[simp] theorem dropFor_frame (key : ℕ) (mine : WorkRef → Bool) (s : State) :
    (dropFor key mine s).pending = s.pending ∧ (dropFor key mine s).mem = s.mem := by
  unfold dropFor
  constructor
  · exact each_pending _ _ _ (fun c s => by split <;> simp)
  · exact each_mem _ _ _ (fun c s => by split <;> simp)

@[simp] theorem admitWork_frame (asks : List Ask) (s : State) :
    (admitWork asks s).2.pending = s.pending ∧ (admitWork asks s).2.mem = s.mem := admitFor_frame 0 asks s

@[simp] theorem commitWork_frame (ws : List WorkRef) (s : State) :
    (commitWork ws s).pending = s.pending ∧ (commitWork ws s).mem = s.mem := commitFor_frame 0 _ s

@[simp] theorem dropWork_frame (ws : List WorkRef) (s : State) :
    (dropWork ws s).pending = s.pending ∧ (dropWork ws s).mem = s.mem := dropFor_frame 0 _ s

@[simp] theorem endWork_frame (w : WorkRef) (s : State) :
    (endWork w s).pending = s.pending ∧ (endWork w s).mem = s.mem := by
  unfold endWork; split <;> simp

@[simp] theorem boundaryLedger_frame (s : State) :
    (boundaryLedger s).pending = s.pending ∧ (boundaryLedger s).mem = s.mem := by
  simp [boundaryLedger]

@[simp] theorem forgetBelow_frame (s : State) :
    (forgetBelow s).pending = s.pending ∧ (forgetBelow s).mem = s.mem := by
  simp [forgetBelow]

/-! ### Harness -/

theorem Prog.direct_keeps (check : State → Status) (apply : State → List Byte × State) (needs : List Nat)
    (h : ∀ s, (apply s).2.pending = s.pending ∧ (apply s).2.mem = s.mem) : (Prog.direct check apply needs).Keeps := by
  constructor <;> intros <;> simp [Prog.direct, h]

@[simp] theorem finish_frame (r : Running) (st : Status) (payload : List Byte) (s : State) :
    (finish r st payload s).pending = s.pending ∧ (finish r st payload s).mem = s.mem := by
  unfold finish; split <;> simp

@[simp] theorem complete_frame (p : Prog) (hk : p.Keeps) (r : Running) (s : State) :
    (complete p r s).pending = s.pending ∧ (complete p r s).mem = s.mem := by
  have h := hk.apply r.aux s
  unfold complete
  dsimp only
  split <;> simp [h, hk.undo, hk.drop]

@[simp] theorem undone_frame (p : Prog) (hk : p.Keeps) (r : Running) (s : State) :
    (undone p r s).pending = s.pending ∧ (undone p r s).mem = s.mem := by
  unfold undone
  split <;> simp [hk.undo, hk.drop]

@[simp] theorem failCmd_frame (p : Prog) (hk : p.Keeps) (r : Running) (st : Status) (pl : List Byte) (s : State) :
    (failCmd p r st pl s).pending = s.pending ∧ (failCmd p r st pl s).mem = s.mem := by
  simp [failCmd, hk]

@[simp] theorem stopRunning_frame (r : Running) (s : State) :
    (stopRunning r s).pending = s.pending ∧ (stopRunning r s).mem = s.mem := by
  simp [stopRunning]

@[simp] theorem putRunning_frame (r : Running) (s : State) :
    (putRunning r s).pending = s.pending ∧ (putRunning r s).mem = s.mem := by
  simp [putRunning]

@[simp] theorem injected_frame (n : ℕ) (s : State) :
    (injected n s).pending = s.pending ∧ (injected n s).mem = s.mem := by
  unfold injected; split <;> simp

@[simp] theorem replyHeld_frame (s : State) :
    (replyHeld s).pending = s.pending ∧ (replyHeld s).mem = s.mem := by
  unfold replyHeld; split <;> simp

@[simp] theorem accept_frame (r : Running) (s : State) :
    (accept r s).2.pending = s.pending ∧ (accept r s).2.mem = s.mem := by
  unfold accept; split <;> simp

@[simp] theorem proceed_frame (p : Prog) (hk : p.Keeps) (r : Running) (w : Option Wait) (s : State) :
    (proceed p r w s).pending = s.pending ∧ (proceed p r w s).mem = s.mem := by
  rcases w with _ | w
  · simp only [proceed]
    split <;> simp [hk]
  · cases w <;> simp [proceed]

@[simp] theorem beginWork_frame (p : Prog) (hk : p.Keeps) (r : Running) (s : State) :
    (beginWork p r s).pending = s.pending ∧ (beginWork p r s).mem = s.mem := by
  have h := hk.begin s
  simp [beginWork, hk, h]

@[simp] theorem resumeWork_frame (p : Prog) (hk : p.Keeps) (r : Running) (s : State) :
    (resumeWork p r s).pending = s.pending ∧ (resumeWork p r s).mem = s.mem := by
  have h := hk.resume r.aux (accept r s).2
  simp [resumeWork, hk, hk.resume]

@[simp] theorem workDone_frame (p : Prog) (hk : p.Keeps) (r : Running) (s : State) :
    (workDone p r s).pending = s.pending ∧ (workDone p r s).mem = s.mem := by
  simp [workDone, hk]

@[simp] theorem wakeDomain_frame (d : ℕ) (s : State) :
    (wakeDomain d s).pending = s.pending ∧ (wakeDomain d s).mem = s.mem := by
  simp [wakeDomain]

@[simp] theorem needDomains_frame (p : Prog) (hk : p.Keeps) (r : Running) (s : State) :
    (needDomains p r s).pending = s.pending ∧ (needDomains p r s).mem = s.mem := by
  unfold needDomains
  split
  · split
    · simp [hk]
    · by_cases hl : p.late s = true <;> simp [hl]
  · simp [hk]

@[simp] theorem ownChecks_frame (p : Prog) (hk : p.Keeps) (s : State) :
    (ownChecks p s).2.pending = s.pending ∧ (ownChecks p s).2.mem = s.mem := by
  have h := hk.check s
  unfold ownChecks
  (repeat' split) <;> simp_all

@[simp] theorem runCmd_frame (p : Prog) (hk : p.Keeps) (r : Running) (params : List Byte) (s : State) :
    (runCmd p r params s).pending = s.pending ∧ (runCmd p r params s).mem = s.mem := by
  have h := ownChecks_frame p hk s
  unfold runCmd
  dsimp only
  split
  · simp [h]
  · split
    · simp [hk, h]
    · rename_i extra hg
      have hc := cosignCheck_frame r.hdr (canonicalImage r.op params ++ extra) s
      split
      · split <;> simp_all
      · split <;> simp_all

@[simp] theorem launch_frame (p : Prog) (hk : p.Keeps) (cmd : Instr) (h : Hdr) (op : Nat) (params : List Byte) (s : State) :
    (launch p cmd h op params s).pending = s.pending ∧ (launch p cmd h op params s).mem = s.mem := by
  unfold launch
  dsimp only
  split <;> simp [hk]

@[simp] theorem refuseTag_frame (h : Hdr) (op : ℕ) (st : Status) (s : State) :
    (refuseTag h op st s).pending = s.pending ∧ (refuseTag h op st s).mem = s.mem := by
  simp [refuseTag]

@[simp] theorem enterDiscard_frame (c : Chan) (cause : ℕ) (s : State) :
    (enterDiscard c cause s).pending = s.pending ∧ (enterDiscard c cause s).mem = s.mem := by
  simp [enterDiscard]

@[simp] theorem submit_frame (p : Prog) (hk : p.Keeps) (cmd : Instr) (s : State) :
    (submit p cmd s).pending = s.pending ∧ (submit p cmd s).mem = s.mem := by
  unfold submit
  (repeat' split) <;> simp [hk]

/-! ### System -/

@[simp] theorem progNop_keeps  : (progNop).Keeps := by
  constructor <;> intros <;> simp [progNop, Prog.direct]

@[simp] theorem execNop_frame (h : Hdr) (s : State) :
    Quiet s (execNop h s) := by
  simp only [execNop]; simp

@[simp] theorem progGetInfo_keeps  : (progGetInfo).Keeps := by
  constructor <;> intros <;> simp [progGetInfo, Prog.direct]

@[simp] theorem execGetInfo_frame (h : Hdr) (s : State) :
    Quiet s (execGetInfo h s) := by
  simp only [execGetInfo]; simp

@[simp] theorem progReset_keeps (h : Hdr) (kind : ℕ) : (progReset h kind).Keeps := by
  constructor <;> intros <;> simp [progReset, Prog.direct]

@[simp] theorem execReset_frame (h : Hdr) (kind : ℕ) (s : State) :
    Quiet s (execReset h kind s) := by
  simp only [execReset]; simp

@[simp] theorem reportLost_frame (s : State) :
    (reportLost s).pending = s.pending ∧ (reportLost s).mem = s.mem := by
  simp [reportLost]

@[simp] theorem progGetEvents_keeps (n : ℕ) : (progGetEvents n).Keeps := by
  constructor <;> intros <;> simp [progGetEvents, Prog.direct]

@[simp] theorem execGetEvents_frame (h : Hdr) (maxRecs : ℕ) (s : State) :
    Quiet s (execGetEvents h maxRecs s) := by
  simp only [execGetEvents]; simp

@[simp] theorem progSetEventMask_keeps (block : ℕ) (mode : ℕ) : (progSetEventMask block mode).Keeps := by
  constructor <;> intros <;> simp [progSetEventMask, Prog.direct]

@[simp] theorem execSetEventMask_frame (h : Hdr) (block : ℕ) (mode : ℕ) (s : State) :
    Quiet s (execSetEventMask h block mode s) := by
  simp only [execSetEventMask]; simp

@[simp] theorem progTimeRead_keeps  : (progTimeRead).Keeps := by
  constructor <;> intros <;> simp [progTimeRead, Prog.direct]

@[simp] theorem execTimeRead_frame (h : Hdr) (s : State) :
    Quiet s (execTimeRead h s) := by
  simp only [execTimeRead]; simp

@[simp] theorem progTimeSetAlarm_keeps (time : ℕ) (action : ℕ) : (progTimeSetAlarm time action).Keeps := by
  constructor <;> intros <;> simp [progTimeSetAlarm, Prog.direct]

@[simp] theorem execTimeSetAlarm_frame (h : Hdr) (time : ℕ) (action : ℕ) (s : State) :
    Quiet s (execTimeSetAlarm h time action s) := by
  simp only [execTimeSetAlarm]; simp

@[simp] theorem progBadOpcode_keeps  : (progBadOpcode).Keeps := by
  constructor <;> intros <;> simp [progBadOpcode, Prog.direct]

@[simp] theorem execBadOpcode_frame (h : Hdr) (op : ℕ) (s : State) :
    Quiet s (execBadOpcode h op s) := by
  simp only [execBadOpcode]; simp

@[simp] theorem progBadLength_keeps  : (progBadLength).Keeps := by
  constructor <;> intros <;> simp [progBadLength, Prog.direct]

end Sys2Proof.Machine
end

