-- ==== Sys2Proof/Laws/FrameCommands.lean ====
section
/-! SUPPORT. What the radio, audio and instrumentation commands leave of the queue and of memory. -/

namespace Sys2Proof.Machine

/-! ### Spectrum -/

@[simp] theorem startLock_frame (id : ℕ) (f : ℕ) (s : State) :
    (startLock id f s).pending = s.pending ∧ (startLock id f s).mem = s.mem := by
  simp [startLock]

@[simp] theorem stopSynth_frame (id : ℕ) (s : State) :
    (stopSynth id s).pending = s.pending ∧ (stopSynth id s).mem = s.mem := by
  simp [stopSynth]

@[simp] theorem dropLo_frame (id : ℕ) (s : State) :
    (dropLo id s).pending = s.pending ∧ (dropLo id s).mem = s.mem := by
  unfold dropLo; dsimp only; (repeat' split) <;> simp

@[simp] theorem relockWindow_frame (id : ℕ) (s : State) :
    (relockWindow id s).pending = s.pending ∧ (relockWindow id s).mem = s.mem := by
  simp [relockWindow]

@[simp] theorem needLock_frame (id : ℕ) (s : State) :
    (needLock id s).2.2.pending = s.pending ∧ (needLock id s).2.2.mem = s.mem := by
  unfold needLock; (repeat' split) <;> simp

/-! ### RfCommands -/

@[simp] theorem fastMode_frame (span : Nat) (s : State) :
    (fastMode span s).pending = s.pending ∧ (fastMode span s).mem = s.mem := by
  simp [fastMode]

@[simp] theorem withTone_frame (f : State → State) (s : State)
    (hf : ∀ s, (f s).pending = s.pending ∧ (f s).mem = s.mem) :
    (withTone f s).pending = s.pending ∧ (withTone f s).mem = s.mem := by
  have h := hf s
  unfold withTone; dsimp only; split
  · exact h
  · exact h

@[simp] theorem startQcal_frame (s : State) :
    (startQcal s).pending = s.pending ∧ (startQcal s).mem = s.mem := by
  simp [startQcal]

@[simp] theorem qcalRecord_frame (s : State) :
    (qcalRecord s).pending = s.pending ∧ (qcalRecord s).mem = s.mem := by
  simp [qcalRecord]

@[simp] theorem progRfTuneWindow_keeps (path : ℕ) (edge : ℕ) : (progRfTuneWindow path edge).Keeps := by
  constructor <;> intros <;> simp [progRfTuneWindow, Prog.direct, apply_ite Prod.fst, apply_ite Prod.snd]

@[simp] theorem execRfTuneWindow_frame (h : Hdr) (path : ℕ) (edge : ℕ) (s : State) :
    Quiet s (execRfTuneWindow h path edge s) := by
  simp only [execRfTuneWindow]; simp

@[simp] theorem startFullCal_frame (s : State) :
    (startFullCal s).pending = s.pending ∧ (startFullCal s).mem = s.mem := by
  simp [startFullCal]

@[simp] theorem startImageWork_frame (s : State) :
    (startImageWork s).pending = s.pending ∧ (startImageWork s).mem = s.mem := by
  simp [startImageWork]

@[simp] theorem recordCal_frame (s : State) :
    (recordCal s).pending = s.pending ∧ (recordCal s).mem = s.mem := by
  simp [recordCal]

@[simp] theorem calUndone_frame (id : Nat) (s : State) :
    (calUndone id s).pending = s.pending ∧ (calUndone id s).mem = s.mem := by
  unfold calUndone; dsimp only; (repeat' split) <;> simp

@[simp] theorem progRfCalibrate_keeps (items : ℕ) : (progRfCalibrate items).Keeps := by
  constructor <;> intros <;> simp [progRfCalibrate, Prog.direct]

@[simp] theorem execRfCalibrate_frame (h : Hdr) (items : ℕ) (s : State) :
    Quiet s (execRfCalibrate h items s) := by
  simp only [execRfCalibrate]; simp

@[simp] theorem scanCheck_frame (start : ℕ) (stop : ℕ) (step : ℕ) (passes : ℕ) (s : State) :
    (scanCheck start stop step passes s).2.pending = s.pending ∧ (scanCheck start stop step passes s).2.mem = s.mem := by
  unfold scanCheck; split <;> simp

@[simp] theorem progRfScanStart_keeps (start : ℕ) (stop : ℕ) (step : ℕ) (passes : ℕ) : (progRfScanStart start stop step passes).Keeps := by
  constructor <;> intros <;> dsimp only [progRfScanStart, Prog.direct] <;> (repeat' split) <;> simp_all

@[simp] theorem execRfScanStart_frame (h : Hdr) (start : ℕ) (stop : ℕ) (step : ℕ) (passes : ℕ) (s : State) :
    Quiet s (execRfScanStart h start stop step passes s) := by
  simp only [execRfScanStart]; simp

@[simp] theorem endScan_frame (s : State) :
    (endScan s).pending = s.pending ∧ (endScan s).mem = s.mem := by
  unfold endScan; split <;> simp

@[simp] theorem progRfScanStop_keeps  : (progRfScanStop).Keeps := by
  constructor <;> intros <;> simp [progRfScanStop, Prog.direct]

@[simp] theorem execRfScanStop_frame (h : Hdr) (s : State) :
    Quiet s (execRfScanStop h s) := by
  simp only [execRfScanStop]; simp

@[simp] theorem progRfSetGain_keeps (aerial : ℕ) (mode : ℕ) (gain : ℤ) : (progRfSetGain aerial mode gain).Keeps := by
  constructor <;> intros <;> simp [progRfSetGain, Prog.direct]

@[simp] theorem execRfSetGain_frame (h : Hdr) (aerial : ℕ) (mode : ℕ) (gain : ℤ) (s : State) :
    Quiet s (execRfSetGain h aerial mode gain s) := by
  simp only [execRfSetGain]; simp

@[simp] theorem progRfGetSpectrum_keeps (start : ℕ) (nbins : ℕ) : (progRfGetSpectrum start nbins).Keeps := by
  constructor <;> intros <;> simp [progRfGetSpectrum, Prog.direct]

@[simp] theorem execRfGetSpectrum_frame (h : Hdr) (start : ℕ) (nbins : ℕ) (s : State) :
    Quiet s (execRfGetSpectrum h start nbins s) := by
  simp only [execRfGetSpectrum]; simp

@[simp] theorem progRfCoordinate_keeps (links : ℕ) (carriers : ℕ) (options : ℕ) : (progRfCoordinate links carriers options).Keeps := by
  constructor <;> intros <;> simp [progRfCoordinate, Prog.direct]

@[simp] theorem execRfCoordinate_frame (h : Hdr) (links : ℕ) (carriers : ℕ) (options : ℕ) (s : State) :
    Quiet s (execRfCoordinate h links carriers options s) := by
  simp only [execRfCoordinate]; simp

/-! ### Router -/

@[simp] theorem recostBus_frame (b : ℕ) (s : State) :
    (recostBus b s).pending = s.pending ∧ (recostBus b s).mem = s.mem := by
  unfold recostBus; split <;> simp

@[simp] theorem mirrorRoute_frame (n : ℕ) (e : RouteEntry) (s : State) :
    (mirrorRoute n e s).pending = s.pending ∧ (mirrorRoute n e s).mem = s.mem := by
  simp [mirrorRoute]

@[simp] theorem latencyRefusal_frame (s : State) :
    (latencyRefusal s).2.pending = s.pending ∧ (latencyRefusal s).2.mem = s.mem := by
  simp [latencyRefusal]

@[simp] theorem setRoute_frame (n : ℕ) (src : ℕ) (dst : ℕ) (gain : ℤ) (s : State) :
    (setRoute n src dst gain s).pending = s.pending ∧ (setRoute n src dst gain s).mem = s.mem := by
  simp [setRoute]

@[simp] theorem progRouteSet_keeps (n : ℕ) (src : ℕ) (dst : ℕ) (gain : ℤ) : (progRouteSet n src dst gain).Keeps := by
  constructor <;> intros <;> dsimp only [progRouteSet, Prog.direct] <;> (repeat' split) <;> simp_all

@[simp] theorem execRouteSet_frame (h : Hdr) (route : ℕ) (source : ℕ) (dest : ℕ) (gain : ℤ) (s : State) :
    Quiet s (execRouteSet h route source dest gain s) := by
  simp only [execRouteSet]; simp

@[simp] theorem removeTap_frame (n : ℕ) (s : State) :
    (removeTap n s).pending = s.pending ∧ (removeTap n s).mem = s.mem := by
  unfold removeTap; split <;> simp

@[simp] theorem tapCheck_frame (n : ℕ) (packing : ℕ) (off : ℕ) (len : ℕ) (s : State) :
    (tapCheck n packing off len s).2.pending = s.pending ∧ (tapCheck n packing off len s).2.mem = s.mem := by
  unfold tapCheck; dsimp only; (repeat' split) <;> simp_all

@[simp] theorem progTapConfig_keeps (n packing off len : Nat) : (progTapConfig n packing off len).Keeps := by
  constructor
  · simp [progTapConfig]
  · simp [progTapConfig]
  · simp [progTapConfig]
  · intro a s
    simp only [progTapConfig]
    split
    · simp
    · split <;> simp
  · simp [progTapConfig]
  · simp [progTapConfig]

@[simp] theorem execTapConfig_frame (h : Hdr) (route : ℕ) (packing : ℕ) (offset : ℕ) (length : ℕ) (s : State) :
    Quiet s (execTapConfig h route packing offset length s) := by
  simp only [execTapConfig]; simp

@[simp] theorem fadeRoute_frame (n : ℕ) (s : State) :
    (fadeRoute n s).pending = s.pending ∧ (fadeRoute n s).mem = s.mem := by
  simp [fadeRoute]

@[simp] theorem progRouteClear_keeps (n : ℕ) : (progRouteClear n).Keeps := by
  constructor <;> intros <;> simp [progRouteClear, Prog.direct]

@[simp] theorem execRouteClear_frame (h : Hdr) (route : ℕ) (s : State) :
    Quiet s (execRouteClear h route s) := by
  simp only [execRouteClear]; simp

@[simp] theorem committedRoutes_frame (m : SMap RouteEntry) (s : State) :
    (committedRoutes m s).pending = s.pending ∧ (committedRoutes m s).mem = s.mem := by
  simp [committedRoutes]

@[simp] theorem routeCommitCheck_frame (s : State) :
    (routeCommitCheck s).2.pending = s.pending ∧ (routeCommitCheck s).2.mem = s.mem := by
  unfold routeCommitCheck; dsimp only; (repeat' split) <;> simp_all

@[simp] theorem applyRouteCommit_frame (s : State) :
    (applyRouteCommit s).pending = s.pending ∧ (applyRouteCommit s).mem = s.mem := by
  unfold applyRouteCommit; split <;> simp

@[simp] theorem progMixSetGain_keeps (b : ℕ) (cls : ℕ) (gain : ℤ) : (progMixSetGain b cls gain).Keeps := by
  constructor <;> intros <;> simp [progMixSetGain, Prog.direct]

@[simp] theorem execMixSetGain_frame (h : Hdr) (bus : ℕ) (cls : ℕ) (gain : ℤ) (s : State) :
    Quiet s (execMixSetGain h bus cls gain s) := by
  simp only [execMixSetGain]; simp

/-! ### Ports -/

@[simp] theorem withPortCfg_frame (p : ℕ) (c : PortCfg) (s : State) :
    (withPortCfg p c s).pending = s.pending ∧ (withPortCfg p c s).mem = s.mem := by
  simp [withPortCfg]

@[simp] theorem portCheck_frame (p : Nat) (c : PortCfg) (s : State) :
    (portCheck p c s).2.pending = s.pending ∧ (portCheck p c s).2.mem = s.mem := by
  have h := admitWork_frame (portAsks p c s) s
  unfold portCheck
  dsimp only
  split
  · generalize hx : admitWork (portAsks p c s) s = x at h
    obtain ⟨st, t⟩ := x
    cases st <;> simp_all
    split <;> simp_all
  · simp

@[simp] theorem showPort_frame (p : ℕ) (c : PortCfg) (s : State) :
    (showPort p c s).pending = s.pending ∧ (showPort p c s).mem = s.mem := by
  simp [showPort]

@[simp] theorem applyPortCfg_frame (p : ℕ) (c : PortCfg) (s : State) :
    (applyPortCfg p c s).pending = s.pending ∧ (applyPortCfg p c s).mem = s.mem := by
  simp [applyPortCfg]

@[simp] theorem progPortConfig_keeps (p : ℕ) (c : PortCfg) : (progPortConfig p c).Keeps := by
  constructor <;> intros <;> simp [progPortConfig, Prog.direct]

@[simp] theorem execPortConfig_frame (h : Hdr) (port : ℕ) (format : ℕ) (rate : ℕ) (slots : ℕ) (role : ℕ) (slotBits : ℕ) (inMask : ℕ) (outMask : ℕ) (drive : ℕ) (s : State) :
    Quiet s (execPortConfig h port format rate slots role slotBits inMask outMask drive s) := by
  simp only [execPortConfig]; simp

@[simp] theorem progPortStart_keeps (mask : ℕ) (start : ℕ) (p : ℕ) : (progPortStart mask start p).Keeps := by
  constructor <;> intros <;> simp [progPortStart, Prog.direct]

@[simp] theorem execPortStart_frame (h : Hdr) (mask : ℕ) (start : ℕ) (period : ℕ) (s : State) :
    Quiet s (execPortStart h mask start period s) := by
  simp only [execPortStart]; simp

@[simp] theorem stopPorts_frame (cause : ℕ) (mask : ℕ) (s : State) :
    (stopPorts cause mask s).pending = s.pending ∧ (stopPorts cause mask s).mem = s.mem := by
  unfold stopPorts; constructor <;> (first | apply each_pending | apply each_mem) <;> intros <;> (repeat' split) <;> simp_all

@[simp] theorem resumePort_frame (p : ℕ) (s : State) :
    (resumePort p s).pending = s.pending ∧ (resumePort p s).mem = s.mem := by
  simp [resumePort]

@[simp] theorem unstopPorts_frame (kept : Nat) (s : State) :
    (unstopPorts kept s).pending = s.pending ∧ (unstopPorts kept s).mem = s.mem := by
  unfold unstopPorts
  constructor
  · exact (each_pending _ _ _ (fun i s => by split <;> simp)).trans (each_pending _ _ _ (fun i s => (resumePort_frame i s).1))
  · exact (each_mem _ _ _ (fun i s => by split <;> simp)).trans (each_mem _ _ _ (fun i s => (resumePort_frame i s).2))

@[simp] theorem progPortStop_keeps (mask : ℕ) : (progPortStop mask).Keeps := by
  constructor <;> intros <;> simp [progPortStop, Prog.direct]

@[simp] theorem execPortStop_frame (h : Hdr) (mask : ℕ) (s : State) :
    Quiet s (execPortStop h mask s) := by
  simp only [execPortStop]; simp

/-! ### LinkCommands -/

@[simp] theorem progLinkStatus_keeps (n : ℕ) : (progLinkStatus n).Keeps := by
  constructor <;> intros <;> simp [progLinkStatus, Prog.direct]

@[simp] theorem execLinkStatus_frame (h : Hdr) (link : ℕ) (s : State) :
    Quiet s (execLinkStatus h link s) := by
  simp only [execLinkStatus]; simp

@[simp] theorem onPriv_frame (i : ℕ) (f : PrivRec → PrivRec) (s : State) :
    (onPriv i f s).pending = s.pending ∧ (onPriv i f s).mem = s.mem := by
  simp [onPriv]

@[simp] theorem freePriv_frame (n : ℕ) (s : State) :
    (freePriv n s).pending = s.pending ∧ (freePriv n s).mem = s.mem := by
  unfold freePriv; split <;> simp

@[simp] theorem tuneLanes_frame (n : Nat) (s : State) :
    (tuneLanes n s).pending = s.pending ∧ (tuneLanes n s).mem = s.mem := by
  simp [tuneLanes]

@[simp] theorem linkOpenCheck_frame (n : ℕ) (hz : ℕ) (cls : ℕ) (mode : ℕ) (ses : ℕ) (air : ℕ) (s : State) :
    (linkOpenCheck n hz cls mode ses air s).2.pending = s.pending ∧ (linkOpenCheck n hz cls mode ses air s).2.mem = s.mem := by
  unfold linkOpenCheck; dsimp only; (repeat' split) <;> simp_all

@[simp] theorem clearLinkFields_frame (n : ℕ) (s : State) :
    (clearLinkFields n s).pending = s.pending ∧ (clearLinkFields n s).mem = s.mem := by
  simp [clearLinkFields]

@[simp] theorem progLinkOpen_keeps (n : ℕ) (hz : ℕ) (cls : ℕ) (mode : ℕ) (ses : ℕ) (air : ℕ) : (progLinkOpen n hz cls mode ses air).Keeps := by
  constructor <;> intros <;> simp [progLinkOpen, Prog.direct]

@[simp] theorem execLinkOpen_frame (h : Hdr) (link : ℕ) (hz : ℕ) (cls : ℕ) (mode : ℕ) (session : ℕ) (air : ℕ) (s : State) :
    Quiet s (execLinkOpen h link hz cls mode session air s) := by
  simp only [execLinkOpen]; simp

@[simp] theorem closeLink_frame (n : ℕ) (s : State) :
    (closeLink n s).pending = s.pending ∧ (closeLink n s).mem = s.mem := by
  simp [closeLink]

@[simp] theorem progLinkClose_keeps (n : ℕ) : (progLinkClose n).Keeps := by
  constructor <;> intros <;> simp [progLinkClose, Prog.direct]

@[simp] theorem execLinkClose_frame (h : Hdr) (link : ℕ) (s : State) :
    Quiet s (execLinkClose h link s) := by
  simp only [execLinkClose]; simp

@[simp] theorem scheduleHop_frame (n : ℕ) (target : ℕ) (p : ℕ) (host : Bool) (s : State) :
    (scheduleHop n target p host s).pending = s.pending ∧ (scheduleHop n target p host s).mem = s.mem := by
  simp [scheduleHop]

@[simp] theorem clearHopFields_frame (n : ℕ) (s : State) :
    (clearHopFields n s).pending = s.pending ∧ (clearHopFields n s).mem = s.mem := by
  simp [clearHopFields]

@[simp] theorem progLinkRetune_keeps (n : ℕ) (hz : ℕ) (p : ℕ) : (progLinkRetune n hz p).Keeps := by
  constructor <;> intros <;> simp [progLinkRetune, Prog.direct]

@[simp] theorem execLinkRetune_frame (h : Hdr) (link : ℕ) (hz : ℕ) (period : ℕ) (s : State) :
    Quiet s (execLinkRetune h link hz period s) := by
  simp only [execLinkRetune]; simp

@[simp] theorem progLinkSetAlt_keeps (n : ℕ) (fs : List ℕ) : (progLinkSetAlt n fs).Keeps := by
  constructor <;> intros <;> simp [progLinkSetAlt, Prog.direct]

@[simp] theorem execLinkSetAlt_frame (h : Hdr) (link : ℕ) (freqs : List ℕ) (s : State) :
    Quiet s (execLinkSetAlt h link freqs s) := by
  simp only [execLinkSetAlt]; simp

@[simp] theorem progLinkPrivilege_keeps (n : ℕ) (on : ℕ) : (progLinkPrivilege n on).Keeps := by
  constructor <;> intros <;> dsimp only [progLinkPrivilege, Prog.direct] <;> (repeat' split) <;> simp_all

@[simp] theorem execLinkPrivilege_frame (h : Hdr) (link : ℕ) (on : ℕ) (s : State) :
    Quiet s (execLinkPrivilege h link on s) := by
  simp only [execLinkPrivilege]; simp

/-! ### TxCommands -/

@[simp] theorem paRelease_frame (s : State) :
    (paRelease s).pending = s.pending ∧ (paRelease s).mem = s.mem := by
  simp [paRelease]

@[simp] theorem carrierOpenCheck_frame (c : ℕ) (hz : ℕ) (cls : ℕ) (step : ℕ) (ses : ℕ) (enc : ℕ) (s : State) :
    (carrierOpenCheck c hz cls step ses enc s).2.pending = s.pending ∧ (carrierOpenCheck c hz cls step ses enc s).2.mem = s.mem := by
  unfold carrierOpenCheck; dsimp only; (repeat' split) <;> simp_all

@[simp] theorem progCarrierOpen_keeps (c : ℕ) (hz : ℕ) (cls : ℕ) (step : ℕ) (ses : ℕ) (enc : ℕ) : (progCarrierOpen c hz cls step ses enc).Keeps := by
  constructor <;> intros <;> simp [progCarrierOpen, Prog.direct]

@[simp] theorem execCarrierOpen_frame (h : Hdr) (carrier : ℕ) (hz : ℕ) (cls : ℕ) (step : ℕ) (session : ℕ) (encrypt : ℕ) (s : State) :
    Quiet s (execCarrierOpen h carrier hz cls step session encrypt s) := by
  simp only [execCarrierOpen]; simp

@[simp] theorem rampDown_frame (mask : ℕ) (cause : ℕ) (s : State) :
    (rampDown mask cause s).pending = s.pending ∧ (rampDown mask cause s).mem = s.mem := by
  simp [rampDown]; constructor <;> (first | apply each_pending | apply each_mem) <;> intros <;> (repeat' split) <;> simp_all

@[simp] theorem rampEnded_frame (c : ℕ) (s : State) :
    (rampEnded c s).pending = s.pending ∧ (rampEnded c s).mem = s.mem := by
  simp [rampEnded]

@[simp] theorem cutAir_frame (after : List AirSym) (c : Nat) (s : State) :
    (cutAir after c s).pending = s.pending ∧ (cutAir after c s).mem = s.mem := by
  simp [cutAir]

@[simp] theorem airStarts_frame (cs : List Nat) (m : Nat) (s : State) :
    (airStarts cs m s).pending = s.pending ∧ (airStarts cs m s).mem = s.mem := by
  unfold airStarts; (repeat' split) <;> simp

@[simp] theorem planResume_frame (s : State) :
    (planResume s).pending = s.pending ∧ (planResume s).mem = s.mem := by
  simp [planResume]

@[simp] theorem resumeCarrier_frame (c : ℕ) (s : State) :
    (resumeCarrier c s).pending = s.pending ∧ (resumeCarrier c s).mem = s.mem := by
  simp [resumeCarrier]

@[simp] theorem unramp_frame (kept : Nat) (s : State) :
    (unramp kept s).pending = s.pending ∧ (unramp kept s).mem = s.mem := by
  simp [unramp]

@[simp] theorem forgetStopped_frame (mask : Nat) (s : State) :
    (forgetStopped mask s).pending = s.pending ∧ (forgetStopped mask s).mem = s.mem := by
  simp [forgetStopped]

@[simp] theorem progTxDisable_keeps (mask : ℕ) : (progTxDisable mask).Keeps := by
  constructor <;> intros <;> simp [progTxDisable, Prog.direct]

@[simp] theorem execTxDisable_frame (h : Hdr) (mask : ℕ) (s : State) :
    Quiet s (execTxDisable h mask s) := by
  simp only [execTxDisable]; simp

@[simp] theorem closeCarrier_frame (c : ℕ) (s : State) :
    (closeCarrier c s).pending = s.pending ∧ (closeCarrier c s).mem = s.mem := by
  simp [closeCarrier]

@[simp] theorem progCarrierClose_keeps (c : ℕ) : (progCarrierClose c).Keeps := by
  constructor <;> intros <;> simp [progCarrierClose, Prog.direct]

@[simp] theorem execCarrierClose_frame (h : Hdr) (carrier : ℕ) (s : State) :
    Quiet s (execCarrierClose h carrier s) := by
  simp only [execCarrierClose]; simp

@[simp] theorem progCarrierSetPower_keeps (c : ℕ) (step : ℕ) : (progCarrierSetPower c step).Keeps := by
  constructor <;> intros <;> simp [progCarrierSetPower, Prog.direct]

@[simp] theorem execCarrierSetPower_frame (h : Hdr) (carrier : ℕ) (step : ℕ) (s : State) :
    Quiet s (execCarrierSetPower h carrier step s) := by
  simp only [execCarrierSetPower]; simp

@[simp] theorem scheduleRetune_frame (c : ℕ) (hz : ℕ) (p : ℕ) (s : State) :
    (scheduleRetune c hz p s).pending = s.pending ∧ (scheduleRetune c hz p s).mem = s.mem := by
  simp [scheduleRetune]

@[simp] theorem progCarrierRetune_keeps (c : ℕ) (hz : ℕ) (p : ℕ) : (progCarrierRetune c hz p).Keeps := by
  constructor <;> intros <;> simp [progCarrierRetune, Prog.direct]

@[simp] theorem execCarrierRetune_frame (h : Hdr) (carrier : ℕ) (hz : ℕ) (period : ℕ) (s : State) :
    Quiet s (execCarrierRetune h carrier hz period s) := by
  simp only [execCarrierRetune]; simp

@[simp] theorem startSequence_frame (mask : ℕ) (s : State) :
    (startSequence mask s).pending = s.pending ∧ (startSequence mask s).mem = s.mem := by
  simp [startSequence]

@[simp] theorem txStartWait_frame (mask : ℕ) (s : State) :
    (txStartWait mask s).2.2.pending = s.pending ∧ (txStartWait mask s).2.2.mem = s.mem := by
  simp [txStartWait]

@[simp] theorem progTxEnable_keeps (mask : ℕ) : (progTxEnable mask).Keeps := by
  constructor <;> intros <;> simp [progTxEnable, Prog.direct, apply_ite Prod.fst, apply_ite Prod.snd]

@[simp] theorem execTxEnable_frame (h : Hdr) (mask : ℕ) (s : State) :
    Quiet s (execTxEnable h mask s) := by
  simp only [execTxEnable]; simp

@[simp] theorem failStarts_frame (s : State) :
    (failStarts s).pending = s.pending ∧ (failStarts s).mem = s.mem := by
  unfold failStarts
  constructor <;> (first | apply each_pending | apply each_mem) <;> intros <;> split <;> simp

/-! ### ClCommands -/

@[simp] theorem progSessionAdd_keeps (n : ℕ) (tx : ℕ) (flags : ℕ) (key : List Byte) : (progSessionAdd n tx flags key).Keeps := by
  constructor <;> intros <;> simp [progSessionAdd, Prog.direct]

@[simp] theorem execSessionAdd_frame (h : Hdr) (session : ℕ) (txId : ℕ) (flags : ℕ) (key : List Byte) (s : State) :
    Quiet s (execSessionAdd h session txId flags key s) := by
  simp only [execSessionAdd]; simp

@[simp] theorem progSessionRemove_keeps (n : ℕ) : (progSessionRemove n).Keeps := by
  constructor <;> intros <;> simp [progSessionRemove, Prog.direct, apply_ite Prod.fst, apply_ite Prod.snd]

@[simp] theorem execSessionRemove_frame (h : Hdr) (session : ℕ) (s : State) :
    Quiet s (execSessionRemove h session s) := by
  simp only [execSessionRemove]; simp

@[simp] theorem progSessionStatus_keeps (n : ℕ) : (progSessionStatus n).Keeps := by
  constructor <;> intros <;> simp [progSessionStatus, Prog.direct]

@[simp] theorem execSessionStatus_frame (h : Hdr) (session : ℕ) (s : State) :
    Quiet s (execSessionStatus h session s) := by
  simp only [execSessionStatus]; simp

@[simp] theorem progSessionSend_keeps (n : ℕ) (data : List Byte) : (progSessionSend n data).Keeps := by
  constructor <;> intros <;> simp [progSessionSend, Prog.direct]

@[simp] theorem execSessionSend_frame (h : Hdr) (session : ℕ) (data : List Byte) (s : State) :
    Quiet s (execSessionSend h session data s) := by
  simp only [execSessionSend]; simp

@[simp] theorem failSends_frame (only : Option ℕ) (s : State) :
    (failSends only s).pending = s.pending ∧ (failSends only s).mem = s.mem := by
  unfold failSends; constructor <;> (first | apply each_pending | apply each_mem) <;> intros <;> (repeat' split) <;> simp_all

@[simp] theorem clSynthBack_frame (a : Nat) (s : State) :
    (clSynthBack a s).pending = s.pending ∧ (clSynthBack a s).mem = s.mem := by
  unfold clSynthBack; (repeat' split) <;> simp

@[simp] theorem progClStart_keeps (hz : ℕ) (power : ℤ) : (progClStart hz power).Keeps := by
  constructor <;> intros <;> simp [progClStart, Prog.direct]

@[simp] theorem execClStart_frame (h : Hdr) (hz : ℕ) (power : ℤ) (s : State) :
    Quiet s (execClStart h hz power s) := by
  simp only [execClStart]; simp

@[simp] theorem clearClHop_frame (s : State) :
    (clearClHop s).pending = s.pending ∧ (clearClHop s).mem = s.mem := by
  simp [clearClHop]

@[simp] theorem progClHop_keeps (kind i hz p : Nat) : (progClHop kind i hz p).Keeps := by
  have hl := progLinkRetune_keeps i hz p
  have hc := progCarrierRetune_keeps i hz p
  unfold progClHop
  split
  · constructor
    · intro s
      have h := hl.check s
      dsimp only
      split <;> simp_all
    · exact hl.begin
    · exact hl.resume
    · intro a s
      exact hl.apply a s
    · exact hl.undo
    · exact hl.drop
  · split
    · constructor
      · intro s
        have h := hc.check s
        dsimp only
        split <;> simp_all
      · exact hc.begin
      · exact hc.resume
      · intro a s
        exact hc.apply a s
      · exact hc.undo
      · exact hc.drop
    · constructor <;> intros <;> simp

@[simp] theorem execClHop_frame (h : Hdr) (kind : ℕ) (index : ℕ) (hz : ℕ) (period : ℕ) (s : State) :
    Quiet s (execClHop h kind index hz period s) := by
  simp only [execClHop]; simp

@[simp] theorem cancelClHop_frame (s : State) :
    (cancelClHop s).pending = s.pending ∧ (cancelClHop s).mem = s.mem := by
  simp [cancelClHop]; constructor <;> (first | apply each_pending | apply each_mem) <;> intros <;> (repeat' split) <;> simp_all

@[simp] theorem onCl_frame (f : Cl → Cl) (s : State) :
    (onCl f s).pending = s.pending ∧ (onCl f s).mem = s.mem := by
  simp [onCl]

@[simp] theorem countHop_frame (kind ses : Nat) (s : State) :
    (countHop kind ses s).pending = s.pending ∧ (countHop kind ses s).mem = s.mem := by
  unfold countHop
  split
  · cases linkOfSession s ses <;> simp
  · cases carrierOfSession s ses <;> simp

@[simp] theorem elementSent_frame (s : State) :
    (elementSent s).pending = s.pending ∧ (elementSent s).mem = s.mem := by
  unfold elementSent; dsimp only; (repeat' split) <;> simp_all

@[simp] theorem beaconEnds_frame (s : State) :
    (beaconEnds s).pending = s.pending ∧ (beaconEnds s).mem = s.mem := by
  simp [beaconEnds]

@[simp] theorem clQuiet_frame (phase : ClPhase) (s : State) :
    (clQuiet phase s).pending = s.pending ∧ (clQuiet phase s).mem = s.mem := by
  simp [clQuiet]

@[simp] theorem stopCl_frame (cause : ℕ) (s : State) :
    (stopCl cause s).pending = s.pending ∧ (stopCl cause s).mem = s.mem := by
  simp [stopCl]

@[simp] theorem failClStart_frame (s : State) :
    (failClStart s).pending = s.pending ∧ (failClStart s).mem = s.mem := by
  unfold failClStart; constructor <;> (first | apply each_pending | apply each_mem) <;> intros <;> (repeat' split) <;> simp_all

@[simp] theorem progClStop_keeps  : (progClStop).Keeps := by
  constructor <;> intros <;> simp [progClStop, Prog.direct]

@[simp] theorem execClStop_frame (h : Hdr) (s : State) :
    Quiet s (execClStop h s) := by
  simp only [execClStop]; simp

/-! ### RodCommands -/

@[simp] theorem progProgLoad_keeps (n : ℕ) (first : ℕ) (words : List ℕ) : (progProgLoad n first words).Keeps := by
  constructor <;> intros <;> simp [progProgLoad, Prog.direct]

@[simp] theorem execProgLoad_frame (h : Hdr) (rod : ℕ) (first : ℕ) (words : List ℕ) (s : State) :
    Quiet s (execProgLoad h rod first words s) := by
  simp only [execProgLoad]; simp

@[simp] theorem progAdmitCheck_frame (n : ℕ) (cls : ℕ) (s : State) :
    (progAdmitCheck n cls s).2.pending = s.pending ∧ (progAdmitCheck n cls s).2.mem = s.mem := by
  unfold progAdmitCheck; (repeat' split) <;> simp

@[simp] theorem progProgAdmit_keeps (n : ℕ) (cls : ℕ) : (progProgAdmit n cls).Keeps := by
  constructor <;> intros <;> simp [progProgAdmit, Prog.direct]

@[simp] theorem execProgAdmit_frame (h : Hdr) (rod : ℕ) (cls : ℕ) (s : State) :
    Quiet s (execProgAdmit h rod cls s) := by
  simp only [execProgAdmit]; simp

@[simp] theorem clearSwap_frame (n : ℕ) (s : State) :
    (clearSwap n s).pending = s.pending ∧ (clearSwap n s).mem = s.mem := by
  simp [clearSwap]

@[simp] theorem retireRod_frame (n : ℕ) (s : State) :
    (retireRod n s).pending = s.pending ∧ (retireRod n s).mem = s.mem := by
  simp [retireRod]

@[simp] theorem progProgRetire_keeps (n : ℕ) : (progProgRetire n).Keeps := by
  constructor <;> intros <;> simp [progProgRetire, Prog.direct]

@[simp] theorem execProgRetire_frame (h : Hdr) (rod : ℕ) (s : State) :
    Quiet s (execProgRetire h rod s) := by
  simp only [execProgRetire]; simp

@[simp] theorem progCoefWrite_keeps (n : ℕ) (bank : ℕ) (first : ℕ) (words : List ℤ) : (progCoefWrite n bank first words).Keeps := by
  constructor <;> intros <;> simp [progCoefWrite, Prog.direct]

@[simp] theorem execCoefWrite_frame (h : Hdr) (rod : ℕ) (bank : ℕ) (first : ℕ) (words : List ℤ) (s : State) :
    Quiet s (execCoefWrite h rod bank first words s) := by
  simp only [execCoefWrite]; simp

@[simp] theorem progCoefSwap_keeps (n : ℕ) (p : ℕ) : (progCoefSwap n p).Keeps := by
  constructor <;> intros <;> simp [progCoefSwap, Prog.direct]

@[simp] theorem execCoefSwap_frame (h : Hdr) (rod : ℕ) (period : ℕ) (s : State) :
    Quiet s (execCoefSwap h rod period s) := by
  simp only [execCoefSwap]; simp

@[simp] theorem swapBanks_frame (n : ℕ) (s : State) :
    (swapBanks n s).pending = s.pending ∧ (swapBanks n s).mem = s.mem := by
  unfold swapBanks; split <;> simp

/-! ### AnalogCommands -/

@[simp] theorem anaSequence_frame (t : ℕ) (up : Bool) (s : State) :
    (anaSequence t up s).pending = s.pending ∧ (anaSequence t up s).mem = s.mem := by
  simp [anaSequence]

@[simp] theorem reviseAna_frame (t : ℕ) (s : State) :
    (reviseAna t s).pending = s.pending ∧ (reviseAna t s).mem = s.mem := by
  simp [reviseAna]

@[simp] theorem reviseJacks_frame (s : State) :
    (reviseJacks s).pending = s.pending ∧ (reviseJacks s).mem = s.mem := by
  simp [reviseJacks]

@[simp] theorem restartAna_frame (s : State) :
    (restartAna s).pending = s.pending ∧ (restartAna s).mem = s.mem := by
  simp [restartAna]

@[simp] theorem anaGain_frame (t : ℕ) (old : ℕ) (s : State) :
    (anaGain t old s).pending = s.pending ∧ (anaGain t old s).mem = s.mem := by
  simp [anaGain]

@[simp] theorem anaBegin_frame (t : ℕ) (f : ℕ) (v : ℕ) (s : State) :
    (anaBegin t f v s).2.pending = s.pending ∧ (anaBegin t f v s).2.mem = s.mem := by
  simp [anaBegin]

@[simp] theorem progAnalogConfig_keeps (t : ℕ) (f : ℕ) (v : ℤ) : (progAnalogConfig t f v).Keeps := by
  constructor <;> intros <;> simp [progAnalogConfig, Prog.direct, apply_ite Prod.fst, apply_ite Prod.snd]

@[simp] theorem execAnalogConfig_frame (h : Hdr) (target : ℕ) (field : ℕ) (value : ℤ) (s : State) :
    Quiet s (execAnalogConfig h target field value s) := by
  simp only [execAnalogConfig]; simp

/-! ### InstCommands -/

@[simp] theorem startConv_frame (n : ℕ) (ch : ℕ) (us : ℕ) (urgent : Bool) (s : State) :
    (startConv n ch us urgent s).pending = s.pending ∧ (startConv n ch us urgent s).mem = s.mem := by
  simp [startConv]

@[simp] theorem nextChannel_frame (n : ℕ) (s : State) :
    (nextChannel n s).2.pending = s.pending ∧ (nextChannel n s).2.mem = s.mem := by
  unfold nextChannel; dsimp only; (repeat' split) <;> simp_all

@[simp] theorem runContinuous_frame (n : ℕ) (s : State) :
    (runContinuous n s).pending = s.pending ∧ (runContinuous n s).mem = s.mem := by
  simp [runContinuous]

@[simp] theorem goOn_frame (n : Nat) (c : Conv) (s : State) :
    (goOn n c s).pending = s.pending ∧ (goOn n c s).mem = s.mem := by
  unfold goOn; dsimp only; (repeat' split) <;> simp

@[simp] theorem progMeasConfig_keeps (n : ℕ) (ch : ℕ) (rate : ℕ) (order : ℕ) (notch : ℕ) (trig : ℕ) (delay : ℕ) : (progMeasConfig n ch rate order notch trig delay).Keeps := by
  constructor <;> intros <;> simp [progMeasConfig, Prog.direct]

@[simp] theorem execMeasConfig_frame (h : Hdr) (converter : ℕ) (channel : ℕ) (rate : ℕ) (order : ℕ) (notch : ℕ) (trigger : ℕ) (delay : ℕ) (s : State) :
    Quiet s (execMeasConfig h converter channel rate order notch trigger delay s) := by
  simp only [execMeasConfig]; simp

@[simp] theorem progMeasNow_keeps (n : ℕ) (ch : ℕ) : (progMeasNow n ch).Keeps := by
  constructor <;> intros <;> dsimp only [progMeasNow, Prog.direct] <;> (repeat' split) <;> simp_all

@[simp] theorem execMeasNow_frame (h : Hdr) (converter : ℕ) (channel : ℕ) (s : State) :
    Quiet s (execMeasNow h converter channel s) := by
  simp only [execMeasNow]; simp

@[simp] theorem progMeasStreamStart_keeps (mask : ℕ) (off : ℕ) (len : ℕ) : (progMeasStreamStart mask off len).Keeps := by
  constructor <;> intros <;> dsimp only [progMeasStreamStart, Prog.direct] <;> (repeat' split) <;> simp_all

@[simp] theorem execMeasStreamStart_frame (h : Hdr) (mask : ℕ) (offset : ℕ) (length : ℕ) (s : State) :
    Quiet s (execMeasStreamStart h mask offset length s) := by
  simp only [execMeasStreamStart]; simp

@[simp] theorem leaveStream_frame (mask : ℕ) (s : State) :
    (leaveStream mask s).pending = s.pending ∧ (leaveStream mask s).mem = s.mem := by
  simp [leaveStream]

@[simp] theorem progMeasStreamStop_keeps (mask : ℕ) : (progMeasStreamStop mask).Keeps := by
  constructor <;> intros <;> simp [progMeasStreamStop, Prog.direct]

@[simp] theorem execMeasStreamStop_frame (h : Hdr) (mask : ℕ) (s : State) :
    Quiet s (execMeasStreamStop h mask s) := by
  simp only [execMeasStreamStop]; simp

@[simp] theorem setPwm_frame (p : Nat) (q : Pwm) (s : State) :
    (setPwm p q s).pending = s.pending ∧ (setPwm p q s).mem = s.mem := by
  simp [setPwm]

@[simp] theorem startPwm_frame (p : Nat) (s : State) :
    (startPwm p s).pending = s.pending ∧ (startPwm p s).mem = s.mem := by
  simp [startPwm]

@[simp] theorem progCdacSet_keeps (ch : ℕ) (code : ℕ) (upd : ℕ) : (progCdacSet ch code upd).Keeps := by
  constructor <;> intros <;> simp [progCdacSet, Prog.direct]

@[simp] theorem execCdacSet_frame (h : Hdr) (channel : ℕ) (code : ℕ) (update : ℕ) (s : State) :
    Quiet s (execCdacSet h channel code update s) := by
  simp only [execCdacSet]; simp

@[simp] theorem progCdacRange_keeps (ch : ℕ) (range : ℕ) : (progCdacRange ch range).Keeps := by
  constructor <;> intros <;> simp [progCdacRange, Prog.direct]

@[simp] theorem execCdacRange_frame (h : Hdr) (channel : ℕ) (range : ℕ) (s : State) :
    Quiet s (execCdacRange h channel range s) := by
  simp only [execCdacRange]; simp

end Sys2Proof.Machine
end

