-- ==== Sys2Proof/Laws/FrameSystem.lean ====
section
/-! SUPPORT. What the system commands, the parameter store, packets and resets leave of the queue and of memory. -/

namespace Sys2Proof.Machine

/-! ### Survival -/

@[simp] theorem loseAdmissions_frame (s : State) :
    (loseAdmissions s).pending = s.pending ∧ (loseAdmissions s).mem = s.mem := by
  simp [loseAdmissions]

@[simp] theorem loseQueues_frame (l : Life) (s : State) :
    (loseQueues l s).pending = s.pending ∧ (loseQueues l s).mem = s.mem := by
  simp [loseQueues]

@[simp] theorem loseMem_frame (s : State) :
    (loseMem s).pending = s.pending := by
  simp [loseMem]

@[simp] theorem loseMem_wf (s : State) (h : MemWf s.mem) :
    MemWf (loseMem s).mem := by
  first | (simp [loseMem, h]; done) | (unfold loseMem; (repeat' split) <;> simp_all)

@[simp] theorem loseAon_frame (s : State) :
    (loseAon s).pending = s.pending ∧ (loseAon s).mem = s.mem := by
  simp [loseAon]

@[simp] theorem loseOther_frame (s : State) :
    (loseOther s).pending = s.pending ∧ (loseOther s).mem = s.mem := by
  simp [loseOther]

@[simp] theorem loseSynths_frame (s : State) :
    (loseSynths s).pending = s.pending ∧ (loseSynths s).mem = s.mem := by
  simp [loseSynths]

@[simp] theorem survive_frame (l : Life) (s : State) :
    (survive l s).pending = s.pending := by
  unfold survive; split <;> simp

@[simp] theorem survive_wf (l : Life) (s : State) (h : MemWf s.mem) :
    MemWf (survive l s).mem := by
  first | (simp [survive, h]; done) | (unfold survive; (repeat' split) <;> simp_all)

@[simp] theorem searchLanes_frame (s : State) :
    (searchLanes s).pending = s.pending ∧ (searchLanes s).mem = s.mem := by
  simp [searchLanes]

@[simp] theorem stopInst_frame (s : State) :
    (stopInst s).pending = s.pending ∧ (stopInst s).mem = s.mem := by
  simp [stopInst]

@[simp] theorem startAna_frame (s : State) :
    (startAna s).pending = s.pending ∧ (startAna s).mem = s.mem := by
  simp [startAna]

@[simp] theorem startAbc_frame (s : State) :
    (startAbc s).pending = s.pending ∧ (startAbc s).mem = s.mem := by
  simp [startAbc]

@[simp] theorem stopDomain_frame (d : ℕ) (s : State) :
    (stopDomain d s).pending = s.pending ∧ (stopDomain d s).mem = s.mem := by
  simp [stopDomain]

@[simp] theorem serveDomain_frame (d : Nat) (s : State) :
    (serveDomain d s).pending = s.pending ∧ (serveDomain d s).mem = s.mem := by
  simp [serveDomain]

@[simp] theorem startDomain_frame (d : ℕ) (s : State) :
    (startDomain d s).pending = s.pending ∧ (startDomain d s).mem = s.mem := by
  simp [startDomain]

@[simp] theorem wakeKept_frame (s : State) :
    (wakeKept s).pending = s.pending ∧ (wakeKept s).mem = s.mem := by
  simp [wakeKept]

/-! ### Ageing -/

@[simp] theorem takeReading_frame (x : TopRead) (s : State) :
    (takeReading x s).pending = s.pending ∧ (takeReading x s).mem = s.mem := by
  simp [takeReading]

@[simp] theorem takeReadings_frame (l : List TopRead) (s : State) :
    (takeReadings l s).pending = s.pending ∧ (takeReadings l s).mem = s.mem := by
  simp [takeReadings]

@[simp] theorem keepOffCounts_frame (l : List TopRead) (s : State) :
    (keepOffCounts l s).pending = s.pending ∧ (keepOffCounts l s).mem = s.mem := by
  simp [keepOffCounts]

@[simp] theorem takeOffCounts_frame (s : State) :
    (takeOffCounts s).pending = s.pending ∧ (takeOffCounts s).mem = s.mem := by
  unfold takeOffCounts
  constructor
  · exact each_pending _ _ _ (fun p s => (takeReading_frame _ s).1)
  · exact each_mem _ _ _ (fun p s => (takeReading_frame _ s).2)

@[simp] theorem atTc_frame (tc : ℕ) (s : State) :
    (atTc tc s).pending = s.pending ∧ (atTc tc s).mem = s.mem := by
  simp [atTc]

@[simp] theorem reportRecost_frame (s : State) :
    (reportRecost s).pending = s.pending ∧ (reportRecost s).mem = s.mem := by
  simp [reportRecost]

@[simp] theorem choosePlan_frame (p : Plan) (s : State) :
    (choosePlan p s).2.pending = s.pending ∧ (choosePlan p s).2.mem = s.mem := by
  unfold choosePlan; dsimp only; (repeat' split) <;> simp_all

@[simp] theorem prognose_frame (p : Plan) (s : State) :
    (prognose p s).pending = s.pending ∧ (prognose p s).mem = s.mem := by
  simp [prognose]

@[simp] theorem startPlan_frame (kind : ℕ) (s : State) :
    (startPlan kind s).pending = s.pending ∧ (startPlan kind s).mem = s.mem := by
  unfold startPlan; dsimp only; (repeat' split) <;> simp_all

@[simp] theorem startDue_frame (s : State) :
    (startDue s).pending = s.pending ∧ (startDue s).mem = s.mem := by
  unfold startDue; split <;> simp

@[simp] theorem planDue_frame (kind : ℕ) (s : State) :
    (planDue kind s).pending = s.pending ∧ (planDue kind s).mem = s.mem := by
  simp [planDue]

@[simp] theorem endPlan_frame (p : Plan) (s : State) :
    (endPlan p s).pending = s.pending ∧ (endPlan p s).mem = s.mem := by
  simp [endPlan]

@[simp] theorem onPlan_frame (f : Plan → Plan) (s : State) :
    (onPlan f s).pending = s.pending ∧ (onPlan f s).mem = s.mem := by
  simp [onPlan]

@[simp] theorem planStep_frame (s : State) :
    (planStep s).pending = s.pending ∧ (planStep s).mem = s.mem := by
  unfold planStep; split <;> simp

@[simp] theorem verifyStep_frame (tops : List TopRead) (s : State) :
    (verifyStep tops s).pending = s.pending ∧ (verifyStep tops s).mem = s.mem := by
  unfold verifyStep; (repeat' split) <;> simp

@[simp] theorem abandonPlan_frame (s : State) :
    (abandonPlan s).pending = s.pending ∧ (abandonPlan s).mem = s.mem := by
  unfold abandonPlan; split <;> simp

@[simp] theorem poweredPeriod_frame (s : State) :
    (poweredPeriod s).pending = s.pending ∧ (poweredPeriod s).mem = s.mem := by
  simp [poweredPeriod]

/-! ### PowerCommands -/

@[simp] theorem askDomain_frame (d : ℕ) (s : State) :
    (askDomain d s).pending = s.pending ∧ (askDomain d s).mem = s.mem := by
  simp [askDomain]

@[simp] theorem onPower_frame (f : Power → Power) (s : State) :
    (onPower f s).pending = s.pending ∧ (onPower f s).mem = s.mem := by
  simp [onPower]

@[simp] theorem resumeCl_frame (s : State) :
    (resumeCl s).pending = s.pending ∧ (resumeCl s).mem = s.mem := by
  simp [resumeCl]

@[simp] theorem rollback_frame (s : State) :
    (rollback s).pending = s.pending ∧ (rollback s).mem = s.mem := by
  unfold rollback; split <;> simp

@[simp] theorem entryRefused_frame (target : ℕ) (d : ℕ) (cause : ℕ) (s : State) :
    (entryRefused target d cause s).pending = s.pending ∧ (entryRefused target d cause s).mem = s.mem := by
  simp [entryRefused]

@[simp] theorem enterState_frame (target : ℕ) (s : State) :
    (enterState target s).pending = s.pending ∧ (enterState target s).mem = s.mem := by
  unfold enterState; (repeat' split) <;> simp [survive]

@[simp] theorem progPowerStateRequest_keeps (target : ℕ) : (progPowerStateRequest target).Keeps := by
  constructor <;> intros <;> dsimp only [progPowerStateRequest, Prog.direct] <;> (repeat' split) <;> simp_all

@[simp] theorem progPowerStatus_keeps  : (progPowerStatus).Keeps := by
  constructor <;> intros <;> simp [progPowerStatus, Prog.direct]

@[simp] theorem execPowerStatus_frame (h : Hdr) (s : State) :
    Quiet s (execPowerStatus h s) := by
  simp only [execPowerStatus]; simp

@[simp] theorem progDomainHold_keeps (d : ℕ) (hold : ℕ) : (progDomainHold d hold).Keeps := by
  constructor <;> intros <;> simp [progDomainHold, Prog.direct]

@[simp] theorem execDomainHold_frame (h : Hdr) (domain : ℕ) (hold : ℕ) (s : State) :
    Quiet s (execDomainHold h domain hold s) := by
  simp only [execDomainHold]; simp

/-! ### ProtCommands -/

@[simp] theorem judged_frame (f : State → Status) (s : State) :
    (judged f s).2.pending = s.pending ∧ (judged f s).2.mem = s.mem := by
  simp [judged]

@[simp] theorem progCosignPropose_keeps (h : Hdr) (digest : List Byte) : (progCosignPropose h digest).Keeps := by
  constructor <;> intros <;> simp [progCosignPropose, Prog.direct]

@[simp] theorem execCosignPropose_frame (h : Hdr) (digest : List Byte) (s : State) :
    Quiet s (execCosignPropose h digest s) := by
  simp only [execCosignPropose]; simp

@[simp] theorem approveCheck_frame (h : Hdr) (tag : List Byte) (s : State) :
    (approveCheck h tag s).2.pending = s.pending ∧ (approveCheck h tag s).2.mem = s.mem := by
  unfold approveCheck; dsimp only; (repeat' split) <;> simp_all

@[simp] theorem progCosignApprove_keeps (h : Hdr) (tag : List Byte) : (progCosignApprove h tag).Keeps := by
  constructor <;> intros <;> dsimp only [progCosignApprove, Prog.direct] <;> (repeat' split) <;> simp_all

@[simp] theorem execCosignApprove_frame (h : Hdr) (tag : List Byte) (s : State) :
    Quiet s (execCosignApprove h tag s) := by
  simp only [execCosignApprove]; simp

@[simp] theorem progCosignStatus_keeps  : (progCosignStatus).Keeps := by
  constructor <;> intros <;> simp [progCosignStatus, Prog.direct]

@[simp] theorem execCosignStatus_frame (h : Hdr) (s : State) :
    Quiet s (execCosignStatus h s) := by
  simp only [execCosignStatus]; simp

@[simp] theorem progNonceGet_keeps  : (progNonceGet).Keeps := by
  constructor <;> intros <;> simp [progNonceGet, Prog.direct]

@[simp] theorem execNonceGet_frame (h : Hdr) (s : State) :
    Quiet s (execNonceGet h s) := by
  simp only [execNonceGet]; simp

@[simp] theorem endPatch_frame (s : State) :
    (endPatch s).pending = s.pending ∧ (endPatch s).mem = s.mem := by
  simp [endPatch]

@[simp] theorem patchBeginCheck_frame (h : Hdr) (n : Nat) (digest : List Byte) (s : State) :
    (patchBeginCheck h n digest s).2.pending = s.pending ∧ (patchBeginCheck h n digest s).2.mem = s.mem := by
  have hc := cosignCheck_frame h (canonicalImage 0x08 (leBytes 4 n ++ digest)) s
  unfold patchBeginCheck
  split
  · simp
  · split <;> simp_all

@[simp] theorem progFwPatchBegin_keeps (h : Hdr) (n : ℕ) (digest : List Byte) : (progFwPatchBegin h n digest).Keeps := by
  constructor <;> intros <;> simp [progFwPatchBegin, Prog.direct]

@[simp] theorem execFwPatchBegin_frame (h : Hdr) (length : ℕ) (digest : List Byte) (s : State) :
    Quiet s (execFwPatchBegin h length digest s) := by
  simp only [execFwPatchBegin]; simp

@[simp] theorem patchPacket_frame (h : Hdr) (image : List Byte) (own : Status) (s : State) :
    (patchPacket h image own s).2.pending = s.pending ∧ (patchPacket h image own s).2.mem = s.mem := by
  have hc := cosignCheck_frame h image (judgeExpiry s)
  have hj := judgeExpiry_frame s
  unfold patchPacket
  dsimp only
  split
  · split
    · split <;> simp
    · split <;> simp
  · split
    · simp
    · split <;> simp_all

@[simp] theorem progFwPatchData_keeps (h : Hdr) (off : ℕ) (data : List Byte) : (progFwPatchData h off data).Keeps := by
  constructor <;> intros <;> simp [progFwPatchData, Prog.direct]

@[simp] theorem execFwPatchData_frame (h : Hdr) (offset : ℕ) (data : List Byte) (s : State) :
    Quiet s (execFwPatchData h offset data s) := by
  simp only [execFwPatchData]; simp

@[simp] theorem progFwPatchCommit_keeps (h : Hdr) : (progFwPatchCommit h).Keeps := by
  constructor
  · intro s
    have hp := patchPacket_frame h (canonicalImage 0x0A []) .ok s
    simp only [progFwPatchCommit]
    split
    · split <;> simp_all
    · simp_all
  · simp [progFwPatchCommit]
  · simp [progFwPatchCommit]
  · intro a s
    simp only [progFwPatchCommit]
    split <;> simp
  · simp [progFwPatchCommit]
  · simp [progFwPatchCommit]

@[simp] theorem execFwPatchCommit_frame (h : Hdr) (s : State) :
    Quiet s (execFwPatchCommit h s) := by
  simp only [execFwPatchCommit]; simp

@[simp] theorem abortPatch_frame (s : State) :
    (abortPatch s).pending = s.pending ∧ (abortPatch s).mem = s.mem := by
  unfold abortPatch; constructor <;> (first | apply each_pending | apply each_mem) <;> intros <;> (repeat' split) <;> simp_all

@[simp] theorem progCosignCancel_keeps (h : Hdr) : (progCosignCancel h).Keeps := by
  constructor <;> intros <;> simp [progCosignCancel, Prog.direct]

@[simp] theorem execCosignCancel_frame (h : Hdr) (s : State) :
    Quiet s (execCosignCancel h s) := by
  simp only [execCosignCancel]; simp

/-! ### TableCommands -/

@[simp] theorem progTableRead_keeps (t : ℕ) (first : ℕ) (count : ℕ) : (progTableRead t first count).Keeps := by
  constructor <;> intros <;> simp [progTableRead, Prog.direct]

@[simp] theorem execTableRead_frame (h : Hdr) (table : ℕ) (first : ℕ) (count : ℕ) (s : State) :
    Quiet s (execTableRead h table first count s) := by
  simp only [execTableRead]; simp

@[simp] theorem stageEntry_frame (t : ℕ) (i : ℕ) (b : List Byte) (s : State) :
    (stageEntry t i b s).pending = s.pending ∧ (stageEntry t i b s).mem = s.mem := by
  unfold stageEntry; split <;> simp

@[simp] theorem progTableWrite_keeps (t : ℕ) (first : ℕ) (count : ℕ) (data : List Byte) : (progTableWrite t first count data).Keeps := by
  constructor <;> intros <;> simp [progTableWrite, Prog.direct]

@[simp] theorem execTableWrite_frame (h : Hdr) (table : ℕ) (first : ℕ) (count : ℕ) (entries : List Byte) (s : State) :
    Quiet s (execTableWrite h table first count entries s) := by
  simp only [execTableWrite]; simp

theorem burnSlot_frame (kind item : Nat) (b : List Byte) (x : Bool × State) :
    (burnSlot kind item b x).2.pending = x.2.pending ∧ (burnSlot kind item b x).2.mem = x.2.mem := by
  unfold burnSlot
  split
  · simp
  · dsimp only
    split <;> simp

theorem burnLock_frame (x : Bool × State) :
    (burnLock x).2.pending = x.2.pending ∧ (burnLock x).2.mem = x.2.mem := by
  unfold burnLock
  split
  · simp
  · dsimp only
    split <;> simp

@[simp] theorem burnAll_frame (s : State) : (burnAll s).2.pending = s.pending ∧ (burnAll s).2.mem = s.mem := by
  unfold burnAll
  dsimp only
  (repeat' split) <;> simp [burnSlot_frame, burnLock_frame]

@[simp] theorem progTableCommit_keeps (h : Hdr) (t : ℕ) : (progTableCommit h t).Keeps := by
  constructor <;> intros <;> dsimp only [progTableCommit, Prog.direct] <;> (repeat' split) <;> simp_all

@[simp] theorem execTableCommit_frame (h : Hdr) (table : ℕ) (s : State) :
    Quiet s (execTableCommit h table s) := by
  simp only [execTableCommit]; simp

/-! ### RckCommands -/

@[simp] theorem progBudgetQuery_keeps (res : ℕ) (idx : ℕ) : (progBudgetQuery res idx).Keeps := by
  constructor <;> intros <;> simp [progBudgetQuery, Prog.direct]

@[simp] theorem execBudgetQuery_frame (h : Hdr) (resource : ℕ) (index : ℕ) (s : State) :
    Quiet s (execBudgetQuery h resource index s) := by
  simp only [execBudgetQuery]; simp

@[simp] theorem progMarginReplan_keeps  : (progMarginReplan).Keeps := by
  constructor <;> intros <;> simp [progMarginReplan, Prog.direct]

@[simp] theorem execMarginReplan_frame (h : Hdr) (s : State) :
    Quiet s (execMarginReplan h s) := by
  simp only [execMarginReplan]; simp

@[simp] theorem afterPlan_frame (before : Option Plan) (s : State) :
    (afterPlan before s).pending = s.pending ∧ (afterPlan before s).mem = s.mem := by
  simp [afterPlan]

@[simp] theorem planBrown_frame (s : State) :
    (planBrown s).pending = s.pending ∧ (planBrown s).mem = s.mem := by
  simp [planBrown]

@[simp] theorem progAgeingReport_keeps  : (progAgeingReport).Keeps := by
  constructor <;> intros <;> simp [progAgeingReport, Prog.direct]

@[simp] theorem execAgeingReport_frame (h : Hdr) (s : State) :
    Quiet s (execAgeingReport h s) := by
  simp only [execAgeingReport]; simp

@[simp] theorem execTopsCount_frame (tops : List TopRead) (s : State) :
    Quiet s (execTopsCount tops s) := by
  simp only [execTopsCount]; simp

/-! ### RattleCommands -/

@[simp] theorem setArmed_frame (m : SMap Pert) (s : State) :
    (setArmed m s).pending = s.pending ∧ (setArmed m s).mem = s.mem := by
  simp [setArmed]

@[simp] theorem progRattleArm_keeps (n : ℕ) (target : ℕ) (v : ℕ) : (progRattleArm n target v).Keeps := by
  constructor <;> intros <;> simp [progRattleArm, Prog.direct]

@[simp] theorem execRattleArm_frame (h : Hdr) (pert : ℕ) (target : ℕ) (setting : ℕ) (s : State) :
    Quiet s (execRattleArm h pert target setting s) := by
  simp only [execRattleArm]; simp

@[simp] theorem disarm_frame (cause : ℕ) (n : ℕ) (s : State) :
    (disarm cause n s).pending = s.pending ∧ (disarm cause n s).mem = s.mem := by
  unfold disarm; split <;> simp

@[simp] theorem progRattleDisarm_keeps (n : ℕ) : (progRattleDisarm n).Keeps := by
  constructor <;> intros <;> simp [progRattleDisarm, Prog.direct]

@[simp] theorem execRattleDisarm_frame (h : Hdr) (pert : ℕ) (s : State) :
    Quiet s (execRattleDisarm h pert s) := by
  simp only [execRattleDisarm]; simp

@[simp] theorem execRattleArmLimit_frame (n : ℕ) (s : State) :
    Quiet s (execRattleArmLimit n s) := by
  unfold execRattleArmLimit; (repeat' split) <;> simp

@[simp] theorem progTestLoopback_keeps (kind : ℕ) (index : ℕ) : (progTestLoopback kind index).Keeps := by
  constructor <;> intros <;> simp [progTestLoopback, Prog.direct]

@[simp] theorem execTestLoopback_frame (h : Hdr) (kind : ℕ) (index : ℕ) (s : State) :
    Quiet s (execTestLoopback h kind index s) := by
  simp only [execTestLoopback]; simp

/-! ### ParamRead -/

@[simp] theorem progParamGet_keeps (pid : ℕ) : (progParamGet pid).Keeps := by
  constructor <;> intros <;> simp [progParamGet, Prog.direct]

@[simp] theorem execParamGet_frame (h : Hdr) (pid : ℕ) (s : State) :
    Quiet s (execParamGet h pid s) := by
  simp only [execParamGet]; simp

@[simp] theorem progGetCounters_keeps (first : ℕ) (n : ℕ) : (progGetCounters first n).Keeps := by
  constructor <;> intros <;> simp [progGetCounters, Prog.direct]

@[simp] theorem execGetCounters_frame (h : Hdr) (first : ℕ) (n : ℕ) (s : State) :
    Quiet s (execGetCounters h first n s) := by
  simp only [execGetCounters]; simp

/-! ### ParamWrite -/

@[simp] theorem storeField_frame (pid : ℕ) (v : ℕ) (f : Fld) (s : State) :
    (storeField pid v f s).pending = s.pending ∧ (storeField pid v f s).mem = s.mem := by
  simp [storeField]

@[simp] theorem writeEffect_frame (pid : ℕ) (old : ℕ) (v : ℕ) (s : State) :
    (writeEffect pid old v s).pending = s.pending ∧ (writeEffect pid old v s).mem = s.mem := by
  unfold writeEffect; (repeat' split) <;> simp

@[simp] theorem paramStore_frame (pid : ℕ) (v : ℕ) (s : State) :
    (paramStore pid v s).pending = s.pending ∧ (paramStore pid v s).mem = s.mem := by
  simp [paramStore]

@[simp] theorem progParamSet_keeps (pid : ℕ) (v : ℕ) : (progParamSet pid v).Keeps := by
  constructor <;> intros <;> simp [progParamSet, Prog.direct]

@[simp] theorem execParamSet_frame (h : Hdr) (pid : ℕ) (value : ℕ) (s : State) :
    Quiet s (execParamSet h pid value s) := by
  simp only [execParamSet]; simp

@[simp] theorem writeMany_frame (l : List (Nat × Nat)) (s : State) :
    (writeMany l s).2.pending = s.pending ∧ (writeMany l s).2.mem = s.mem := by
  induction l generalizing s with
  | nil => simp [writeMany]
  | cons x l ih =>
    unfold writeMany
    split
    · have := ih (paramStore x.1 x.2 s)
      simp_all
    · simp

@[simp] theorem progParamSetMany_keeps (pairs : List (ℕ × ℕ)) : (progParamSetMany pairs).Keeps := by
  constructor <;> intros <;> simp [progParamSetMany, Prog.direct]

@[simp] theorem execParamSetMany_frame (h : Hdr) (pairs : List (ℕ × ℕ)) (s : State) :
    Quiet s (execParamSetMany h pairs s) := by
  simp only [execParamSetMany]; simp

@[simp] theorem execSyncArmOneShot_frame (h : Hdr) (s : State) :
    Quiet s (execSyncArmOneShot h s) := by
  simp only [execSyncArmOneShot]; simp

@[simp] theorem execSyncArmMonitor_frame (h : Hdr) (s : State) :
    Quiet s (execSyncArmMonitor h s) := by
  simp only [execSyncArmMonitor]; simp

@[simp] theorem execSyncDisarm_frame (h : Hdr) (s : State) :
    Quiet s (execSyncDisarm h s) := by
  simp only [execSyncDisarm]; simp

@[simp] theorem execTxMsgSend_frame (h : Hdr) (carrier : ℕ) (len : ℕ) (s : State) :
    Quiet s (execTxMsgSend h carrier len s) := by
  simp only [execTxMsgSend]; simp

@[simp] theorem execPoweredHoursWrite_frame (h : Hdr) (hours : ℕ) (s : State) :
    Quiet s (execPoweredHoursWrite h hours s) := by
  simp only [execPoweredHoursWrite]; simp

/-! ### Packets -/

@[simp] theorem progUnread_keeps (h : Hdr) (op : Nat) : (progUnread h op).Keeps := by
  unfold progUnread
  split
  · simp
  · split
    · constructor <;> intros <;> simp
    · simp

@[simp] theorem progOf_keeps (c : Instr) : (progOf c).Keeps := by
  cases c <;> simp [progOf]

@[simp] theorem startArrived_frame (a : Arrived) (s : State) :
    (startArrived a s).pending = s.pending ∧ (startArrived a s).mem = s.mem := by
  have h : (a.cmd.elim (progUnread a.hdr a.op) progOf).Keeps := by cases a.cmd <;> simp
  unfold startArrived
  split
  · simp
  · simp [h]

@[simp] theorem pumpN_frame (n : Nat) (s : State) :
    (pumpN n s).pending = s.pending ∧ (pumpN n s).mem = s.mem := by
  induction n generalizing s with
  | zero => simp [pumpN]
  | succ n ih =>
    unfold pumpN
    split
    · simp
    · split
      · simp
      · rename_i a rest _ _
        have h := ih (startArrived a { s with waiting := rest })
        simp_all

@[simp] theorem pump_frame (s : State) :
    (pump s).pending = s.pending ∧ (pump s).mem = s.mem := by
  simp [pump]

@[simp] theorem endCmd_frame (st : Status) (pl : List Byte) (r : Running) (s : State) :
    (endCmd st pl r s).pending = s.pending ∧ (endCmd st pl r s).mem = s.mem := by
  simp [endCmd]

@[simp] theorem sweep_frame (s : State) :
    (sweep s).pending = s.pending ∧ (sweep s).mem = s.mem := by
  simp [sweep]

@[simp] theorem settle_frame (s : State) :
    (settle s).pending = s.pending ∧ (settle s).mem = s.mem := by
  simp [settle]

@[simp] theorem execPowerStateRequest_frame (h : Hdr) (state : ℕ) (s : State) :
    Quiet s (execPowerStateRequest h state s) := by
  simp only [execPowerStateRequest]; simp

@[simp] theorem packetIn_frame (c : Chan) (b : List Byte) (s : State) :
    (packetIn c b s).pending = s.pending ∧ (packetIn c b s).mem = s.mem := by
  simp [packetIn]

@[simp] theorem pushByte_frame (c : Chan) (b : Byte) (s : State) :
    (pushByte c b s).pending = s.pending ∧ (pushByte c b s).mem = s.mem := by
  simp [pushByte]

@[simp] theorem execPacketAssemblyTimeout_frame (c : Chan) (s : State) :
    Quiet s (execPacketAssemblyTimeout c s) := by
  simp only [execPacketAssemblyTimeout]; simp

@[simp] theorem execDiscardModeEnd_frame (c : Chan) (s : State) :
    Quiet s (execDiscardModeEnd c s) := by
  simp only [execDiscardModeEnd]; simp

@[simp] theorem execHeldReplyEntersFifo_frame (c : Chan) (s : State) :
    Quiet s (execHeldReplyEntersFifo c s) := by
  simp only [execHeldReplyEntersFifo]; simp

@[simp] theorem execCmdTimeout_frame (c : Chan) (tag : ℕ) (s : State) :
    Quiet s (execCmdTimeout c tag s) := by
  unfold execCmdTimeout; (repeat' split) <;> simp

@[simp] theorem execReplyDelayEnd_frame (c : Chan) (tag : ℕ) (s : State) :
    Quiet s (execReplyDelayEnd c tag s) := by
  unfold execReplyDelayEnd; (repeat' split) <;> simp

@[simp] theorem doneWaiting_frame (w : Wait) (s : State) :
    (doneWaiting w s).pending = s.pending ∧ (doneWaiting w s).mem = s.mem := by
  simp [doneWaiting]

@[simp] theorem failWaiting_frame (w : Wait) (st : Status) (s : State) :
    (failWaiting w st s).pending = s.pending ∧ (failWaiting w st s).mem = s.mem := by
  simp [failWaiting]

/-! ### Resets -/

@[simp] theorem enterReset_frame (kind : ℕ) (s : State) :
    (enterReset kind s).pending = s.pending := by
  simp [enterReset]

@[simp] theorem enterReset_wf (kind : ℕ) (s : State) (h : MemWf s.mem) :
    MemWf (enterReset kind s).mem := by
  first | (simp [enterReset, h]; done) | (unfold enterReset; (repeat' split) <;> simp_all)

@[simp] theorem execPor_frame (order : ℕ) (s : State) :
    Still s (execPor order s) := by
  simp only [execPor]; simp

@[simp] theorem execPor_wf (order : ℕ) (s : State) (h : MemWf s.mem) :
    WfAfter (execPor order s) := by
  first | (simp [execPor, h]; done) | (unfold execPor; (repeat' split) <;> simp_all)

@[simp] theorem execBor_frame (rail : ℕ) (s : State) :
    Still s (execBor rail s) := by
  simp only [execBor]; simp

@[simp] theorem execBor_wf (rail : ℕ) (s : State) (h : MemWf s.mem) :
    WfAfter (execBor rail s) := by
  first | (simp [execBor, h]; done) | (unfold execBor; (repeat' split) <;> simp_all)

@[simp] theorem execPinReset_frame (s : State) :
    Still s (execPinReset s) := by
  simp only [execPinReset]; simp

@[simp] theorem execPinReset_wf (s : State) (h : MemWf s.mem) :
    WfAfter (execPinReset s) := by
  first | (simp [execPinReset, h]; done) | (unfold execPinReset; (repeat' split) <;> simp_all)

@[simp] theorem execResetRelease_frame (boot : ℕ) (addrPins : ℕ) (s : State) :
    Quiet s (execResetRelease boot addrPins s) := by
  unfold execResetRelease; (repeat' split) <;> simp

@[simp] theorem execSoftResetTrigger_frame (s : State) :
    Still s (execSoftResetTrigger s) := by
  simp only [execSoftResetTrigger]; simp

@[simp] theorem execSoftResetTrigger_wf (s : State) (h : MemWf s.mem) :
    WfAfter (execSoftResetTrigger s) := by
  first | (simp [execSoftResetTrigger, h]; done) | (unfold execSoftResetTrigger; (repeat' split) <;> simp_all)

@[simp] theorem riseReady_frame (s : State) :
    (riseReady s).pending = s.pending ∧ (riseReady s).mem = s.mem := by
  simp [riseReady]

@[simp] theorem bootCount_frame (tops : List TopRead) (s : State) :
    (bootCount tops s).pending = s.pending ∧ (bootCount tops s).mem = s.mem := by
  simp [bootCount]

@[simp] theorem execBootReady_frame (romOk : Bool) (tops : List TopRead) (s : State) :
    Quiet s (execBootReady romOk tops s) := by
  unfold execBootReady; dsimp only; (repeat' split) <;> simp_all

/-! ### Injections -/

@[simp] theorem useInjection_frame (n : ℕ) (s : State) :
    (useInjection n s).pending = s.pending ∧ (useInjection n s).mem = s.mem := by
  unfold useInjection; split <;> simp

@[simp] theorem lockVerdict_frame (id : ℕ) (second : Bool) (confirmed : Bool) (s : State) :
    (lockVerdict id second confirmed s).2.pending = s.pending ∧ (lockVerdict id second confirmed s).2.mem = s.mem := by
  unfold lockVerdict; dsimp only; (repeat' split) <;> simp_all

@[simp] theorem crcVerdict_frame (target : ℕ) (ok : Bool) (s : State) :
    (crcVerdict target ok s).2.pending = s.pending ∧ (crcVerdict target ok s).2.mem = s.mem := by
  unfold crcVerdict; (repeat' split) <;> simp

end Sys2Proof.Machine
end

