-- ==== Sys2Proof/Laws/FrameEvents.lean ====
section
/-! SUPPORT. What transmit, command link, clock, power, supply and SEQ events leave of the queue and of memory. -/

namespace Sys2Proof.Machine

/-! ### TxEvents -/

@[simp] theorem doneRamps_frame (s : State) :
    (doneRamps s).pending = s.pending ∧ (doneRamps s).mem = s.mem := by
  simp [doneRamps]

@[simp] theorem doneStarts_frame (s : State) :
    (doneStarts s).pending = s.pending ∧ (doneStarts s).mem = s.mem := by
  simp [doneStarts]

@[simp] theorem countBrown_frame (ending : List Nat) (before s : State) :
    (countBrown ending before s).pending = s.pending ∧ (countBrown ending before s).mem = s.mem := by
  unfold countBrown; (repeat' split) <;> simp

@[simp] theorem execTxRampDownEnd_frame (s : State) :
    Quiet s (execTxRampDownEnd s) := by
  simp only [execTxRampDownEnd]; simp

@[simp] theorem execPaOffDelayExpiry_frame (s : State) :
    Quiet s (execPaOffDelayExpiry s) := by
  simp only [execPaOffDelayExpiry]; simp

@[simp] theorem paUp_frame (s : State) :
    (paUp s).pending = s.pending ∧ (paUp s).mem = s.mem := by
  simp [paUp]

@[simp] theorem execTxStartBoundary_frame (s : State) :
    Quiet s (execTxStartBoundary s) := by
  simp only [execTxStartBoundary]; simp

@[simp] theorem execTxResumed_frame (s : State) :
    Quiet s (execTxResumed s) := by
  simp only [execTxResumed]; simp

@[simp] theorem txFaultCut_frame (cause : ℕ) (s : State) :
    (txFaultCut cause s).pending = s.pending ∧ (txFaultCut cause s).mem = s.mem := by
  simp [txFaultCut]

@[simp] theorem txBrownCut_frame (s : State) :
    (txBrownCut s).pending = s.pending ∧ (txBrownCut s).mem = s.mem := by
  simp [txBrownCut]

@[simp] theorem execCarrierRetuned_frame (c : ℕ) (s : State) :
    Quiet s (execCarrierRetuned c s) := by
  unfold execCarrierRetuned; (repeat' split) <;> simp

@[simp] theorem carrierMove_frame (c : ℕ) (s : State) :
    (carrierMove c s).pending = s.pending ∧ (carrierMove c s).mem = s.mem := by
  unfold carrierMove; split <;> simp

/-! ### ClEvents -/

@[simp] theorem coexDenied_frame (s : State) :
    (coexDenied s).pending = s.pending ∧ (coexDenied s).mem = s.mem := by
  simp [coexDenied]

@[simp] theorem abandonBeacon_frame (s : State) :
    (abandonBeacon s).pending = s.pending ∧ (abandonBeacon s).mem = s.mem := by
  simp [abandonBeacon]

@[simp] theorem sendBeacon_frame (s : State) :
    (sendBeacon s).pending = s.pending ∧ (sendBeacon s).mem = s.mem := by
  simp [sendBeacon]

@[simp] theorem synthLocked_frame (id : Nat) (s : State) :
    (synthLocked id s).pending = s.pending ∧ (synthLocked id s).mem = s.mem := by
  simp [synthLocked]

@[simp] theorem lockChannel_frame (hz : ℕ) (ok : Bool) (s : State) :
    (lockChannel hz ok s).2.pending = s.pending ∧ (lockChannel hz ok s).2.mem = s.mem := by
  unfold lockChannel; dsimp only; (repeat' split) <;> simp_all

@[simp] theorem failClLock_frame (s : State) :
    (failClLock s).pending = s.pending ∧ (failClLock s).mem = s.mem := by
  simp [failClLock]

@[simp] theorem hopChannel_frame (lockOk : Bool) (s : State) :
    (hopChannel lockOk s).pending = s.pending ∧ (hopChannel lockOk s).mem = s.mem := by
  unfold hopChannel; split <;> simp

@[simp] theorem execClHopDone_frame (lockOk : Bool) (s : State) :
    Quiet s (execClHopDone lockOk s) := by
  simp only [execClHopDone]; simp

@[simp] theorem newSuperframe_frame (s : State) :
    (newSuperframe s).pending = s.pending ∧ (newSuperframe s).mem = s.mem := by
  simp [newSuperframe]

@[simp] theorem beaconOrNot_frame (grant : Bool) (s : State) :
    (beaconOrNot grant s).pending = s.pending ∧ (beaconOrNot grant s).mem = s.mem := by
  simp [beaconOrNot]

@[simp] theorem startLater_frame (s : State) :
    (startLater s).pending = s.pending ∧ (startLater s).mem = s.mem := by
  simp [startLater]

@[simp] theorem startBeacon_frame (grant : Bool) (s : State) :
    (startBeacon grant s).pending = s.pending ∧ (startBeacon grant s).mem = s.mem := by
  unfold startBeacon; dsimp only; split <;> simp

@[simp] theorem startSlot_frame (grant : Bool) (lockOk : Bool) (s : State) :
    (startSlot grant lockOk s).pending = s.pending ∧ (startSlot grant lockOk s).mem = s.mem := by
  have h := lockChannel_frame ((startFreq s).getD s.clk.cmd.freq) lockOk s
  unfold startSlot
  dsimp only
  split
  · exact ⟨rfl, rfl⟩
  · split
    · exact startLater_frame s
    · exact startLater_frame s
    · exact startLater_frame s
    · split
      · exact startBeacon_frame grant s
      · generalize lockChannel ((startFreq s).getD s.clk.cmd.freq) lockOk s = x at h ⊢
        obtain ⟨o, t⟩ := x
        cases o with
        | none => simpa using h
        | some b => cases b <;> simp <;> (try split) <;> simpa using h

@[simp] theorem beaconSlot_frame (grant : Bool) (lockOk : Bool) (s : State) :
    (beaconSlot grant lockOk s).pending = s.pending ∧ (beaconSlot grant lockOk s).mem = s.mem := by
  unfold beaconSlot; dsimp only; (repeat' split) <;> simp_all

@[simp] theorem execBeaconSlot_frame (grant : Bool) (lockOk : Bool) (s : State) :
    Quiet s (execBeaconSlot grant lockOk s) := by
  simp only [execBeaconSlot]; simp

@[simp] theorem execCoexGrantWithdrawn_frame (s : State) :
    Quiet s (execCoexGrantWithdrawn s) := by
  simp only [execCoexGrantWithdrawn]; simp

@[simp] theorem clIntrusion_frame (ses : ℕ) (detail : ℕ) (s : State) :
    (clIntrusion ses detail s).pending = s.pending ∧ (clIntrusion ses detail s).mem = s.mem := by
  simp [clIntrusion]

@[simp] theorem keyReply_frame (n : ℕ) (shown : ℕ) (both : Bool) (s : State) :
    (keyReply n shown both s).pending = s.pending ∧ (keyReply n shown both s).mem = s.mem := by
  unfold keyReply; split <;> simp

@[simp] theorem sendReplyHeld_frame (n : ℕ) (held : ℕ) (toggle : Bool) (s : State) :
    (sendReplyHeld n held toggle s).pending = s.pending ∧ (sendReplyHeld n held toggle s).mem = s.mem := by
  unfold sendReplyHeld; split <;> simp

@[simp] theorem messageIn_frame (n : ℕ) (m : InMsg) (s : State) :
    (messageIn n m s).pending = s.pending ∧ (messageIn n m s).mem = s.mem := by
  simp [messageIn]

@[simp] theorem fragmentIn_frame (n : ℕ) (ctrl : ℕ) (data : List Byte) (s : State) :
    (fragmentIn n ctrl data s).pending = s.pending ∧ (fragmentIn n ctrl data s).mem = s.mem := by
  unfold fragmentIn; dsimp only; (repeat' split) <;> simp_all

@[simp] theorem ackSlot_frame (slot : ℕ) (s : State) :
    (ackSlot slot s).pending = s.pending ∧ (ackSlot slot s).mem = s.mem := by
  simp [ackSlot]

@[simp] theorem pollTransition_frame (n : ℕ) (s : State) :
    (pollTransition n s).pending = s.pending ∧ (pollTransition n s).mem = s.mem := by
  unfold pollTransition; split <;> simp

@[simp] theorem pollValid_frame (slot : ℕ) (n : ℕ) (level : ℤ) (b : List Byte) (s : State) :
    (pollValid slot n level b s).pending = s.pending ∧ (pollValid slot n level b s).mem = s.mem := by
  simp [pollValid]

@[simp] theorem pollReply_frame (slot : ℕ) (level : ℤ) (b : List Byte) (s : State) :
    (pollReply slot level b s).pending = s.pending ∧ (pollReply slot level b s).mem = s.mem := by
  unfold pollReply; dsimp only; (repeat' split) <;> simp_all

@[simp] theorem joinIn_frame (slot : ℕ) (b : List Byte) (s : State) :
    (joinIn slot b s).pending = s.pending ∧ (joinIn slot b s).mem = s.mem := by
  unfold joinIn; dsimp only; (repeat' split) <;> simp_all

@[simp] theorem clPacketRead_frame (slot : Nat) (pkt : ClPacket) (s : State) :
    (clPacketRead slot pkt s).pending = s.pending ∧ (clPacketRead slot pkt s).mem = s.mem := by
  unfold clPacketRead; dsimp only; (repeat' split) <;> simp

@[simp] theorem clPacketIn_frame (slot : ℕ) (pkt : ClPacket) (s : State) :
    (clPacketIn slot pkt s).pending = s.pending ∧ (clPacketIn slot pkt s).mem = s.mem := by
  unfold clPacketIn; (repeat' split) <;> simp

@[simp] theorem execPollReply_frame (slot : ℕ) (pkt : ClPacket) (s : State) :
    Quiet s (execPollReply slot pkt s) := by
  simp only [execPollReply]; simp

@[simp] theorem execJoin_frame (slot : ℕ) (pkt : ClPacket) (s : State) :
    Quiet s (execJoin slot pkt s) := by
  simp only [execJoin]; simp

@[simp] theorem execClPreambleFalseStart_frame (s : State) :
    Quiet s (execClPreambleFalseStart s) := by
  simp only [execClPreambleFalseStart]; simp

@[simp] theorem missedPoll_frame (n : ℕ) (s : State) :
    (missedPoll n s).pending = s.pending ∧ (missedPoll n s).mem = s.mem := by
  unfold missedPoll; split <;> simp

@[simp] theorem slotPins_frame (slot : Nat) (s : State) :
    (slotPins slot s).pending = s.pending ∧ (slotPins slot s).mem = s.mem := by
  simp [slotPins]

@[simp] theorem execReplySlotEnd_frame (slot : ℕ) (grant : Bool) (s : State) :
    Quiet s (execReplySlotEnd slot grant s) := by
  simp only [execReplySlotEnd]; simp

@[simp] theorem execSessionRemoved_frame (n : ℕ) (reason : ℕ) (s : State) :
    Quiet s (execSessionRemoved n reason s) := by
  unfold execSessionRemoved; (repeat' split) <;> simp

@[simp] theorem execKeyChangeBoundary_frame (n : ℕ) (s : State) :
    Quiet s (execKeyChangeBoundary n s) := by
  unfold execKeyChangeBoundary; (repeat' split) <;> simp

@[simp] theorem keyReturn_frame (n : ℕ) (s : State) :
    (keyReturn n s).pending = s.pending ∧ (keyReturn n s).mem = s.mem := by
  unfold keyReturn
  split
  · split
    · constructor <;> simp only [queueEvent_frame, onSession_frame, bump_frame]
    · exact ⟨rfl, rfl⟩
  · exact ⟨rfl, rfl⟩

@[simp] theorem keyReturns_frame (s : State) :
    (keyReturns s).pending = s.pending ∧ (keyReturns s).mem = s.mem := by
  simp [keyReturns]

@[simp] theorem unannounced_frame (kind : ℕ) (n : ℕ) (h : Hop) (s : State) :
    (unannounced kind n h s).pending = s.pending ∧ (unannounced kind n h s).mem = s.mem := by
  simp [unannounced]

@[simp] theorem clSilence_frame (s : State) :
    (clSilence s).pending = s.pending ∧ (clSilence s).mem = s.mem := by
  simp [clSilence]

@[simp] theorem clBrownCut_frame (s : State) :
    (clBrownCut s).pending = s.pending ∧ (clBrownCut s).mem = s.mem := by
  simp [clBrownCut]

@[simp] theorem clFaultCut_frame (cause : ℕ) (s : State) :
    (clFaultCut cause s).pending = s.pending ∧ (clFaultCut cause s).mem = s.mem := by
  simp [clFaultCut]

/-! ### Restarts -/

@[simp] theorem fadeIn_frame (ds : List ℕ) (x : List ℤ) (s : State) :
    (fadeIn ds x s).2.pending = s.pending ∧ (fadeIn ds x s).2.mem = s.mem := by
  unfold fadeIn; split <;> simp

@[simp] theorem researchSynth_frame (id : ℕ) (s : State) :
    (researchSynth id s).pending = s.pending ∧ (researchSynth id s).mem = s.mem := by
  simp [researchSynth]

@[simp] theorem pllDown_frame (s : State) :
    (pllDown s).pending = s.pending ∧ (pllDown s).mem = s.mem := by
  simp [pllDown]

@[simp] theorem restartEffect_frame (d : ℕ) (s : State) :
    (restartEffect d s).pending = s.pending ∧ (restartEffect d s).mem = s.mem := by
  simp [restartEffect]

@[simp] theorem restartDomain_frame (d : ℕ) (cause : ℕ) (s : State) :
    (restartDomain d cause s).pending = s.pending ∧ (restartDomain d cause s).mem = s.mem := by
  simp [restartDomain]

@[simp] theorem restartEnds_frame (d : ℕ) (s : State) :
    (restartEnds d s).pending = s.pending ∧ (restartEnds d s).mem = s.mem := by
  simp [restartEnds]

@[simp] theorem execDomainRestart_frame (d : ℕ) (s : State) :
    Quiet s (execDomainRestart d s) := by
  simp only [execDomainRestart]; simp

@[simp] theorem execDomainWdog_frame (d : ℕ) (s : State) :
    Quiet s (execDomainWdog d s) := by
  simp only [execDomainWdog]; simp

@[simp] theorem countMiss_frame (x : Late) (told : List ℕ) (s : State) :
    (countMiss x told s).1.pending = s.pending ∧ (countMiss x told s).1.mem = s.mem := by
  unfold countMiss; dsimp only; (repeat' split) <;> simp_all

theorem foldMisses_frame (l : List Late) (x : State × List Nat) :
    (l.foldl (fun (x : State × List Nat) l => countMiss l x.2 x.1) x).1.pending = x.1.pending ∧
      (l.foldl (fun (x : State × List Nat) l => countMiss l x.2 x.1) x).1.mem = x.1.mem := by
  induction l generalizing x with
  | nil => simp
  | cons a l ih =>
    have h := ih (countMiss a x.2 x.1)
    simp only [List.foldl_cons]
    simpa using h
@[simp] theorem countMisses_frame (late : List Late) (s : State) :
    (countMisses late s).1.pending = s.pending ∧ (countMisses late s).1.mem = s.mem := foldMisses_frame late (s, [])

@[simp] theorem execStageTimeout_frame (d : ℕ) (stage : ℕ) (work : Option WorkRef) (s : State) :
    Quiet s (execStageTimeout d stage work s) := by
  unfold execStageTimeout; (repeat' split) <;> simp

@[simp] theorem gapMisses_frame (s : State) :
    (gapMisses s).pending = s.pending ∧ (gapMisses s).mem = s.mem := by
  unfold gapMisses; dsimp only; (repeat' split) <;> simp_all

/-! ### ClockEvents -/

@[simp] theorem execXtalQualified_frame (s : State) :
    Quiet s (execXtalQualified s) := by
  simp only [execXtalQualified]; simp

@[simp] theorem execXtalFail_frame (s : State) :
    Still s (execXtalFail s) := by
  simp only [execXtalFail]; simp

@[simp] theorem execXtalFail_wf (s : State) (h : MemWf s.mem) :
    WfAfter (execXtalFail s) := by
  first | (simp [execXtalFail, h]; done) | (unfold execXtalFail; (repeat' split) <;> simp_all)

@[simp] theorem execXtalFailRelease_frame (lf : ℕ) (boot : ℕ) (addrPins : ℕ) (s : State) :
    Quiet s (execXtalFailRelease lf boot addrPins s) := by
  simp only [execXtalFailRelease]; simp

@[simp] theorem execLfCrystalTakeover_frame (s : State) :
    Quiet s (execLfCrystalTakeover s) := by
  simp only [execLfCrystalTakeover]; simp

@[simp] theorem execLfSourceChange_frame (s : State) :
    Quiet s (execLfSourceChange s) := by
  simp only [execLfSourceChange]; simp

@[simp] theorem bridge_frame (lf : ℕ) (s : State) :
    (bridge lf s).pending = s.pending ∧ (bridge lf s).mem = s.mem := by
  simp [bridge]

@[simp] theorem execMainPllLockCheck_frame (confirmed : Bool) (lf : ℕ) (s : State) :
    Quiet s (execMainPllLockCheck confirmed lf s) := by
  simp only [execMainPllLockCheck]; simp

@[simp] theorem lockFault_frame (id : ℕ) (band : ℕ) (loss : Bool) (s : State) :
    (lockFault id band loss s).pending = s.pending ∧ (lockFault id band loss s).mem = s.mem := by
  simp [lockFault]

@[simp] theorem pllLost_frame (s : State) :
    (pllLost s).pending = s.pending ∧ (pllLost s).mem = s.mem := by
  simp [pllLost]

@[simp] theorem execMainPllLockLost_frame (s : State) :
    Quiet s (execMainPllLockLost s) := by
  simp only [execMainPllLockLost]; simp

@[simp] theorem execRefQualified_frame (s : State) :
    Quiet s (execRefQualified s) := by
  simp only [execRefQualified]; simp

@[simp] theorem execRefLocked_frame (correction : ℤ) (s : State) :
    Quiet s (execRefLocked correction s) := by
  simp only [execRefLocked]; simp

@[simp] theorem execRefLost_frame (cause : ℕ) (average : ℤ) (s : State) :
    Quiet s (execRefLost cause average s) := by
  simp only [execRefLost]; simp

@[simp] theorem execHoldoverEnd_frame (s : State) :
    Quiet s (execHoldoverEnd s) := by
  simp only [execHoldoverEnd]; simp

@[simp] theorem execReturnToCrystalDone_frame (s : State) :
    Quiet s (execReturnToCrystalDone s) := by
  simp only [execReturnToCrystalDone]; simp

@[simp] theorem calPart_frame (b : ℕ) (s : State) :
    (calPart b s).pending = s.pending ∧ (calPart b s).mem = s.mem := by
  simp [calPart]

@[simp] theorem imagePart_frame (s : State) :
    (imagePart s).pending = s.pending ∧ (imagePart s).mem = s.mem := by
  simp [imagePart]

@[simp] theorem synthPart_frame (id : ℕ) (s : State) :
    (synthPart id s).pending = s.pending ∧ (synthPart id s).mem = s.mem := by
  simp [synthPart]

@[simp] theorem execFullSynthCalibrationDone_frame (id : ℕ) (s : State) :
    Quiet s (execFullSynthCalibrationDone id s) := by
  simp only [execFullSynthCalibrationDone]; simp

@[simp] theorem execTxQuadratureCalibrationDone_frame (s : State) :
    Quiet s (execTxQuadratureCalibrationDone s) := by
  simp only [execTxQuadratureCalibrationDone]; simp

@[simp] theorem lockDeclared_frame (id : ℕ) (band : ℕ) (s : State) :
    (lockDeclared id band s).pending = s.pending ∧ (lockDeclared id band s).mem = s.mem := by
  simp [lockDeclared]

@[simp] theorem firstCheckFails_frame (id : ℕ) (band : ℕ) (s : State) :
    (firstCheckFails id band s).pending = s.pending ∧ (firstCheckFails id band s).mem = s.mem := by
  simp [firstCheckFails]

@[simp] theorem secondCheckFails_frame (id : ℕ) (band : ℕ) (s : State) :
    (secondCheckFails id band s).pending = s.pending ∧ (secondCheckFails id band s).mem = s.mem := by
  simp [secondCheckFails]

@[simp] theorem execSynthLockCheck_frame (id : ℕ) (confirmed : Bool) (band : ℕ) (s : State) :
    Quiet s (execSynthLockCheck id confirmed band s) := by
  simp only [execSynthLockCheck]; simp

@[simp] theorem synthLost_frame (id : ℕ) (band : ℕ) (s : State) :
    (synthLost id band s).pending = s.pending ∧ (synthLost id band s).mem = s.mem := by
  simp [synthLost]

@[simp] theorem execSynthLockLost_frame (id : ℕ) (band : ℕ) (s : State) :
    Quiet s (execSynthLockLost id band s) := by
  simp only [execSynthLockLost]; simp

@[simp] theorem tempCal_frame (s : State) :
    (tempCal s).pending = s.pending ∧ (tempCal s).mem = s.mem := by
  simp [tempCal]

@[simp] theorem stalePriv_frame (t : ℤ) (s : State) :
    (stalePriv t s).pending = s.pending ∧ (stalePriv t s).mem = s.mem := by
  simp [stalePriv]

@[simp] theorem staleTx_frame (t : ℤ) (s : State) :
    (staleTx t s).pending = s.pending ∧ (staleTx t s).mem = s.mem := by
  simp [staleTx]

@[simp] theorem execTempSample_frame (t : ℤ) (s : State) :
    Quiet s (execTempSample t s) := by
  simp only [execTempSample]; simp

@[simp] theorem execSyncInstant_frame (s : State) :
    Quiet s (execSyncInstant s) := by
  simp only [execSyncInstant]; simp

@[simp] theorem execSyncMonitorEdge_frame (error : ℤ) (s : State) :
    Quiet s (execSyncMonitorEdge error s) := by
  simp only [execSyncMonitorEdge]; simp

/-! ### PowerEvents -/

@[simp] theorem refuseEntry_frame (d : ℕ) (cause : ℕ) (s : State) :
    (refuseEntry d cause s).pending = s.pending ∧ (refuseEntry d cause s).mem = s.mem := by
  unfold refuseEntry; split <;> simp

@[simp] theorem abandonEntry_frame (s : State) :
    (abandonEntry s).pending = s.pending ∧ (abandonEntry s).mem = s.mem := by
  simp [abandonEntry]

@[simp] theorem execEntryAborted_frame (s : State) :
    Quiet s (execEntryAborted s) := by
  simp only [execEntryAborted]; simp

@[simp] theorem sleepOffset_frame (s : State) :
    (sleepOffset s).2.pending = s.pending ∧ (sleepOffset s).2.mem = s.mem := by
  unfold sleepOffset; split <;> simp

@[simp] theorem enterSleep_frame (target : ℕ) (s : State) :
    (enterSleep target s).pending = s.pending := by
  simp [enterSleep]

@[simp] theorem enterSleep_wf (target : ℕ) (s : State) (h : MemWf s.mem) :
    MemWf (enterSleep target s).mem := by
  first | (simp [enterSleep, h]; done) | (unfold enterSleep; (repeat' split) <;> simp_all)

@[simp] theorem entryComplete_frame (target : ℕ) (s : State) :
    (entryComplete target s).pending = s.pending := by
  simp [entryComplete]

@[simp] theorem entryComplete_wf (target : ℕ) (s : State) (h : MemWf s.mem) :
    MemWf (entryComplete target s).mem := by
  first | (simp [entryComplete, h]; done) | (unfold entryComplete; (repeat' split) <;> simp_all)

@[simp] theorem execDomainEntryAck_frame (d : Nat) (s : State) : Still s (execDomainEntryAck d s) := by
  unfold execDomainEntryAck
  rw [still_next]
  split
  · rfl
  · split
    · rfl
    · dsimp only
      rw [(settle_frame _).1]
      (repeat' split) <;> simp

@[simp] theorem execDomainEntryAck_wf (d : Nat) (s : State) (h : MemWf s.mem) : WfAfter (execDomainEntryAck d s) := by
  unfold execDomainEntryAck
  rw [wfAfter_next]
  split
  · exact h
  · split
    · exact h
    · dsimp only
      rw [(settle_frame _).2]
      (repeat' split) <;> simp [h]

@[simp] theorem execPowerHandshakeTimeout_frame (d : ℕ) (s : State) :
    Still s (execPowerHandshakeTimeout d s) := by
  unfold execPowerHandshakeTimeout; (repeat' split) <;> simp

@[simp] theorem execPowerHandshakeTimeout_wf (d : ℕ) (s : State) (h : MemWf s.mem) :
    WfAfter (execPowerHandshakeTimeout d s) := by
  first | (simp [execPowerHandshakeTimeout, h]; done) | (unfold execPowerHandshakeTimeout; (repeat' split) <;> simp_all)

@[simp] theorem countIdle_frame (s : State) :
    (countIdle s).pending = s.pending ∧ (countIdle s).mem = s.mem := by
  simp [countIdle]

@[simp] theorem execIdleGate_frame (d : ℕ) (s : State) :
    Quiet s (execIdleGate d s) := by
  simp only [execIdleGate]; simp

@[simp] theorem resumeStalled_frame (s : State) :
    (resumeStalled s).pending = s.pending ∧ (resumeStalled s).mem = s.mem := by
  simp [resumeStalled]

@[simp] theorem execDomainWakeDone_frame (d : ℕ) (us : ℕ) (s : State) :
    Quiet s (execDomainWakeDone d us s) := by
  simp only [execDomainWakeDone]; simp

@[simp] theorem execDomainWakeFault_frame (d : ℕ) (s : State) :
    Quiet s (execDomainWakeFault d s) := by
  simp only [execDomainWakeFault]; simp

@[simp] theorem fireWake_frame (n : ℕ) (s : State) :
    (fireWake n s).pending = s.pending ∧ (fireWake n s).mem = s.mem := by
  unfold fireWake; (repeat' split) <;> simp

@[simp] theorem fireAlarm_frame (s : State) :
    (fireAlarm s).pending = s.pending ∧ (fireAlarm s).mem = s.mem := by
  unfold fireAlarm; split <;> simp

@[simp] theorem execTimeAlarm_frame (s : State) :
    Quiet s (execTimeAlarm s) := by
  simp only [execTimeAlarm]; simp

@[simp] theorem execWakeSourceFire_frame (source : ℕ) (pin : ℕ) (s : State) :
    Quiet s (execWakeSourceFire source pin s) := by
  simp only [execWakeSourceFire]; simp

/-! ### SupplyEvents -/

@[simp] theorem onSupply_frame (f : Supply → Supply) (s : State) :
    (onSupply f s).pending = s.pending ∧ (onSupply f s).mem = s.mem := by
  simp [onSupply]

@[simp] theorem execRfMonitorArmed_frame (s : State) :
    Quiet s (execRfMonitorArmed s) := by
  simp only [execRfMonitorArmed]; simp

@[simp] theorem brownBegins_frame (s : State) :
    (brownBegins s).pending = s.pending ∧ (brownBegins s).mem = s.mem := by
  simp [brownBegins]

@[simp] theorem stopCalibrate_frame (s : State) :
    (stopCalibrate s).pending = s.pending ∧ (stopCalibrate s).mem = s.mem := by
  simp [stopCalibrate]

@[simp] theorem brownCross_frame (rail lasts : ℕ) (s : State) :
    (brownCross rail lasts s).pending = s.pending ∧ (brownCross rail lasts s).mem = s.mem := by
  simp [brownCross]

@[simp] theorem execBrownWarn_frame (rail : ℕ) (s : State) :
    Quiet s (execBrownWarn rail s) := by
  simp only [execBrownWarn]; simp

@[simp] theorem execBrownHoldEnd_frame (us : ℕ) (s : State) :
    Quiet s (execBrownHoldEnd us s) := by
  simp only [execBrownHoldEnd]; simp

@[simp] theorem execPostBrownHoldDeferralEnd_frame (s : State) :
    Quiet s (execPostBrownHoldDeferralEnd s) := by
  simp only [execPostBrownHoldDeferralEnd]; simp

@[simp] theorem wakeBrown_frame (s : State) :
    (wakeBrown s).pending = s.pending ∧ (wakeBrown s).mem = s.mem := by
  simp [wakeBrown]

@[simp] theorem execRailPresenceChange_frame (rail : ℕ) (up : Bool) (off : Bool) (mv : ℕ) (s : State) :
    Quiet s (execRailPresenceChange rail up off mv s) := by
  simp only [execRailPresenceChange]; simp

@[simp] theorem execScheduledPlan_frame (s : State) :
    Quiet s (execScheduledPlan s) := by
  simp only [execScheduledPlan]; simp

@[simp] theorem execKnobStepVerified_frame (tops : List TopRead) (s : State) :
    Quiet s (execKnobStepVerified tops s) := by
  simp only [execKnobStepVerified]; simp

@[simp] theorem execCosignExpired_frame (s : State) :
    Quiet s (execCosignExpired s) := by
  simp only [execCosignExpired]; simp

@[simp] theorem execPatchSequenceTimeout_frame (s : State) :
    Quiet s (execPatchSequenceTimeout s) := by
  simp only [execPatchSequenceTimeout]; simp

/-! ### SeqEvents -/

@[simp] theorem queueWaited_frame (s : State) :
    (queueWaited s).pending = s.pending ∧ (queueWaited s).mem = s.mem := by
  simp [queueWaited]

@[simp] theorem wakeParams_frame (lf : ℕ) (us : ℕ) (s : State) :
    (wakeParams lf us s).pending = s.pending ∧ (wakeParams lf us s).mem = s.mem := by
  simp [wakeParams]

@[simp] theorem seqRestarts_frame (s : State) :
    (seqRestarts s).pending = s.pending ∧ (seqRestarts s).mem = s.mem := by
  have hu : ∀ (r : Running) (s : State), ((progOf r.cmd).undo r.aux s).pending = s.pending ∧
      ((progOf r.cmd).undo r.aux s).mem = s.mem := fun r s => (progOf_keeps r.cmd).undo r.aux s
  simp [seqRestarts, hu]

@[simp] theorem execSeqWatchdogExpiry_frame (s : State) : Still s (execSeqWatchdogExpiry s) := by
  unfold execSeqWatchdogExpiry
  rw [still_next]
  split
  · rfl
  · dsimp only
    split <;> simp

end Sys2Proof.Machine
end

