-- ==== Sys2Proof/Laws/FrameFront.lean ====
section
/-! SUPPORT. What front window, two-wire and RF events leave of the queue and of memory. -/

namespace Sys2Proof.Machine

/-! ### FrontWindow -/

@[simp] theorem popReply_frame (c : Chan) (s : State) :
    (popReply c s).2.pending = s.pending ∧ (popReply c s).2.mem = s.mem := by
  unfold popReply; split <;> simp

@[simp] theorem softCount_frame (c : Chan) (s : State) :
    (softCount c s).pending = s.pending := by
  unfold softCount; split <;> simp

@[simp] theorem softCount_wf (c : Chan) (s : State) (h : MemWf s.mem) :
    MemWf (softCount c s).mem := by
  first | (simp [softCount, h]; done) | (unfold softCount; (repeat' split) <;> simp_all)

@[simp] theorem readReply_frame (c : Chan) (s : State) : (readReply c s).2.pending = s.pending := by
  unfold readReply
  split
  · simp
  · dsimp only
    split <;> simp

@[simp] theorem readReply_wf (c : Chan) (s : State) (h : MemWf s.mem) : MemWf (readReply c s).2.mem := by
  unfold readReply
  split
  · simp [h]
  · dsimp only
    split <;> simp [h]

@[simp] theorem writeCmd_frame (c : Chan) (b : Byte) (s : State) :
    (writeCmd c b s).pending = s.pending ∧ (writeCmd c b s).mem = s.mem := by
  simp [writeCmd]

@[simp] theorem flushCmd_frame (c : Chan) (s : State) :
    (flushCmd c s).pending = s.pending ∧ (flushCmd c s).mem = s.mem := by
  simp [flushCmd]

@[simp] theorem softFlush_frame (c : Chan) (s : State) :
    (softFlush c s).pending = s.pending ∧ (softFlush c s).mem = s.mem := by
  unfold softFlush; (repeat' split) <;> simp

@[simp] theorem flushReply_frame (c : Chan) (s : State) :
    (flushReply c s).pending = s.pending ∧ (flushReply c s).mem = s.mem := by
  simp [flushReply]

@[simp] theorem frontRead_frame (c : Chan) (a : ℕ) (s : State) :
    (frontRead c a s).2.pending = s.pending := by
  unfold frontRead; split <;> simp

@[simp] theorem frontRead_wf (c : Chan) (a : ℕ) (s : State) (h : MemWf s.mem) :
    MemWf (frontRead c a s).2.mem := by
  first | (simp [frontRead, h]; done) | (unfold frontRead; (repeat' split) <;> simp_all)

@[simp] theorem alertWrite_frame (v : Byte) (s : State) :
    (alertWrite v s).pending = s.pending ∧ (alertWrite v s).mem = s.mem := by
  simp [alertWrite]

@[simp] theorem intWrite_frame (c : Chan) (v : Byte) (s : State) :
    (intWrite c v s).pending = s.pending ∧ (intWrite c v s).mem = s.mem := by
  simp [intWrite]

@[simp] theorem frontWrite_frame (c : Chan) (a : ℕ) (v : Byte) (s : State) :
    (frontWrite c a v s).pending = s.pending ∧ (frontWrite c a v s).mem = s.mem := by
  simp [frontWrite]

@[simp] theorem execCmdMailboxWrite_frame (c : Chan) (b : Byte) (s : State) :
    Quiet s (execCmdMailboxWrite c b s) := by
  simp only [execCmdMailboxWrite]; simp

@[simp] theorem execReplyMailboxRead_frame (c : Chan) (s : State) : Still s (execReplyMailboxRead c s) := by
  unfold execReplyMailboxRead
  rw [still_next]
  split <;> simp

@[simp] theorem execReplyMailboxRead_wf (c : Chan) (s : State) (h : MemWf s.mem) :
    WfAfter (execReplyMailboxRead c s) := by
  unfold execReplyMailboxRead
  rw [wfAfter_next]
  split <;> simp [h]

@[simp] theorem execFlushCmd_frame (c : Chan) (s : State) :
    Quiet s (execFlushCmd c s) := by
  simp only [execFlushCmd]; simp

@[simp] theorem execFlushReply_frame (c : Chan) (s : State) :
    Quiet s (execFlushReply c s) := by
  simp only [execFlushReply]; simp

@[simp] theorem execTimebaseLatch_frame (s : State) :
    Still s (execTimebaseLatch s) := by
  simp only [execTimebaseLatch]; simp

@[simp] theorem execTimebaseLatch_wf (s : State) (h : MemWf s.mem) :
    WfAfter (execTimebaseLatch s) := by
  first | (simp [execTimebaseLatch, h]; done) | (unfold execTimebaseLatch; (repeat' split) <;> simp_all)

@[simp] theorem execAlertStatusWrite_frame (v : Byte) (s : State) :
    Quiet s (execAlertStatusWrite v s) := by
  simp only [execAlertStatusWrite]; simp

@[simp] theorem execFrontWindowWrite_frame (c : Chan) (a : ℕ) (v : Byte) (s : State) :
    Quiet s (execFrontWindowWrite c a v s) := by
  simp only [execFrontWindowWrite]; simp

@[simp] theorem spiSelect_frame (s : State) :
    (spiSelect s).pending = s.pending ∧ (spiSelect s).mem = s.mem := by
  simp [spiSelect]

@[simp] theorem drive_frame (bs : List Byte) (s : State) :
    (drive bs s).pending = s.pending ∧ (drive bs s).mem = s.mem := by
  simp [drive]

@[simp] theorem countWaking_frame (s : State) :
    (countWaking s).pending = s.pending ∧ (countWaking s).mem = s.mem := by
  simp [countWaking]

@[simp] theorem spiRun_pending (needs : Bool) (n : Nat) (body : State → List Byte × State) (s : State) (hb : ∀ s, (body s).2.pending = s.pending) :
    (spiRun needs n body s).pending = s.pending := by
  unfold spiRun
  split
  · simp
  · dsimp only
    split <;> simp [hb]
@[simp] theorem spiRun_mem (needs : Bool) (n : Nat) (body : State → List Byte × State) (s : State) (hb : ∀ s, (body s).2.mem = s.mem) :
    (spiRun needs n body s).mem = s.mem := by
  unfold spiRun
  split
  · simp
  · dsimp only
    split <;> simp [hb]
@[simp] theorem spiRun_wf (needs : Bool) (n : Nat) (body : State → List Byte × State) (s : State) (hb : ∀ s, MemWf s.mem → MemWf (body s).2.mem) (h : MemWf s.mem) :
    MemWf (spiRun needs n body s).mem := by
  unfold spiRun
  split
  · simp [h]
  · dsimp only
    split
    · simp [h]
    · simp only [drive_frame]
      exact hb _ (by simp [h])

@[simp] theorem readRun_pending (n a : Nat) (s : State) :
    (readRun n a s).2.2.pending = s.pending := by
  induction n generalizing a s with
  | zero => simp [readRun]
  | succ n ih =>
    simp only [readRun]
    rw [ih]
    split <;> simp
@[simp] theorem readRun_wf (n a : Nat) (s : State) (h : MemWf s.mem) :
    MemWf (readRun n a s).2.2.mem := by
  induction n generalizing a s with
  | zero => simpa [readRun] using h
  | succ n ih =>
    simp only [readRun]
    apply ih
    split <;> simp [h]

@[simp] theorem writeRun_pending (l : List Byte) (a : Nat) (s : State) :
    (writeRun l a s).2.pending = s.pending := by
  induction l generalizing a s with
  | nil => simp [writeRun]
  | cons v l ih =>
    simp only [writeRun]
    rw [ih]
    split <;> simp
@[simp] theorem writeRun_mem (l : List Byte) (a : Nat) (s : State) :
    (writeRun l a s).2.mem = s.mem := by
  induction l generalizing a s with
  | nil => simp [writeRun]
  | cons v l ih =>
    simp only [writeRun]
    rw [ih]
    split <;> simp

theorem foldWrites_pending (l : List Byte) (s : State) :
    (l.foldl (fun s b => writeCmd .operator b s) s).pending = s.pending := by
  induction l generalizing s with
  | nil => rfl
  | cons b l ih => simp [ih]
theorem foldWrites_mem (l : List Byte) (s : State) : (l.foldl (fun s b => writeCmd .operator b s) s).mem = s.mem := by
  induction l generalizing s with
  | nil => rfl
  | cons b l ih => simp [ih]
@[simp] theorem execSpiWriteMailbox_frame (quad : Bool) (data : List Byte) (s : State) :
    Quiet s (execSpiWriteMailbox quad data s) := by
  unfold execSpiWriteMailbox
  rw [quiet_next]
  exact ⟨spiRun_pending _ _ _ _ (fun s => foldWrites_pending data s), spiRun_mem _ _ _ _ (fun s => foldWrites_mem data s)⟩

@[simp] theorem popRun_pending (n : Nat) (s : State) :
    (popRun n s).2.pending = s.pending := by
  induction n generalizing s with
  | zero => simp [popRun]
  | succ n ih =>
    simp only [popRun]
    rw [ih]
    simp
@[simp] theorem popRun_wf (n : Nat) (s : State) (h : MemWf s.mem) :
    MemWf (popRun n s).2.mem := by
  induction n generalizing s with
  | zero => simpa [popRun] using h
  | succ n ih =>
    simp only [popRun]
    apply ih
    simp [h]

@[simp] theorem execSpiReadMailbox_frame (x0 : Bool) (n : ℕ) (s : State) :
    Still s (execSpiReadMailbox x0 n s) := by
  simp only [execSpiReadMailbox]; simp

@[simp] theorem execSpiReadMailbox_wf (x0 : Bool) (n : ℕ) (s : State) (h : MemWf s.mem) :
    WfAfter (execSpiReadMailbox x0 n s) := by
  first | (simp [execSpiReadMailbox, h]; done) | (unfold execSpiReadMailbox; (repeat' split) <;> simp_all)

@[simp] theorem execSpiReadFrontWindow_frame (x0 : Bool) (addr : ℕ) (n : ℕ) (s : State) :
    Still s (execSpiReadFrontWindow x0 addr n s) := by
  simp only [execSpiReadFrontWindow]; simp

@[simp] theorem execSpiReadFrontWindow_wf (x0 : Bool) (addr : ℕ) (n : ℕ) (s : State) (h : MemWf s.mem) :
    WfAfter (execSpiReadFrontWindow x0 addr n s) := by
  first | (simp [execSpiReadFrontWindow, h]; done) | (unfold execSpiReadFrontWindow; (repeat' split) <;> simp_all)

@[simp] theorem execSpiWriteFrontWindow_frame (x0 : Bool) (addr : ℕ) (data : List Byte) (s : State) :
    Quiet s (execSpiWriteFrontWindow x0 addr data s) := by
  simp only [execSpiWriteFrontWindow]; simp

@[simp] theorem execSpiReadStatus_frame (x0 : Bool) (n : ℕ) (s : State) :
    Quiet s (execSpiReadStatus x0 n s) := by
  simp only [execSpiReadStatus]; simp

@[simp] theorem execSpiProtoErr_frame (code : Byte) (s : State) :
    Quiet s (execSpiProtoErr code s) := by
  simp only [execSpiProtoErr]; simp

@[simp] theorem onTw_frame (f : Tw → Tw) (s : State) :
    (onTw f s).pending = s.pending ∧ (onTw f s).mem = s.mem := by
  simp [onTw]

@[simp] theorem setTwPtr_frame (c : Chan) (v : ℕ) (s : State) :
    (setTwPtr c v s).pending = s.pending ∧ (setTwPtr c v s).mem = s.mem := by
  unfold setTwPtr; split <;> simp

@[simp] theorem twUnserved_frame (addr : ℕ) (detail : ℕ) (event : Bool) (s : State) :
    (twUnserved addr detail event s).pending = s.pending ∧ (twUnserved addr detail event s).mem = s.mem := by
  simp [twUnserved]

@[simp] theorem twPut_frame (c : Chan) (addr : ℕ) (v : Byte) (s : State) :
    (twPut c addr v s).2.pending = s.pending ∧ (twPut c addr v s).2.mem = s.mem := by
  unfold twPut; dsimp only; (repeat' split) <;> simp_all

@[simp] theorem twPuts_frame (c : Chan) (addr : Nat) (l : List Byte) (s : State) :
    (twPuts c addr l s).2.2.pending = s.pending ∧ (twPuts c addr l s).2.2.mem = s.mem := by
  induction l generalizing s with
  | nil => simp [twPuts]
  | cons v l ih =>
    have h := twPut_frame c addr v s
    simp only [twPuts]
    split
    · simp
    · split
      · simp_all
      · simp_all

@[simp] theorem twWrite_frame (c : Chan) (addr : Nat) (data : List Byte) (acks : List Bool) (s : State) :
    (twWrite c addr data acks s).pending = s.pending ∧ (twWrite c addr data acks s).mem = s.mem := by
  simp [twWrite]

@[simp] theorem twNotTaken_frame (s : State) :
    (twNotTaken s).pending = s.pending ∧ (twNotTaken s).mem = s.mem := by
  simp [twNotTaken]

@[simp] theorem twIrregular_frame (kind : ℕ) (s : State) :
    (twIrregular kind s).pending = s.pending ∧ (twIrregular kind s).mem = s.mem := by
  simp [twIrregular]

@[simp] theorem twGets_pending (c : Chan) (addr : Nat) (m : Option Nat) (n i : Nat) (u : Bool) (s : State) :
    (twGets c addr m n i u s).2.2.pending = s.pending := by
  induction n generalizing i u s with
  | zero => simp [twGets]
  | succ n ih =>
    simp only [twGets]
    (repeat' split) <;> simp [ih]
@[simp] theorem twGets_wf (c : Chan) (addr : Nat) (m : Option Nat) (n i : Nat) (u : Bool) (s : State) (h : MemWf s.mem) :
    MemWf (twGets c addr m n i u s).2.2.mem := by
  induction n generalizing i u s with
  | zero => simpa [twGets] using h
  | succ n ih =>
    simp only [twGets]
    repeat' split
    · exact h
    · exact ih _ _ _ (by simp [h])
    · exact ih _ _ _ (by simp [h])
    · exact ih _ _ _ (by simp [h])

@[simp] theorem twRead_frame (c : Chan) (addr n i : Nat) (m : Option Nat) (u : Bool) (sent : List Byte) (s : State) :
    (twRead c addr n i m u sent s).pending = s.pending := by
  simp [twRead]
@[simp] theorem twRead_wf (c : Chan) (addr n i : Nat) (m : Option Nat) (u : Bool) (sent : List Byte) (s : State) (h : MemWf s.mem) :
    MemWf (twRead c addr n i m u sent s).mem := by
  simp [twRead, h]

@[simp] theorem twHold_frame (c : Chan) (addr : Nat) (r : TwRest) (s : State) :
    (twHold c addr r s).pending = s.pending ∧ (twHold c addr r s).mem = s.mem := by
  simp [twHold]

@[simp] theorem twServe_frame (c : Chan) (addr : Nat) (r : TwRest) (s : State) : (twServe c addr r s).pending = s.pending := by
  unfold twServe; split <;> simp
@[simp] theorem twServe_wf (c : Chan) (addr : Nat) (r : TwRest) (s : State) (h : MemWf s.mem) : MemWf (twServe c addr r s).mem := by
  unfold twServe; split <;> simp [h]

@[simp] theorem twAddressed_frame (c : Option Chan) (addr : Nat) (r : TwRest) (s : State) :
    (twAddressed c addr r s).pending = s.pending := by
  unfold twAddressed; dsimp only; (repeat' split) <;> simp
@[simp] theorem twAddressed_wf (c : Option Chan) (addr : Nat) (r : TwRest) (s : State) (h : MemWf s.mem) :
    MemWf (twAddressed c addr r s).mem := by
  unfold twAddressed; dsimp only; (repeat' split) <;> simp [h]

@[simp] theorem twResume_frame (s : State) : (twResume s).pending = s.pending := by
  unfold twResume; split <;> simp
@[simp] theorem twResume_wf (s : State) (h : MemWf s.mem) : MemWf (twResume s).mem := by
  unfold twResume; split <;> simp [h]

@[simp] theorem twGivenUp_frame (s : State) : (twGivenUp s).pending = s.pending := by
  unfold twGivenUp; split <;> simp
@[simp] theorem twGivenUp_wf (s : State) (h : MemWf s.mem) : MemWf (twGivenUp s).mem := by
  unfold twGivenUp; split <;> simp [h]

@[simp] theorem execTwReadTransfer_frame (addr : ℕ) (n : ℕ) (mismatch : Option ℕ) (s : State) :
    Still s (execTwReadTransfer addr n mismatch s) := by
  simp [execTwReadTransfer]

@[simp] theorem execTwReadTransfer_wf (addr : ℕ) (n : ℕ) (mismatch : Option ℕ) (s : State) (h : MemWf s.mem) :
    WfAfter (execTwReadTransfer addr n mismatch s) := by
  simp [execTwReadTransfer, h]

@[simp] theorem execTwWriteTransfer_frame (addr : ℕ) (data : List Byte) (s : State) : Still s (execTwWriteTransfer addr data s) := by
  simp [execTwWriteTransfer]

@[simp] theorem execTwWriteTransfer_wf (addr : ℕ) (data : List Byte) (s : State) (h : MemWf s.mem) :
    WfAfter (execTwWriteTransfer addr data s) := by
  simp [execTwWriteTransfer, h]

@[simp] theorem execAlertResponse_frame (other : Byte) (s : State) :
    Quiet s (execAlertResponse other s) := by
  simp only [execAlertResponse]; simp

@[simp] theorem execTwProtoError_frame (kind : ℕ) (s : State) :
    Quiet s (execTwProtoError kind s) := by
  simp only [execTwProtoError]; simp

@[simp] theorem execTwWakeNack_frame (addr : ℕ) (detail : ℕ) (s : State) : Still s (execTwWakeNack addr detail s) := by
  unfold execTwWakeNack; rw [still_next]; (repeat' split) <;> simp

@[simp] theorem execTwWakeNack_wf (addr : ℕ) (detail : ℕ) (s : State) (h : MemWf s.mem) : WfAfter (execTwWakeNack addr detail s) := by
  unfold execTwWakeNack; rw [wfAfter_next]; (repeat' split) <;> simp [h]

@[simp] theorem execTwAddressMatchSleep_frame (addr : ℕ) (s : State) :
    Quiet s (execTwAddressMatchSleep addr s) := by
  simp only [execTwAddressMatchSleep]; simp

@[simp] theorem execTwSclTimeout_frame (sdaLow : Bool) (s : State) :
    Quiet s (execTwSclTimeout sdaLow s) := by
  simp only [execTwSclTimeout]; simp

@[simp] theorem execWoke_frame (lf : ℕ) (us : ℕ) (s : State) : Still s (execWoke lf us s) := by
  unfold execWoke; rw [still_next]; split <;> simp

@[simp] theorem execWoke_wf (lf : ℕ) (us : ℕ) (s : State) (h : MemWf s.mem) : WfAfter (execWoke lf us s) := by
  unfold execWoke; rw [wfAfter_next]; split <;> simp [h]

@[simp] theorem execSeqWatchdogExpiry_wf (s : State) (h : MemWf s.mem) : WfAfter (execSeqWatchdogExpiry s) := by
  unfold execSeqWatchdogExpiry
  rw [wfAfter_next]
  split
  · exact h
  · dsimp only
    split <;> simp [h]

@[simp] theorem execSeqRestarted_frame (s : State) : Still s (execSeqRestarted s) := by
  unfold execSeqRestarted; rw [still_next]; split <;> simp

@[simp] theorem execSeqRestarted_wf (s : State) (h : MemWf s.mem) : WfAfter (execSeqRestarted s) := by
  unfold execSeqRestarted; rw [wfAfter_next]; split <;> simp [h]

/-! ### RfEvents -/

@[simp] theorem onRf_frame (f : Rf → Rf) (s : State) :
    (onRf f s).pending = s.pending ∧ (onRf f s).mem = s.mem := by
  simp [onRf]

@[simp] theorem execImageCalFastEnd_frame (s : State) :
    Quiet s (execImageCalFastEnd s) := by
  simp only [execImageCalFastEnd]; simp

@[simp] theorem onChain_frame (aerial : ℕ) (f : Chain → Chain) (s : State) :
    (onChain aerial f s).pending = s.pending ∧ (onChain aerial f s).mem = s.mem := by
  simp [onChain]

@[simp] theorem execImageCalAlarm_frame (aerial : ℕ) (irr : ℕ) (s : State) :
    Quiet s (execImageCalAlarm aerial irr s) := by
  simp only [execImageCalAlarm]; simp

@[simp] theorem execPrivCalDone_frame (n : ℕ) (aRe : ℤ) (aIm : ℤ) (bRe : ℤ) (bIm : ℤ) (s : State) :
    Quiet s (execPrivCalDone n aRe aIm bRe bIm s) := by
  unfold execPrivCalDone; (repeat' split) <;> simp

@[simp] theorem moveLo_frame (s : State) :
    (moveLo s).pending = s.pending ∧ (moveLo s).mem = s.mem := by
  unfold moveLo; (repeat' split) <;> simp

@[simp] theorem execScanDwellEnd_frame (meas : List ScanMeas) (s : State) :
    Quiet s (execScanDwellEnd meas s) := by
  unfold execScanDwellEnd; (repeat' split) <;> simp

@[simp] theorem writeBin_frame (total : SMap BinMeas) (b : ℕ) (s : State) :
    (writeBin total b s).pending = s.pending ∧ (writeBin total b s).mem = s.mem := by
  simp [writeBin]

@[simp] theorem execScanPassEnd_frame (s : State) :
    Quiet s (execScanPassEnd s) := by
  unfold execScanPassEnd; (repeat' split) <;> simp

@[simp] theorem overload_frame (aerial : ℕ) (clip : ℕ) (s : State) :
    (overload aerial clip s).pending = s.pending ∧ (overload aerial clip s).mem = s.mem := by
  simp [overload]

@[simp] theorem chainTick_frame (aerial : ℕ) (rms : ℤ) (clip : ℕ) (irr : ℕ) (s : State) :
    (chainTick aerial rms clip irr s).pending = s.pending ∧ (chainTick aerial rms clip irr s).mem = s.mem := by
  simp [chainTick]

@[simp] theorem imageTick_frame (s : State) :
    (imageTick s).pending = s.pending ∧ (imageTick s).mem = s.mem := by
  have h := draw_frame s
  unfold imageTick
  dsimp only
  split
  · exact ⟨rfl, rfl⟩
  · simpa using h

@[simp] theorem privTick_frame (s : State) :
    (privTick s).pending = s.pending ∧ (privTick s).mem = s.mem := by
  unfold privTick
  constructor <;> (first | apply each_pending | apply each_mem) <;> intros <;> simp

@[simp] theorem ageBins_frame (s : State) :
    (ageBins s).pending = s.pending ∧ (ageBins s).mem = s.mem := by
  simp [ageBins]

@[simp] theorem rfTick_frame (env : PeriodEnv) (s : State) :
    (rfTick env s).pending = s.pending ∧ (rfTick env s).mem = s.mem := by
  simp [rfTick]

end Sys2Proof.Machine
end

