-- ==== Sys2Proof/Laws/FrameLinks.lean ====
section
/-! SUPPORT. What link events leave of the queue and of memory. -/

namespace Sys2Proof.Machine

/-! ### LinkEvents -/

@[simp] theorem takeCandidate_frame (n k : Nat) (t : Tracker) (s : State) :
    (takeCandidate n k t s).pending = s.pending ∧ (takeCandidate n k t s).mem = s.mem := by
  simp [takeCandidate]

@[simp] theorem tryCapture_frame (n k : Nat) (t : Tracker) (s : State) :
    (tryCapture n k t s).pending = s.pending ∧ (tryCapture n k t s).mem = s.mem := by
  unfold tryCapture; (repeat' split) <;> simp_all

@[simp] theorem detected_frame (n k : Nat) (taken : Bool) (t : Tracker) (s : State) :
    (detected n k taken t s).pending = s.pending ∧ (detected n k taken t s).mem = s.mem := by
  unfold detected; dsimp only; (repeat' split) <;> simp_all

@[simp] theorem execPreambleDetected_frame (n k start : Nat) (a b : Window) (s : State) :
    Quiet s (execPreambleDetected n k start a b s) := by
  unfold execPreambleDetected; dsimp only; (repeat' split) <;> simp_all

@[simp] theorem execSyncWordDetected_frame (n k start bin : Nat) (w : Window × Window) (s : State) :
    Quiet s (execSyncWordDetected n k start bin w s) := by
  unfold execSyncWordDetected; dsimp only; (repeat' split) <;> simp_all

@[simp] theorem giveUp_frame (n k : Nat) (s : State) :
    (giveUp n k s).pending = s.pending ∧ (giveUp n k s).mem = s.mem := by
  simp [giveUp]

@[simp] theorem falseStart_frame (n k : Nat) (s : State) :
    (falseStart n k s).pending = s.pending ∧ (falseStart n k s).mem = s.mem := by
  simp [falseStart]

@[simp] theorem execPreTimeout_frame (n k : Nat) (s : State) :
    Quiet s (execPreTimeout n k s) := by
  simp only [execPreTimeout]; simp

@[simp] theorem fillBuffers_frame (n : Nat) (f : RxFrame) (s : State) :
    (fillBuffers n f s).1.pending = s.pending ∧ (fillBuffers n f s).1.mem = s.mem := by
  simp [fillBuffers]

@[simp] theorem putLoss_frame (n b : Nat) (s : State) :
    (putLoss n b s).pending = s.pending ∧ (putLoss n b s).mem = s.mem := by
  simp [putLoss]

@[simp] theorem linkLost_frame (n : Nat) (s : State) :
    (linkLost n s).pending = s.pending ∧ (linkLost n s).mem = s.mem := by
  simp [linkLost]

@[simp] theorem declareLoss_frame (n b : Nat) (s : State) :
    (declareLoss n b s).pending = s.pending ∧ (declareLoss n b s).mem = s.mem := by
  simp [declareLoss]

@[simp] theorem frameSlip_frame (n d : Nat) (s : State) :
    (frameSlip n d s).pending = s.pending ∧ (frameSlip n d s).mem = s.mem := by
  simp [frameSlip]

@[simp] theorem putFrame_frame (n b : Nat) (xs : Option (List Int)) (e : Rat) (gap : Bool) (s : State) :
    (putFrame n b xs e gap s).pending = s.pending ∧ (putFrame n b xs e gap s).mem = s.mem := by
  unfold putFrame
  dsimp only
  split
  · simp
  · constructor <;> simp [apply_ite State.pending, apply_ite State.mem]

@[simp] theorem sbDiscard_frame (n : Nat) (s : State) :
    (sbDiscard n s).pending = s.pending ∧ (sbDiscard n s).mem = s.mem := by
  simp [sbDiscard]

@[simp] theorem msgDone_frame (n : Nat) (bs : List Byte) (s : State) :
    (msgDone n bs s).pending = s.pending ∧ (msgDone n bs s).mem = s.mem := by
  simp [msgDone]

@[simp] theorem msgFragment_frame (n : Nat) (sb : List Byte) (s : State) :
    (msgFragment n sb s).pending = s.pending ∧ (msgFragment n sb s).mem = s.mem := by
  unfold msgFragment; dsimp only; (repeat' split) <;> simp_all

@[simp] theorem sbAccept_frame (n : Nat) (sb : List Byte) (s : State) :
    (sbAccept n sb s).pending = s.pending ∧ (sbAccept n sb s).mem = s.mem := by
  simp [sbAccept]

@[simp] theorem sbComplete_frame (n : Nat) (sb : List Byte) (s : State) :
    (sbComplete n sb s).pending = s.pending ∧ (sbComplete n sb s).mem = s.mem := by
  unfold sbComplete; dsimp only; (repeat' split) <;> simp_all

@[simp] theorem sbStep_frame (n fc md : Nat) (s : State) :
    (sbStep n fc md s).pending = s.pending ∧ (sbStep n fc md s).mem = s.mem := by
  unfold sbStep; dsimp only; (repeat' split) <;> simp_all

@[simp] theorem deliverFrame_frame (n : Nat) (v : Verdict) (gap : Bool) (s : State) :
    (deliverFrame n v gap s).pending = s.pending ∧ (deliverFrame n v gap s).mem = s.mem := by
  unfold deliverFrame; dsimp only; (repeat' split) <;> simp_all

@[simp] theorem measureFrame_frame (n : Nat) (f : RxFrame) (q : LaneFrame) (s : State) :
    (measureFrame n f q s).pending = s.pending ∧ (measureFrame n f q s).mem = s.mem := by
  simp [measureFrame]

@[simp] theorem follow_frame (n : Nat) (v : Verdict) (s : State) :
    (follow n v s).pending = s.pending ∧ (follow n v s).mem = s.mem := by
  simp [follow]

@[simp] theorem hopDone_frame (n : Nat) (s : State) :
    (hopDone n s).pending = s.pending ∧ (hopDone n s).mem = s.mem := by
  unfold hopDone; (repeat' split) <;> simp_all

@[simp] theorem intrusion_frame (n : Nat) (v : Verdict) (s : State) :
    (intrusion n v s).pending = s.pending ∧ (intrusion n v s).mem = s.mem := by
  simp [intrusion]

@[simp] theorem verified_frame (n : Nat) (v : Verdict) (s : State) :
    (verified n v s).pending = s.pending ∧ (verified n v s).mem = s.mem := by
  unfold verified; dsimp only; (repeat' split) <;> simp_all

@[simp] theorem settleVerdict_frame (n : Nat) (v : Verdict) (s : State) :
    (settleVerdict n v s).pending = s.pending ∧ (settleVerdict n v s).mem = s.mem := by
  unfold settleVerdict; (repeat' split) <;> simp_all

@[simp] theorem settleTie_frame (n : Nat) (s : State) :
    (settleTie n s).pending = s.pending ∧ (settleTie n s).mem = s.mem := by
  unfold settleTie; (repeat' split) <;> simp_all

@[simp] theorem settleBoth_frame (n : Nat) (v w : Verdict) (s : State) :
    (settleBoth n v w s).pending = s.pending ∧ (settleBoth n v w s).mem = s.mem := by
  unfold settleBoth; dsimp only; (repeat' split) <;> simp_all

@[simp] theorem passed_frame (n : Nat) (v : Verdict) (s : State) :
    (passed n v s).pending = s.pending ∧ (passed n v s).mem = s.mem := by
  unfold passed; dsimp only; (repeat' split) <;> simp_all

@[simp] theorem verifyFrame_frame (n k : Nat) (f : RxFrame) (s : State) :
    (verifyFrame n k f s).pending = s.pending ∧ (verifyFrame n k f s).mem = s.mem := by
  unfold verifyFrame; dsimp only; (repeat' split) <;> simp_all

@[simp] theorem loseFrame_frame (n k : Nat) (q : LaneFrame) (b : Nat) (s : State) :
    (loseFrame n k q b s).pending = s.pending ∧ (loseFrame n k q b s).mem = s.mem := by
  simp [loseFrame]

@[simp] theorem abandonFrame_frame (n k : Nat) (s : State) :
    (abandonFrame n k s).pending = s.pending ∧ (abandonFrame n k s).mem = s.mem := by
  simp [abandonFrame]

@[simp] theorem lateFrame_frame (n k : Nat) (f : RxFrame) (s : State) :
    (lateFrame n k f s).pending = s.pending ∧ (lateFrame n k f s).mem = s.mem := by
  unfold lateFrame; dsimp only; (repeat' split) <;> simp_all

@[simp] theorem activeFrame_frame (n k : Nat) (f : RxFrame) (s : State) :
    (activeFrame n k f s).pending = s.pending ∧ (activeFrame n k f s).mem = s.mem := by
  unfold activeFrame; dsimp only; (repeat' split) <;> simp_all

@[simp] theorem execUplinkFrame_frame (n : Nat) (f : RxFrame) (s : State) :
    Quiet s (execUplinkFrame n f s) := by
  unfold execUplinkFrame; dsimp only; (repeat' split) <;> simp_all

@[simp] theorem execSyncWindowClose_frame (n : Nat) (s : State) :
    Quiet s (execSyncWindowClose n s) := by
  unfold execSyncWindowClose; dsimp only; (repeat' split) <;> simp_all

@[simp] theorem execIntrusionBarEnd_frame (n : Nat) (s : State) :
    Quiet s (execIntrusionBarEnd n s) := by
  simp only [execIntrusionBarEnd]; simp

@[simp] theorem execLaneReacquire_frame (n : Nat) (s : State) :
    Quiet s (execLaneReacquire n s) := by
  simp only [execLaneReacquire]; simp

/-! ### LinkHops -/

@[simp] theorem execHopAltChosen_frame (n : Nat) (levels : List Nat) (s : State) :
    Quiet s (execHopAltChosen n levels s) := by
  unfold execHopAltChosen; dsimp only; (repeat' split) <;> simp_all

@[simp] theorem remeasure_frame (n : Nat) (s : State) :
    (remeasure n s).pending = s.pending ∧ (remeasure n s).mem = s.mem := by
  unfold remeasure; (repeat' split) <;> simp_all

@[simp] theorem execHopBoundary_frame (n : Nat) (s : State) :
    Quiet s (execHopBoundary n s) := by
  unfold execHopBoundary; dsimp only; (repeat' split) <;> simp_all

@[simp] theorem execHopFailed_frame (n : Nat) (s : State) :
    Quiet s (execHopFailed n s) := by
  unfold execHopFailed; dsimp only; (repeat' split) <;> simp_all

@[simp] theorem hopLoss_frame (n : Nat) (s : State) :
    (hopLoss n s).pending = s.pending ∧ (hopLoss n s).mem = s.mem := by
  unfold hopLoss; dsimp only; (repeat' split) <;> simp_all

@[simp] theorem lateTie_frame (n : Nat) (s : State) :
    (lateTie n s).pending = s.pending ∧ (lateTie n s).mem = s.mem := by
  unfold lateTie; (repeat' split) <;> simp_all

@[simp] theorem linkTick_frame (missed : Bool) (n : Nat) (s : State) :
    (linkTick missed n s).pending = s.pending ∧ (linkTick missed n s).mem = s.mem := by
  unfold linkTick; dsimp only; (repeat' split) <;> simp_all

@[simp] theorem linksTick_frame (missed : List WorkRef) (s : State) :
    (linksTick missed s).pending = s.pending ∧ (linksTick missed s).mem = s.mem := by
  unfold linksTick; (repeat' split) <;> simp_all

end Sys2Proof.Machine
end

