-- ==== Sys2Proof/Laws/FrameAudio.lean ====
section
/-! SUPPORT. What audio, analog and instrumentation events and PERIOD_TICK leave of the queue and of memory. -/

namespace Sys2Proof.Machine

/-! ### AudioFlow -/

@[simp] theorem pushBlock_frame (src : ℕ) (x : List ℤ) (s : State) :
    (pushBlock src x s).pending = s.pending ∧ (pushBlock src x s).mem = s.mem := by
  simp [pushBlock]

@[simp] theorem setBlock_frame (src : ℕ) (x : List ℤ) (s : State) :
    (setBlock src x s).pending = s.pending ∧ (setBlock src x s).mem = s.mem := by
  simp [setBlock]

@[simp] theorem runRoutes_frame (bus : Bool) (s : State) :
    (runRoutes bus s).pending = s.pending ∧ (runRoutes bus s).mem = s.mem := by
  simp [runRoutes]

@[simp] theorem runRouter_frame (bad : List WorkRef) (s : State) :
    (runRouter bad s).pending = s.pending ∧ (runRouter bad s).mem = s.mem := by
  simp [runRouter]

@[simp] theorem onRamp_frame (isBus : Bool) (n : ℕ) (f : Ramp → Ramp) (s : State) :
    (onRamp isBus n f s).pending = s.pending ∧ (onRamp isBus n f s).mem = s.mem := by
  simp [onRamp]

@[simp] theorem execZeroCrossing_frame (isBus : Bool) (n : ℕ) (sample : ℕ) (s : State) :
    Quiet s (execZeroCrossing isBus n sample s) := by
  simp only [execZeroCrossing]; simp

@[simp] theorem execZcTimeout_frame (isBus : Bool) (n : ℕ) (s : State) :
    Quiet s (execZcTimeout isBus n s) := by
  simp only [execZcTimeout]; simp

@[simp] theorem execRouteFadeEnd_frame (n : ℕ) (s : State) :
    Quiet s (execRouteFadeEnd n s) := by
  simp only [execRouteFadeEnd]; simp

@[simp] theorem closeBlocks_frame (s : State) :
    (closeBlocks s).pending = s.pending ∧ (closeBlocks s).mem = s.mem := by
  simp [closeBlocks]

@[simp] theorem writeTap_frame (t : Nat) (s : State) : (writeTap t s).pending = s.pending := by
  unfold writeTap
  dsimp only
  (repeat' split) <;> simp

@[simp] theorem writeTap_wf (t : Nat) (s : State) (h : MemWf s.mem) : MemWf (writeTap t s).mem := by
  unfold writeTap
  dsimp only
  have hw := fun l => memWf_smSetList l s.mem (tap s t).wr h
  split
  · exact h
  · split
    · simpa using hw _
    · simpa using hw _

@[simp] theorem writeTaps_frame (s : State) :
    (writeTaps s).pending = s.pending := by
  simp [writeTaps]

@[simp] theorem writeTaps_wf (s : State) (h : MemWf s.mem) :
    MemWf (writeTaps s).mem := by
  first | (simp [writeTaps, h]; done) | (unfold writeTaps; (repeat' split) <;> simp_all)

@[simp] theorem removeEnded_frame (s : State) :
    (removeEnded s).pending = s.pending ∧ (removeEnded s).mem = s.mem := by
  simp [removeEnded]; constructor <;> (first | apply each_pending | apply each_mem) <;> intros <;> (repeat' split) <;> simp_all

@[simp] theorem startRamps_frame (s : State) :
    (startRamps s).pending = s.pending ∧ (startRamps s).mem = s.mem := by
  simp [startRamps]

/-! ### PortEvents -/

@[simp] theorem execPortStartInstant_frame (p : ℕ) (s : State) :
    Quiet s (execPortStartInstant p s) := by
  unfold execPortStartInstant; (repeat' split) <;> simp

@[simp] theorem execStartTrig_frame (s : State) :
    Quiet s (execStartTrig s) := by
  simp only [execStartTrig]; simp

@[simp] theorem donePortStops_frame (s : State) :
    (donePortStops s).pending = s.pending ∧ (donePortStops s).mem = s.mem := by
  simp [donePortStops]

@[simp] theorem execPortStopped_frame (p : ℕ) (s : State) :
    Quiet s (execPortStopped p s) := by
  simp only [execPortStopped]; simp

@[simp] theorem execPortLost_frame (p : ℕ) (cause : ℕ) (s : State) :
    Quiet s (execPortLost p cause s) := by
  simp only [execPortLost]; simp

@[simp] theorem execPortEdgesReturn_frame (p : ℕ) (s : State) :
    Quiet s (execPortEdgesReturn p s) := by
  simp only [execPortEdgesReturn]; simp

@[simp] theorem execPortReturned_frame (p : ℕ) (us : ℕ) (s : State) :
    Quiet s (execPortReturned p us s) := by
  simp only [execPortReturned]; simp

@[simp] theorem execAsrcAcquired_frame (p : ℕ) (s : State) :
    Quiet s (execAsrcAcquired p s) := by
  simp only [execAsrcAcquired]; simp

@[simp] theorem glitch_frame (p : Nat) (s : State) :
    (glitch p s).pending = s.pending ∧ (glitch p s).mem = s.mem := by
  simp [glitch]

@[simp] theorem execPortGlitch_frame (p : ℕ) (s : State) :
    Quiet s (execPortGlitch p s) := by
  simp only [execPortGlitch]; simp

@[simp] theorem slipFrame_frame (p : Nat) (faster : Bool) (s : State) :
    (slipFrame p faster s).pending = s.pending ∧ (slipFrame p faster s).mem = s.mem := by
  simp [slipFrame]

@[simp] theorem execPortSlip_frame (p : ℕ) (x1 : Bool) (s : State) :
    Quiet s (execPortSlip p x1 s) := by
  simp only [execPortSlip]; simp

@[simp] theorem followRate_frame (p : Nat) (s : State) :
    (followRate p s).pending = s.pending ∧ (followRate p s).mem = s.mem := by
  have h := portCheck_frame p { (port s p).cfg with rate := portClass (port s p) - 1 } s
  unfold followRate
  dsimp only
  split
  · simp
  · split
    · rename_i t he
      rw [he] at h
      simpa using h
    · rename_i t he
      rw [he] at h
      simpa using h

@[simp] theorem muteRate_frame (p : ℕ) (s : State) :
    (muteRate p s).pending = s.pending ∧ (muteRate p s).mem = s.mem := by
  simp [muteRate]

@[simp] theorem execPortRateMeasured_frame (p : ℕ) (rate : ℕ) (ratio : ℤ) (off : ℕ) (s : State) :
    Quiet s (execPortRateMeasured p rate ratio off s) := by
  unfold execPortRateMeasured; dsimp only; (repeat' split) <;> simp_all

@[simp] theorem portSources_frame (env : PeriodEnv) (missed : List WorkRef) (p : ℕ) (s : State) :
    (portSources env missed p s).pending = s.pending ∧ (portSources env missed p s).mem = s.mem := by
  simp [portSources]

@[simp] theorem portSlots1_frame (missed : List WorkRef) (p : ℕ) (s : State) :
    (portSlots1 missed p s).pending = s.pending ∧ (portSlots1 missed p s).mem = s.mem := by
  simp [portSlots1]

@[simp] theorem portMasks_frame (p : ℕ) (s : State) :
    (portMasks p s).pending = s.pending ∧ (portMasks p s).mem = s.mem := by
  unfold portMasks; split <;> simp

@[simp] theorem portsIn_frame (env : PeriodEnv) (missed : List WorkRef) (s : State) :
    (portsIn env missed s).pending = s.pending ∧ (portsIn env missed s).mem = s.mem := by
  simp [portsIn]

@[simp] theorem portsOut_frame (missed : List WorkRef) (s : State) :
    (portsOut missed s).pending = s.pending ∧ (portsOut missed s).mem = s.mem := by
  simp [portsOut]

/-! ### AnalogEvents -/

@[simp] theorem onAnalog_frame (f : Analog → Analog) (s : State) :
    (onAnalog f s).pending = s.pending ∧ (onAnalog f s).mem = s.mem := by
  simp [onAnalog]

@[simp] theorem sequenceEnds_frame (t : ℕ) (s : State) :
    (sequenceEnds t s).pending = s.pending ∧ (sequenceEnds t s).mem = s.mem := by
  simp [sequenceEnds]

@[simp] theorem execAnalogSequenceEnd_frame (t : ℕ) (s : State) :
    Quiet s (execAnalogSequenceEnd t s) := by
  simp only [execAnalogSequenceEnd]; simp

@[simp] theorem execJackChanged_frame (jack : ℕ) (inserted : Bool) (s : State) :
    Quiet s (execJackChanged jack inserted s) := by
  simp only [execJackChanged]; simp

@[simp] theorem clampSpeaker_frame (why : ℕ) (stays : Bool) (s : State) :
    (clampSpeaker why stays s).pending = s.pending ∧ (clampSpeaker why stays s).mem = s.mem := by
  simp [clampSpeaker]

@[simp] theorem execSpkOvercurrent_frame (s : State) :
    Quiet s (execSpkOvercurrent s) := by
  simp only [execSpkOvercurrent]; simp

@[simp] theorem execSpkUndervoltage_frame (s : State) :
    Quiet s (execSpkUndervoltage s) := by
  simp only [execSpkUndervoltage]; simp

@[simp] theorem execSpkRestart_frame (s : State) :
    Quiet s (execSpkRestart s) := by
  simp only [execSpkRestart]; simp

@[simp] theorem execMicbiasLimit_frame (bias : ℕ) (s : State) :
    Quiet s (execMicbiasLimit bias s) := by
  simp only [execMicbiasLimit]; simp

@[simp] theorem execMicbiasCurrentLimitRecovery_frame (bias : ℕ) (s : State) :
    Quiet s (execMicbiasCurrentLimitRecovery bias s) := by
  simp only [execMicbiasCurrentLimitRecovery]; simp

@[simp] theorem anaCross_frame (t : ℕ) (x : List ℤ) (s : State) :
    (anaCross t x s).pending = s.pending ∧ (anaCross t x s).mem = s.mem := by
  unfold anaCross; dsimp only; (repeat' split) <;> simp

@[simp] theorem anaAdvance_frame (t : ℕ) (x : List ℤ) (s : State) :
    (anaAdvance t x s).pending = s.pending ∧ (anaAdvance t x s).mem = s.mem := by
  simp [anaAdvance]

@[simp] theorem micSource_frame (env : PeriodEnv) (i : ℕ) (s : State) :
    (micSource env i s).pending = s.pending ∧ (micSource env i s).mem = s.mem := by
  simp [micSource]

@[simp] theorem micClips_frame (env : PeriodEnv) (s : State) :
    (micClips env s).pending = s.pending ∧ (micClips env s).mem = s.mem := by
  simp [micClips]

@[simp] theorem micsIn_frame (env : PeriodEnv) (s : State) :
    (micsIn env s).pending = s.pending ∧ (micsIn env s).mem = s.mem := by
  simp [micsIn]

@[simp] theorem anaRamps_frame (s : State) :
    (anaRamps s).pending = s.pending ∧ (anaRamps s).mem = s.mem := by
  simp [anaRamps]

@[simp] theorem spkOut_frame (vdd : Nat) (x : List Int) (s : State) :
    (spkOut vdd x s).2.pending = s.pending ∧ (spkOut vdd x s).2.mem = s.mem := by
  unfold spkOut; dsimp only; split <;> simp

@[simp] theorem localOuts_frame (vdd : Nat) (s : State) :
    (localOuts vdd s).pending = s.pending ∧ (localOuts vdd s).mem = s.mem := by
  simp [localOuts]

@[simp] theorem anaOut_frame (env : PeriodEnv) (s : State) :
    (anaOut env s).pending = s.pending ∧ (anaOut env s).mem = s.mem := by
  simp [anaOut]

/-! ### InstEvents -/

@[simp] theorem triggerConv_frame (n : ℕ) (s : State) :
    (triggerConv n s).pending = s.pending ∧ (triggerConv n s).mem = s.mem := by
  simp [triggerConv]

@[simp] theorem triggerAll_frame (src : ℕ) (s : State) :
    (triggerAll src s).pending = s.pending ∧ (triggerAll src s).mem = s.mem := by
  simp [triggerAll]

@[simp] theorem execTimerTick_frame (t : Nat) (s : State) : Quiet s (execTimerTick t s) := by
  unfold execTimerTick
  rw [quiet_next]
  split
  · simp
  · constructor
    · rw [each_pending]
      · simp
      · intro c s
        split
        · split <;> simp
        · rfl
    · rw [each_mem]
      · simp
      · intro c s
        split
        · split <;> simp
        · rfl

@[simp] theorem execPwmEdgeTrigger_frame (p : ℕ) (s : State) :
    Quiet s (execPwmEdgeTrigger p s) := by
  simp only [execPwmEdgeTrigger]; simp

@[simp] theorem streamRecord_frame (n : ℕ) (ch : ℕ) (ovr : Bool) (tag : ℕ) (code : ℤ) (s : State) :
    (streamRecord n ch ovr tag code s).pending = s.pending := by
  unfold streamRecord; split <;> simp

@[simp] theorem streamRecord_wf (n : ℕ) (ch : ℕ) (ovr : Bool) (tag : ℕ) (code : ℤ) (s : State) (h : MemWf s.mem) :
    MemWf (streamRecord n ch ovr tag code s).mem := by
  first | (simp [streamRecord, h]; done) | (unfold streamRecord; (repeat' split) <;> simp_all)

@[simp] theorem queueResult_frame (r : MeasRec) (s : State) :
    (queueResult r s).pending = s.pending ∧ (queueResult r s).mem = s.mem := by
  simp [queueResult]

@[simp] theorem supervise_frame (n : ℕ) (ch : ℕ) (start : ℕ) (code : ℤ) (s : State) :
    (supervise n ch start code s).pending = s.pending ∧ (supervise n ch start code s).mem = s.mem := by
  unfold supervise; dsimp only; (repeat' split) <;> simp_all

@[simp] theorem execConversionDone_frame (n : Nat) (value : Int) (s : State) : Still s (execConversionDone n value s) := by
  unfold execConversionDone
  rw [still_next]
  split
  · rfl
  · split
    · rfl
    · split
      · simp
      · dsimp only
        split
        · rw [(settle_frame _).1, each_pending]
          · split <;> simp
          · intro r s
            simp
        · (repeat' split) <;> simp

@[simp] theorem execConversionDone_wf (n : Nat) (value : Int) (s : State) (h : MemWf s.mem) :
    WfAfter (execConversionDone n value s) := by
  unfold execConversionDone
  rw [wfAfter_next]
  split
  · exact h
  · split
    · exact h
    · split
      · simp [h]
      · dsimp only
        split
        · rw [(settle_frame _).2, each_mem]
          · split <;> simp [h]
          · intro r s
            simp
        · (repeat' split) <;> simp [h]

@[simp] theorem execRefBufferReady_frame (s : State) :
    Quiet s (execRefBufferReady s) := by
  simp only [execRefBufferReady]; simp

@[simp] theorem execSlewLimiterUpdate_frame (s : State) :
    Quiet s (execSlewLimiterUpdate s) := by
  simp only [execSlewLimiterUpdate]; simp

@[simp] theorem execCdacRangePhaseEnd_frame (ch : ℕ) (s : State) :
    Quiet s (execCdacRangePhaseEnd ch s) := by
  simp only [execCdacRangePhaseEnd]; simp

@[simp] theorem joinStream_frame (s : State) :
    (joinStream s).pending = s.pending ∧ (joinStream s).mem = s.mem := by
  simp [joinStream]

/-! ### CarrierFrames -/

@[simp] theorem countFrames_frame (s : State) :
    (countFrames s).pending = s.pending ∧ (countFrames s).mem = s.mem := by
  simp [countFrames]

@[simp] theorem messageStep_frame (c : ℕ) (s : State) :
    (messageStep c s).pending = s.pending ∧ (messageStep c s).mem = s.mem := by
  unfold messageStep; split <;> simp

@[simp] theorem newSuperblock_frame (c : ℕ) (s : State) :
    (newSuperblock c s).pending = s.pending ∧ (newSuperblock c s).mem = s.mem := by
  simp [newSuperblock]

@[simp] theorem buildFrame_frame (old : State) (late : Bool) (c : ℕ) (s : State) :
    (buildFrame old late c s).pending = s.pending ∧ (buildFrame old late c s).mem = s.mem := by
  unfold buildFrame; dsimp only; (repeat' split) <;> simp_all

@[simp] theorem buildFrames_frame (old : State) (missed : List WorkRef) (s : State) :
    (buildFrames old missed s).pending = s.pending ∧ (buildFrames old missed s).mem = s.mem := by
  simp [buildFrames]

@[simp] theorem setStep_frame (c : ℕ) (k : ℕ) (s : State) :
    (setStep c k s).pending = s.pending ∧ (setStep c k s).mem = s.mem := by
  simp [setStep]

@[simp] theorem stepOf_frame (c : ℕ) (s : State) :
    (stepOf c s).pending = s.pending ∧ (stepOf c s).mem = s.mem := by
  unfold stepOf; split <;> simp

@[simp] theorem clampStep_frame (c : ℕ) (s : State) :
    (clampStep c s).pending = s.pending ∧ (clampStep c s).mem = s.mem := by
  simp [clampStep]

@[simp] theorem newSteps_frame (s : State) :
    (newSteps s).pending = s.pending ∧ (newSteps s).mem = s.mem := by
  unfold newSteps; split <;> simp

@[simp] theorem retuneMove_frame (c : ℕ) (s : State) :
    (retuneMove c s).pending = s.pending ∧ (retuneMove c s).mem = s.mem := by
  unfold retuneMove; split <;> simp

@[simp] theorem carriersTick_frame (s : State) :
    (carriersTick s).pending = s.pending ∧ (carriersTick s).mem = s.mem := by
  simp [carriersTick]

/-! ### PeriodTick -/

@[simp] theorem rodSats_frame (r : ℕ) (x : Sats) (s : State) :
    (rodSats r x s).pending = s.pending ∧ (rodSats r x s).mem = s.mem := by
  simp [rodSats]

@[simp] theorem rodPeriod_frame (r : ℕ) (cut : Option ℕ) (late : Bool) (s : State) :
    (rodPeriod r cut late s).pending = s.pending ∧ (rodPeriod r cut late s).mem = s.mem := by
  unfold rodPeriod; split <;> simp

@[simp] theorem restRod_frame (r : Nat) (s : State) :
    (restRod r s).pending = s.pending ∧ (restRod r s).mem = s.mem := by
  unfold restRod; dsimp only; (repeat' split) <;> simp

@[simp] theorem runRods_frame (cuts : List (ℕ × ℕ)) (late : List Late) (s : State) :
    (runRods cuts late s).pending = s.pending ∧ (runRods cuts late s).mem = s.mem := by
  simp [runRods]

@[simp] theorem agePert_frame (n : ℕ) (s : State) :
    (agePert n s).pending = s.pending ∧ (agePert n s).mem = s.mem := by
  unfold agePert; split <;> simp

@[simp] theorem pertPort_frame (p : ℕ) (mode : ℕ) (s : State) :
    (pertPort p mode s).pending = s.pending ∧ (pertPort p mode s).mem = s.mem := by
  simp [pertPort]

@[simp] theorem pertLock_frame (p : Pert) (s : State) :
    (pertLock p s).pending = s.pending ∧ (pertLock p s).mem = s.mem := by
  simp [pertLock]

@[simp] theorem pertPreamble_frame (p : Pert) (s : State) :
    (pertPreamble p s).pending = s.pending ∧ (pertPreamble p s).mem = s.mem := by
  unfold pertPreamble; dsimp only; (repeat' split) <;> simp_all

@[simp] theorem actPert_frame (n : ℕ) (s : State) :
    (actPert n s).pending = s.pending ∧ (actPert n s).mem = s.mem := by
  unfold actPert; (repeat' split) <;> simp

@[simp] theorem pertTick_frame (s : State) :
    (pertTick s).pending = s.pending ∧ (pertTick s).mem = s.mem := by
  simp [pertTick]

@[simp] theorem judge_frame (late : List Late) (s : State) :
    (judge late s).1.pending = s.pending ∧ (judge late s).1.mem = s.mem := by
  simp [judge]

@[simp] theorem restartOffenders_frame (dogs told : List Nat) (s : State) :
    (restartOffenders dogs told s).pending = s.pending ∧ (restartOffenders dogs told s).mem = s.mem := by
  unfold restartOffenders
  constructor
  · exact (each_pending _ _ _ (fun d s => (restartDomain_frame d 1 s).1)).trans (each_pending _ _ _ (fun d s => (restartDomain_frame d 2 s).1))
  · exact (each_mem _ _ _ (fun d s => (restartDomain_frame d 1 s).2)).trans (each_mem _ _ _ (fun d s => (restartDomain_frame d 2 s).2))

@[simp] theorem doneBoundary_frame (s : State) :
    (doneBoundary s).pending = s.pending ∧ (doneBoundary s).mem = s.mem := by
  simp [doneBoundary]

@[simp] theorem beginLinks_frame (s : State) :
    (beginLinks s).pending = s.pending ∧ (beginLinks s).mem = s.mem := by
  simp [beginLinks]

@[simp] theorem beginCarriers_frame (s : State) :
    (beginCarriers s).pending = s.pending ∧ (beginCarriers s).mem = s.mem := by
  simp [beginCarriers]

@[simp] theorem beginRods_frame (s : State) :
    (beginRods s).pending = s.pending ∧ (beginRods s).mem = s.mem := by
  simp [beginRods]

@[simp] theorem newAlternates_frame (s : State) :
    (newAlternates s).pending = s.pending ∧ (newAlternates s).mem = s.mem := by
  unfold newAlternates; split <;> simp

@[simp] theorem swapsDue_frame (s : State) :
    (swapsDue s).pending = s.pending ∧ (swapsDue s).mem = s.mem := by
  simp [swapsDue]

@[simp] theorem planTick_frame (s : State) :
    (planTick s).pending = s.pending ∧ (planTick s).mem = s.mem := by
  simp [planTick]

@[simp] theorem boundaryChanges_frame (env : PeriodEnv) (s : State) :
    (boundaryChanges env s).pending = s.pending ∧ (boundaryChanges env s).mem = s.mem := by
  simp [boundaryChanges]

@[simp] theorem rodSources_frame (s : State) :
    (rodSources s).pending = s.pending ∧ (rodSources s).mem = s.mem := by
  simp [rodSources]

@[simp] theorem linkSources_frame (s : State) :
    (linkSources s).pending = s.pending ∧ (linkSources s).mem = s.mem := by
  simp [linkSources]

@[simp] theorem idleSlots_frame (s : State) :
    (idleSlots s).pending = s.pending ∧ (idleSlots s).mem = s.mem := by
  simp [idleSlots]

@[simp] theorem busSources_frame (s : State) :
    (busSources s).pending = s.pending ∧ (busSources s).mem = s.mem := by
  simp [busSources]

@[simp] theorem fadeSteps_frame (s : State) :
    (fadeSteps s).pending = s.pending ∧ (fadeSteps s).mem = s.mem := by
  simp [fadeSteps]

@[simp] theorem flow_frame (env : PeriodEnv) (s : State) :
    (flow env s).pending = s.pending ∧ (flow env s).mem = s.mem := by
  simp [flow]

@[simp] theorem execPeriodTick_frame (env : PeriodEnv) (s : State) :
    Still s (execPeriodTick env s) := by
  simp only [execPeriodTick]; simp

@[simp] theorem execPeriodTick_wf (env : PeriodEnv) (s : State) (h : MemWf s.mem) :
    WfAfter (execPeriodTick env s) := by
  first | (simp [execPeriodTick, h]; done) | (unfold execPeriodTick; (repeat' split) <;> simp_all)

end Sys2Proof.Machine
end

