-- ==== Sys2Proof/Laws/State.lean ====
section
/-! SUPPORT. One lemma per field of the state for each named update of it. -/

namespace Sys2Proof.Machine

@[simp] theorem onLink_pending (n : Nat) (f : Link → Link) (s : State) : (onLink n f s).pending = s.pending := rfl
@[simp] theorem onLink_timebase (n : Nat) (f : Link → Link) (s : State) : (onLink n f s).timebase = s.timebase := rfl
@[simp] theorem onLink_par (n : Nat) (f : Link → Link) (s : State) : (onLink n f s).par = s.par := rfl
@[simp] theorem onLink_inForce (n : Nat) (f : Link → Link) (s : State) : (onLink n f s).inForce = s.inForce := rfl
@[simp] theorem onLink_op (n : Nat) (f : Link → Link) (s : State) : (onLink n f s).op = s.op := rfl
@[simp] theorem onLink_cu (n : Nat) (f : Link → Link) (s : State) : (onLink n f s).cu = s.cu := rfl
@[simp] theorem onLink_waiting (n : Nat) (f : Link → Link) (s : State) : (onLink n f s).waiting = s.waiting := rfl
@[simp] theorem onLink_running (n : Nat) (f : Link → Link) (s : State) : (onLink n f s).running = s.running := rfl
@[simp] theorem onLink_events (n : Nat) (f : Link → Link) (s : State) : (onLink n f s).events = s.events := rfl
@[simp] theorem onLink_front (n : Nat) (f : Link → Link) (s : State) : (onLink n f s).front = s.front := rfl
@[simp] theorem onLink_seq (n : Nat) (f : Link → Link) (s : State) : (onLink n f s).seq = s.seq := rfl
@[simp] theorem onLink_alarm (n : Nat) (f : Link → Link) (s : State) : (onLink n f s).alarm = s.alarm := rfl
@[simp] theorem onLink_rck (n : Nat) (f : Link → Link) (s : State) : (onLink n f s).rck = s.rck := rfl
@[simp] theorem onLink_clk (n : Nat) (f : Link → Link) (s : State) : (onLink n f s).clk = s.clk := rfl
@[simp] theorem onLink_rf (n : Nat) (f : Link → Link) (s : State) : (onLink n f s).rf = s.rf := rfl
@[simp] theorem onLink_links (n : Nat) (f : Link → Link) (s : State) : (onLink n f s).links = smSet Link.reset s.links n (f (link s n)) := rfl
@[simp] theorem onLink_carriers (n : Nat) (f : Link → Link) (s : State) : (onLink n f s).carriers = s.carriers := rfl
@[simp] theorem onLink_tx (n : Nat) (f : Link → Link) (s : State) : (onLink n f s).tx = s.tx := rfl
@[simp] theorem onLink_cl (n : Nat) (f : Link → Link) (s : State) : (onLink n f s).cl = s.cl := rfl
@[simp] theorem onLink_sessions (n : Nat) (f : Link → Link) (s : State) : (onLink n f s).sessions = s.sessions := rfl
@[simp] theorem onLink_rods (n : Nat) (f : Link → Link) (s : State) : (onLink n f s).rods = s.rods := rfl
@[simp] theorem onLink_audio (n : Nat) (f : Link → Link) (s : State) : (onLink n f s).audio = s.audio := rfl
@[simp] theorem onLink_mem (n : Nat) (f : Link → Link) (s : State) : (onLink n f s).mem = s.mem := rfl
@[simp] theorem onLink_ana (n : Nat) (f : Link → Link) (s : State) : (onLink n f s).ana = s.ana := rfl
@[simp] theorem onLink_inst (n : Nat) (f : Link → Link) (s : State) : (onLink n f s).inst = s.inst := rfl
@[simp] theorem onLink_tw (n : Nat) (f : Link → Link) (s : State) : (onLink n f s).tw = s.tw := rfl
@[simp] theorem onLink_power (n : Nat) (f : Link → Link) (s : State) : (onLink n f s).power = s.power := rfl
@[simp] theorem onLink_supply (n : Nat) (f : Link → Link) (s : State) : (onLink n f s).supply = s.supply := rfl
@[simp] theorem onLink_prot (n : Nat) (f : Link → Link) (s : State) : (onLink n f s).prot = s.prot := rfl
@[simp] theorem onLink_age (n : Nat) (f : Link → Link) (s : State) : (onLink n f s).age = s.age := rfl
@[simp] theorem onLink_rattle (n : Nat) (f : Link → Link) (s : State) : (onLink n f s).rattle = s.rattle := rfl
@[simp] theorem onLink_free (n : Nat) (f : Link → Link) (s : State) : (onLink n f s).free = s.free := rfl

@[simp] theorem onCarrier_pending (n : Nat) (f : Carrier → Carrier) (s : State) : (onCarrier n f s).pending = s.pending := rfl
@[simp] theorem onCarrier_timebase (n : Nat) (f : Carrier → Carrier) (s : State) : (onCarrier n f s).timebase = s.timebase := rfl
@[simp] theorem onCarrier_par (n : Nat) (f : Carrier → Carrier) (s : State) : (onCarrier n f s).par = s.par := rfl
@[simp] theorem onCarrier_inForce (n : Nat) (f : Carrier → Carrier) (s : State) : (onCarrier n f s).inForce = s.inForce := rfl
@[simp] theorem onCarrier_op (n : Nat) (f : Carrier → Carrier) (s : State) : (onCarrier n f s).op = s.op := rfl
@[simp] theorem onCarrier_cu (n : Nat) (f : Carrier → Carrier) (s : State) : (onCarrier n f s).cu = s.cu := rfl
@[simp] theorem onCarrier_waiting (n : Nat) (f : Carrier → Carrier) (s : State) : (onCarrier n f s).waiting = s.waiting := rfl
@[simp] theorem onCarrier_running (n : Nat) (f : Carrier → Carrier) (s : State) : (onCarrier n f s).running = s.running := rfl
@[simp] theorem onCarrier_events (n : Nat) (f : Carrier → Carrier) (s : State) : (onCarrier n f s).events = s.events := rfl
@[simp] theorem onCarrier_front (n : Nat) (f : Carrier → Carrier) (s : State) : (onCarrier n f s).front = s.front := rfl
@[simp] theorem onCarrier_seq (n : Nat) (f : Carrier → Carrier) (s : State) : (onCarrier n f s).seq = s.seq := rfl
@[simp] theorem onCarrier_alarm (n : Nat) (f : Carrier → Carrier) (s : State) : (onCarrier n f s).alarm = s.alarm := rfl
@[simp] theorem onCarrier_rck (n : Nat) (f : Carrier → Carrier) (s : State) : (onCarrier n f s).rck = s.rck := rfl
@[simp] theorem onCarrier_clk (n : Nat) (f : Carrier → Carrier) (s : State) : (onCarrier n f s).clk = s.clk := rfl
@[simp] theorem onCarrier_rf (n : Nat) (f : Carrier → Carrier) (s : State) : (onCarrier n f s).rf = s.rf := rfl
@[simp] theorem onCarrier_links (n : Nat) (f : Carrier → Carrier) (s : State) : (onCarrier n f s).links = s.links := rfl
@[simp] theorem onCarrier_carriers (n : Nat) (f : Carrier → Carrier) (s : State) : (onCarrier n f s).carriers = smSet Carrier.reset s.carriers n (f (carrier s n)) := rfl
@[simp] theorem onCarrier_tx (n : Nat) (f : Carrier → Carrier) (s : State) : (onCarrier n f s).tx = s.tx := rfl
@[simp] theorem onCarrier_cl (n : Nat) (f : Carrier → Carrier) (s : State) : (onCarrier n f s).cl = s.cl := rfl
@[simp] theorem onCarrier_sessions (n : Nat) (f : Carrier → Carrier) (s : State) : (onCarrier n f s).sessions = s.sessions := rfl
@[simp] theorem onCarrier_rods (n : Nat) (f : Carrier → Carrier) (s : State) : (onCarrier n f s).rods = s.rods := rfl
@[simp] theorem onCarrier_audio (n : Nat) (f : Carrier → Carrier) (s : State) : (onCarrier n f s).audio = s.audio := rfl
@[simp] theorem onCarrier_mem (n : Nat) (f : Carrier → Carrier) (s : State) : (onCarrier n f s).mem = s.mem := rfl
@[simp] theorem onCarrier_ana (n : Nat) (f : Carrier → Carrier) (s : State) : (onCarrier n f s).ana = s.ana := rfl
@[simp] theorem onCarrier_inst (n : Nat) (f : Carrier → Carrier) (s : State) : (onCarrier n f s).inst = s.inst := rfl
@[simp] theorem onCarrier_tw (n : Nat) (f : Carrier → Carrier) (s : State) : (onCarrier n f s).tw = s.tw := rfl
@[simp] theorem onCarrier_power (n : Nat) (f : Carrier → Carrier) (s : State) : (onCarrier n f s).power = s.power := rfl
@[simp] theorem onCarrier_supply (n : Nat) (f : Carrier → Carrier) (s : State) : (onCarrier n f s).supply = s.supply := rfl
@[simp] theorem onCarrier_prot (n : Nat) (f : Carrier → Carrier) (s : State) : (onCarrier n f s).prot = s.prot := rfl
@[simp] theorem onCarrier_age (n : Nat) (f : Carrier → Carrier) (s : State) : (onCarrier n f s).age = s.age := rfl
@[simp] theorem onCarrier_rattle (n : Nat) (f : Carrier → Carrier) (s : State) : (onCarrier n f s).rattle = s.rattle := rfl
@[simp] theorem onCarrier_free (n : Nat) (f : Carrier → Carrier) (s : State) : (onCarrier n f s).free = s.free := rfl

@[simp] theorem onSession_pending (n : Nat) (f : Session → Session) (s : State) : (onSession n f s).pending = s.pending := rfl
@[simp] theorem onSession_timebase (n : Nat) (f : Session → Session) (s : State) : (onSession n f s).timebase = s.timebase := rfl
@[simp] theorem onSession_par (n : Nat) (f : Session → Session) (s : State) : (onSession n f s).par = s.par := rfl
@[simp] theorem onSession_inForce (n : Nat) (f : Session → Session) (s : State) : (onSession n f s).inForce = s.inForce := rfl
@[simp] theorem onSession_op (n : Nat) (f : Session → Session) (s : State) : (onSession n f s).op = s.op := rfl
@[simp] theorem onSession_cu (n : Nat) (f : Session → Session) (s : State) : (onSession n f s).cu = s.cu := rfl
@[simp] theorem onSession_waiting (n : Nat) (f : Session → Session) (s : State) : (onSession n f s).waiting = s.waiting := rfl
@[simp] theorem onSession_running (n : Nat) (f : Session → Session) (s : State) : (onSession n f s).running = s.running := rfl
@[simp] theorem onSession_events (n : Nat) (f : Session → Session) (s : State) : (onSession n f s).events = s.events := rfl
@[simp] theorem onSession_front (n : Nat) (f : Session → Session) (s : State) : (onSession n f s).front = s.front := rfl
@[simp] theorem onSession_seq (n : Nat) (f : Session → Session) (s : State) : (onSession n f s).seq = s.seq := rfl
@[simp] theorem onSession_alarm (n : Nat) (f : Session → Session) (s : State) : (onSession n f s).alarm = s.alarm := rfl
@[simp] theorem onSession_rck (n : Nat) (f : Session → Session) (s : State) : (onSession n f s).rck = s.rck := rfl
@[simp] theorem onSession_clk (n : Nat) (f : Session → Session) (s : State) : (onSession n f s).clk = s.clk := rfl
@[simp] theorem onSession_rf (n : Nat) (f : Session → Session) (s : State) : (onSession n f s).rf = s.rf := rfl
@[simp] theorem onSession_links (n : Nat) (f : Session → Session) (s : State) : (onSession n f s).links = s.links := rfl
@[simp] theorem onSession_carriers (n : Nat) (f : Session → Session) (s : State) : (onSession n f s).carriers = s.carriers := rfl
@[simp] theorem onSession_tx (n : Nat) (f : Session → Session) (s : State) : (onSession n f s).tx = s.tx := rfl
@[simp] theorem onSession_cl (n : Nat) (f : Session → Session) (s : State) : (onSession n f s).cl = s.cl := rfl
@[simp] theorem onSession_sessions (n : Nat) (f : Session → Session) (s : State) : (onSession n f s).sessions = smSet Session.reset s.sessions n (f (session s n)) := rfl
@[simp] theorem onSession_rods (n : Nat) (f : Session → Session) (s : State) : (onSession n f s).rods = s.rods := rfl
@[simp] theorem onSession_audio (n : Nat) (f : Session → Session) (s : State) : (onSession n f s).audio = s.audio := rfl
@[simp] theorem onSession_mem (n : Nat) (f : Session → Session) (s : State) : (onSession n f s).mem = s.mem := rfl
@[simp] theorem onSession_ana (n : Nat) (f : Session → Session) (s : State) : (onSession n f s).ana = s.ana := rfl
@[simp] theorem onSession_inst (n : Nat) (f : Session → Session) (s : State) : (onSession n f s).inst = s.inst := rfl
@[simp] theorem onSession_tw (n : Nat) (f : Session → Session) (s : State) : (onSession n f s).tw = s.tw := rfl
@[simp] theorem onSession_power (n : Nat) (f : Session → Session) (s : State) : (onSession n f s).power = s.power := rfl
@[simp] theorem onSession_supply (n : Nat) (f : Session → Session) (s : State) : (onSession n f s).supply = s.supply := rfl
@[simp] theorem onSession_prot (n : Nat) (f : Session → Session) (s : State) : (onSession n f s).prot = s.prot := rfl
@[simp] theorem onSession_age (n : Nat) (f : Session → Session) (s : State) : (onSession n f s).age = s.age := rfl
@[simp] theorem onSession_rattle (n : Nat) (f : Session → Session) (s : State) : (onSession n f s).rattle = s.rattle := rfl
@[simp] theorem onSession_free (n : Nat) (f : Session → Session) (s : State) : (onSession n f s).free = s.free := rfl

@[simp] theorem onRod_pending (n : Nat) (f : Rod → Rod) (s : State) : (onRod n f s).pending = s.pending := rfl
@[simp] theorem onRod_timebase (n : Nat) (f : Rod → Rod) (s : State) : (onRod n f s).timebase = s.timebase := rfl
@[simp] theorem onRod_par (n : Nat) (f : Rod → Rod) (s : State) : (onRod n f s).par = s.par := rfl
@[simp] theorem onRod_inForce (n : Nat) (f : Rod → Rod) (s : State) : (onRod n f s).inForce = s.inForce := rfl
@[simp] theorem onRod_op (n : Nat) (f : Rod → Rod) (s : State) : (onRod n f s).op = s.op := rfl
@[simp] theorem onRod_cu (n : Nat) (f : Rod → Rod) (s : State) : (onRod n f s).cu = s.cu := rfl
@[simp] theorem onRod_waiting (n : Nat) (f : Rod → Rod) (s : State) : (onRod n f s).waiting = s.waiting := rfl
@[simp] theorem onRod_running (n : Nat) (f : Rod → Rod) (s : State) : (onRod n f s).running = s.running := rfl
@[simp] theorem onRod_events (n : Nat) (f : Rod → Rod) (s : State) : (onRod n f s).events = s.events := rfl
@[simp] theorem onRod_front (n : Nat) (f : Rod → Rod) (s : State) : (onRod n f s).front = s.front := rfl
@[simp] theorem onRod_seq (n : Nat) (f : Rod → Rod) (s : State) : (onRod n f s).seq = s.seq := rfl
@[simp] theorem onRod_alarm (n : Nat) (f : Rod → Rod) (s : State) : (onRod n f s).alarm = s.alarm := rfl
@[simp] theorem onRod_rck (n : Nat) (f : Rod → Rod) (s : State) : (onRod n f s).rck = s.rck := rfl
@[simp] theorem onRod_clk (n : Nat) (f : Rod → Rod) (s : State) : (onRod n f s).clk = s.clk := rfl
@[simp] theorem onRod_rf (n : Nat) (f : Rod → Rod) (s : State) : (onRod n f s).rf = s.rf := rfl
@[simp] theorem onRod_links (n : Nat) (f : Rod → Rod) (s : State) : (onRod n f s).links = s.links := rfl
@[simp] theorem onRod_carriers (n : Nat) (f : Rod → Rod) (s : State) : (onRod n f s).carriers = s.carriers := rfl
@[simp] theorem onRod_tx (n : Nat) (f : Rod → Rod) (s : State) : (onRod n f s).tx = s.tx := rfl
@[simp] theorem onRod_cl (n : Nat) (f : Rod → Rod) (s : State) : (onRod n f s).cl = s.cl := rfl
@[simp] theorem onRod_sessions (n : Nat) (f : Rod → Rod) (s : State) : (onRod n f s).sessions = s.sessions := rfl
@[simp] theorem onRod_rods (n : Nat) (f : Rod → Rod) (s : State) : (onRod n f s).rods = smSet Rod.reset s.rods n (f (rod s n)) := rfl
@[simp] theorem onRod_audio (n : Nat) (f : Rod → Rod) (s : State) : (onRod n f s).audio = s.audio := rfl
@[simp] theorem onRod_mem (n : Nat) (f : Rod → Rod) (s : State) : (onRod n f s).mem = s.mem := rfl
@[simp] theorem onRod_ana (n : Nat) (f : Rod → Rod) (s : State) : (onRod n f s).ana = s.ana := rfl
@[simp] theorem onRod_inst (n : Nat) (f : Rod → Rod) (s : State) : (onRod n f s).inst = s.inst := rfl
@[simp] theorem onRod_tw (n : Nat) (f : Rod → Rod) (s : State) : (onRod n f s).tw = s.tw := rfl
@[simp] theorem onRod_power (n : Nat) (f : Rod → Rod) (s : State) : (onRod n f s).power = s.power := rfl
@[simp] theorem onRod_supply (n : Nat) (f : Rod → Rod) (s : State) : (onRod n f s).supply = s.supply := rfl
@[simp] theorem onRod_prot (n : Nat) (f : Rod → Rod) (s : State) : (onRod n f s).prot = s.prot := rfl
@[simp] theorem onRod_age (n : Nat) (f : Rod → Rod) (s : State) : (onRod n f s).age = s.age := rfl
@[simp] theorem onRod_rattle (n : Nat) (f : Rod → Rod) (s : State) : (onRod n f s).rattle = s.rattle := rfl
@[simp] theorem onRod_free (n : Nat) (f : Rod → Rod) (s : State) : (onRod n f s).free = s.free := rfl

@[simp] theorem onAudio_pending (f : Audio → Audio) (s : State) : (onAudio f s).pending = s.pending := rfl
@[simp] theorem onAudio_timebase (f : Audio → Audio) (s : State) : (onAudio f s).timebase = s.timebase := rfl
@[simp] theorem onAudio_par (f : Audio → Audio) (s : State) : (onAudio f s).par = s.par := rfl
@[simp] theorem onAudio_inForce (f : Audio → Audio) (s : State) : (onAudio f s).inForce = s.inForce := rfl
@[simp] theorem onAudio_op (f : Audio → Audio) (s : State) : (onAudio f s).op = s.op := rfl
@[simp] theorem onAudio_cu (f : Audio → Audio) (s : State) : (onAudio f s).cu = s.cu := rfl
@[simp] theorem onAudio_waiting (f : Audio → Audio) (s : State) : (onAudio f s).waiting = s.waiting := rfl
@[simp] theorem onAudio_running (f : Audio → Audio) (s : State) : (onAudio f s).running = s.running := rfl
@[simp] theorem onAudio_events (f : Audio → Audio) (s : State) : (onAudio f s).events = s.events := rfl
@[simp] theorem onAudio_front (f : Audio → Audio) (s : State) : (onAudio f s).front = s.front := rfl
@[simp] theorem onAudio_seq (f : Audio → Audio) (s : State) : (onAudio f s).seq = s.seq := rfl
@[simp] theorem onAudio_alarm (f : Audio → Audio) (s : State) : (onAudio f s).alarm = s.alarm := rfl
@[simp] theorem onAudio_rck (f : Audio → Audio) (s : State) : (onAudio f s).rck = s.rck := rfl
@[simp] theorem onAudio_clk (f : Audio → Audio) (s : State) : (onAudio f s).clk = s.clk := rfl
@[simp] theorem onAudio_rf (f : Audio → Audio) (s : State) : (onAudio f s).rf = s.rf := rfl
@[simp] theorem onAudio_links (f : Audio → Audio) (s : State) : (onAudio f s).links = s.links := rfl
@[simp] theorem onAudio_carriers (f : Audio → Audio) (s : State) : (onAudio f s).carriers = s.carriers := rfl
@[simp] theorem onAudio_tx (f : Audio → Audio) (s : State) : (onAudio f s).tx = s.tx := rfl
@[simp] theorem onAudio_cl (f : Audio → Audio) (s : State) : (onAudio f s).cl = s.cl := rfl
@[simp] theorem onAudio_sessions (f : Audio → Audio) (s : State) : (onAudio f s).sessions = s.sessions := rfl
@[simp] theorem onAudio_rods (f : Audio → Audio) (s : State) : (onAudio f s).rods = s.rods := rfl
@[simp] theorem onAudio_audio (f : Audio → Audio) (s : State) : (onAudio f s).audio = f s.audio := rfl
@[simp] theorem onAudio_mem (f : Audio → Audio) (s : State) : (onAudio f s).mem = s.mem := rfl
@[simp] theorem onAudio_ana (f : Audio → Audio) (s : State) : (onAudio f s).ana = s.ana := rfl
@[simp] theorem onAudio_inst (f : Audio → Audio) (s : State) : (onAudio f s).inst = s.inst := rfl
@[simp] theorem onAudio_tw (f : Audio → Audio) (s : State) : (onAudio f s).tw = s.tw := rfl
@[simp] theorem onAudio_power (f : Audio → Audio) (s : State) : (onAudio f s).power = s.power := rfl
@[simp] theorem onAudio_supply (f : Audio → Audio) (s : State) : (onAudio f s).supply = s.supply := rfl
@[simp] theorem onAudio_prot (f : Audio → Audio) (s : State) : (onAudio f s).prot = s.prot := rfl
@[simp] theorem onAudio_age (f : Audio → Audio) (s : State) : (onAudio f s).age = s.age := rfl
@[simp] theorem onAudio_rattle (f : Audio → Audio) (s : State) : (onAudio f s).rattle = s.rattle := rfl
@[simp] theorem onAudio_free (f : Audio → Audio) (s : State) : (onAudio f s).free = s.free := rfl

@[simp] theorem onPort_pending (n : Nat) (f : Port → Port) (s : State) : (onPort n f s).pending = s.pending := rfl
@[simp] theorem onPort_timebase (n : Nat) (f : Port → Port) (s : State) : (onPort n f s).timebase = s.timebase := rfl
@[simp] theorem onPort_par (n : Nat) (f : Port → Port) (s : State) : (onPort n f s).par = s.par := rfl
@[simp] theorem onPort_inForce (n : Nat) (f : Port → Port) (s : State) : (onPort n f s).inForce = s.inForce := rfl
@[simp] theorem onPort_op (n : Nat) (f : Port → Port) (s : State) : (onPort n f s).op = s.op := rfl
@[simp] theorem onPort_cu (n : Nat) (f : Port → Port) (s : State) : (onPort n f s).cu = s.cu := rfl
@[simp] theorem onPort_waiting (n : Nat) (f : Port → Port) (s : State) : (onPort n f s).waiting = s.waiting := rfl
@[simp] theorem onPort_running (n : Nat) (f : Port → Port) (s : State) : (onPort n f s).running = s.running := rfl
@[simp] theorem onPort_events (n : Nat) (f : Port → Port) (s : State) : (onPort n f s).events = s.events := rfl
@[simp] theorem onPort_front (n : Nat) (f : Port → Port) (s : State) : (onPort n f s).front = s.front := rfl
@[simp] theorem onPort_seq (n : Nat) (f : Port → Port) (s : State) : (onPort n f s).seq = s.seq := rfl
@[simp] theorem onPort_alarm (n : Nat) (f : Port → Port) (s : State) : (onPort n f s).alarm = s.alarm := rfl
@[simp] theorem onPort_rck (n : Nat) (f : Port → Port) (s : State) : (onPort n f s).rck = s.rck := rfl
@[simp] theorem onPort_clk (n : Nat) (f : Port → Port) (s : State) : (onPort n f s).clk = s.clk := rfl
@[simp] theorem onPort_rf (n : Nat) (f : Port → Port) (s : State) : (onPort n f s).rf = s.rf := rfl
@[simp] theorem onPort_links (n : Nat) (f : Port → Port) (s : State) : (onPort n f s).links = s.links := rfl
@[simp] theorem onPort_carriers (n : Nat) (f : Port → Port) (s : State) : (onPort n f s).carriers = s.carriers := rfl
@[simp] theorem onPort_tx (n : Nat) (f : Port → Port) (s : State) : (onPort n f s).tx = s.tx := rfl
@[simp] theorem onPort_cl (n : Nat) (f : Port → Port) (s : State) : (onPort n f s).cl = s.cl := rfl
@[simp] theorem onPort_sessions (n : Nat) (f : Port → Port) (s : State) : (onPort n f s).sessions = s.sessions := rfl
@[simp] theorem onPort_rods (n : Nat) (f : Port → Port) (s : State) : (onPort n f s).rods = s.rods := rfl
@[simp] theorem onPort_audio (n : Nat) (f : Port → Port) (s : State) : (onPort n f s).audio = { s.audio with ports := smSet Port.reset s.audio.ports n (f (port s n)) } := rfl
@[simp] theorem onPort_mem (n : Nat) (f : Port → Port) (s : State) : (onPort n f s).mem = s.mem := rfl
@[simp] theorem onPort_ana (n : Nat) (f : Port → Port) (s : State) : (onPort n f s).ana = s.ana := rfl
@[simp] theorem onPort_inst (n : Nat) (f : Port → Port) (s : State) : (onPort n f s).inst = s.inst := rfl
@[simp] theorem onPort_tw (n : Nat) (f : Port → Port) (s : State) : (onPort n f s).tw = s.tw := rfl
@[simp] theorem onPort_power (n : Nat) (f : Port → Port) (s : State) : (onPort n f s).power = s.power := rfl
@[simp] theorem onPort_supply (n : Nat) (f : Port → Port) (s : State) : (onPort n f s).supply = s.supply := rfl
@[simp] theorem onPort_prot (n : Nat) (f : Port → Port) (s : State) : (onPort n f s).prot = s.prot := rfl
@[simp] theorem onPort_age (n : Nat) (f : Port → Port) (s : State) : (onPort n f s).age = s.age := rfl
@[simp] theorem onPort_rattle (n : Nat) (f : Port → Port) (s : State) : (onPort n f s).rattle = s.rattle := rfl
@[simp] theorem onPort_free (n : Nat) (f : Port → Port) (s : State) : (onPort n f s).free = s.free := rfl

@[simp] theorem onRoute_pending (n : Nat) (f : Route → Route) (s : State) : (onRoute n f s).pending = s.pending := rfl
@[simp] theorem onRoute_timebase (n : Nat) (f : Route → Route) (s : State) : (onRoute n f s).timebase = s.timebase := rfl
@[simp] theorem onRoute_par (n : Nat) (f : Route → Route) (s : State) : (onRoute n f s).par = s.par := rfl
@[simp] theorem onRoute_inForce (n : Nat) (f : Route → Route) (s : State) : (onRoute n f s).inForce = s.inForce := rfl
@[simp] theorem onRoute_op (n : Nat) (f : Route → Route) (s : State) : (onRoute n f s).op = s.op := rfl
@[simp] theorem onRoute_cu (n : Nat) (f : Route → Route) (s : State) : (onRoute n f s).cu = s.cu := rfl
@[simp] theorem onRoute_waiting (n : Nat) (f : Route → Route) (s : State) : (onRoute n f s).waiting = s.waiting := rfl
@[simp] theorem onRoute_running (n : Nat) (f : Route → Route) (s : State) : (onRoute n f s).running = s.running := rfl
@[simp] theorem onRoute_events (n : Nat) (f : Route → Route) (s : State) : (onRoute n f s).events = s.events := rfl
@[simp] theorem onRoute_front (n : Nat) (f : Route → Route) (s : State) : (onRoute n f s).front = s.front := rfl
@[simp] theorem onRoute_seq (n : Nat) (f : Route → Route) (s : State) : (onRoute n f s).seq = s.seq := rfl
@[simp] theorem onRoute_alarm (n : Nat) (f : Route → Route) (s : State) : (onRoute n f s).alarm = s.alarm := rfl
@[simp] theorem onRoute_rck (n : Nat) (f : Route → Route) (s : State) : (onRoute n f s).rck = s.rck := rfl
@[simp] theorem onRoute_clk (n : Nat) (f : Route → Route) (s : State) : (onRoute n f s).clk = s.clk := rfl
@[simp] theorem onRoute_rf (n : Nat) (f : Route → Route) (s : State) : (onRoute n f s).rf = s.rf := rfl
@[simp] theorem onRoute_links (n : Nat) (f : Route → Route) (s : State) : (onRoute n f s).links = s.links := rfl
@[simp] theorem onRoute_carriers (n : Nat) (f : Route → Route) (s : State) : (onRoute n f s).carriers = s.carriers := rfl
@[simp] theorem onRoute_tx (n : Nat) (f : Route → Route) (s : State) : (onRoute n f s).tx = s.tx := rfl
@[simp] theorem onRoute_cl (n : Nat) (f : Route → Route) (s : State) : (onRoute n f s).cl = s.cl := rfl
@[simp] theorem onRoute_sessions (n : Nat) (f : Route → Route) (s : State) : (onRoute n f s).sessions = s.sessions := rfl
@[simp] theorem onRoute_rods (n : Nat) (f : Route → Route) (s : State) : (onRoute n f s).rods = s.rods := rfl
@[simp] theorem onRoute_audio (n : Nat) (f : Route → Route) (s : State) : (onRoute n f s).audio = { s.audio with routes := smSet Route.reset s.audio.routes n (f (route s n)) } := rfl
@[simp] theorem onRoute_mem (n : Nat) (f : Route → Route) (s : State) : (onRoute n f s).mem = s.mem := rfl
@[simp] theorem onRoute_ana (n : Nat) (f : Route → Route) (s : State) : (onRoute n f s).ana = s.ana := rfl
@[simp] theorem onRoute_inst (n : Nat) (f : Route → Route) (s : State) : (onRoute n f s).inst = s.inst := rfl
@[simp] theorem onRoute_tw (n : Nat) (f : Route → Route) (s : State) : (onRoute n f s).tw = s.tw := rfl
@[simp] theorem onRoute_power (n : Nat) (f : Route → Route) (s : State) : (onRoute n f s).power = s.power := rfl
@[simp] theorem onRoute_supply (n : Nat) (f : Route → Route) (s : State) : (onRoute n f s).supply = s.supply := rfl
@[simp] theorem onRoute_prot (n : Nat) (f : Route → Route) (s : State) : (onRoute n f s).prot = s.prot := rfl
@[simp] theorem onRoute_age (n : Nat) (f : Route → Route) (s : State) : (onRoute n f s).age = s.age := rfl
@[simp] theorem onRoute_rattle (n : Nat) (f : Route → Route) (s : State) : (onRoute n f s).rattle = s.rattle := rfl
@[simp] theorem onRoute_free (n : Nat) (f : Route → Route) (s : State) : (onRoute n f s).free = s.free := rfl

@[simp] theorem onBus_pending (n : Nat) (f : Bus → Bus) (s : State) : (onBus n f s).pending = s.pending := rfl
@[simp] theorem onBus_timebase (n : Nat) (f : Bus → Bus) (s : State) : (onBus n f s).timebase = s.timebase := rfl
@[simp] theorem onBus_par (n : Nat) (f : Bus → Bus) (s : State) : (onBus n f s).par = s.par := rfl
@[simp] theorem onBus_inForce (n : Nat) (f : Bus → Bus) (s : State) : (onBus n f s).inForce = s.inForce := rfl
@[simp] theorem onBus_op (n : Nat) (f : Bus → Bus) (s : State) : (onBus n f s).op = s.op := rfl
@[simp] theorem onBus_cu (n : Nat) (f : Bus → Bus) (s : State) : (onBus n f s).cu = s.cu := rfl
@[simp] theorem onBus_waiting (n : Nat) (f : Bus → Bus) (s : State) : (onBus n f s).waiting = s.waiting := rfl
@[simp] theorem onBus_running (n : Nat) (f : Bus → Bus) (s : State) : (onBus n f s).running = s.running := rfl
@[simp] theorem onBus_events (n : Nat) (f : Bus → Bus) (s : State) : (onBus n f s).events = s.events := rfl
@[simp] theorem onBus_front (n : Nat) (f : Bus → Bus) (s : State) : (onBus n f s).front = s.front := rfl
@[simp] theorem onBus_seq (n : Nat) (f : Bus → Bus) (s : State) : (onBus n f s).seq = s.seq := rfl
@[simp] theorem onBus_alarm (n : Nat) (f : Bus → Bus) (s : State) : (onBus n f s).alarm = s.alarm := rfl
@[simp] theorem onBus_rck (n : Nat) (f : Bus → Bus) (s : State) : (onBus n f s).rck = s.rck := rfl
@[simp] theorem onBus_clk (n : Nat) (f : Bus → Bus) (s : State) : (onBus n f s).clk = s.clk := rfl
@[simp] theorem onBus_rf (n : Nat) (f : Bus → Bus) (s : State) : (onBus n f s).rf = s.rf := rfl
@[simp] theorem onBus_links (n : Nat) (f : Bus → Bus) (s : State) : (onBus n f s).links = s.links := rfl
@[simp] theorem onBus_carriers (n : Nat) (f : Bus → Bus) (s : State) : (onBus n f s).carriers = s.carriers := rfl
@[simp] theorem onBus_tx (n : Nat) (f : Bus → Bus) (s : State) : (onBus n f s).tx = s.tx := rfl
@[simp] theorem onBus_cl (n : Nat) (f : Bus → Bus) (s : State) : (onBus n f s).cl = s.cl := rfl
@[simp] theorem onBus_sessions (n : Nat) (f : Bus → Bus) (s : State) : (onBus n f s).sessions = s.sessions := rfl
@[simp] theorem onBus_rods (n : Nat) (f : Bus → Bus) (s : State) : (onBus n f s).rods = s.rods := rfl
@[simp] theorem onBus_audio (n : Nat) (f : Bus → Bus) (s : State) : (onBus n f s).audio = { s.audio with buses := smSet Bus.reset s.audio.buses n (f (bus s n)) } := rfl
@[simp] theorem onBus_mem (n : Nat) (f : Bus → Bus) (s : State) : (onBus n f s).mem = s.mem := rfl
@[simp] theorem onBus_ana (n : Nat) (f : Bus → Bus) (s : State) : (onBus n f s).ana = s.ana := rfl
@[simp] theorem onBus_inst (n : Nat) (f : Bus → Bus) (s : State) : (onBus n f s).inst = s.inst := rfl
@[simp] theorem onBus_tw (n : Nat) (f : Bus → Bus) (s : State) : (onBus n f s).tw = s.tw := rfl
@[simp] theorem onBus_power (n : Nat) (f : Bus → Bus) (s : State) : (onBus n f s).power = s.power := rfl
@[simp] theorem onBus_supply (n : Nat) (f : Bus → Bus) (s : State) : (onBus n f s).supply = s.supply := rfl
@[simp] theorem onBus_prot (n : Nat) (f : Bus → Bus) (s : State) : (onBus n f s).prot = s.prot := rfl
@[simp] theorem onBus_age (n : Nat) (f : Bus → Bus) (s : State) : (onBus n f s).age = s.age := rfl
@[simp] theorem onBus_rattle (n : Nat) (f : Bus → Bus) (s : State) : (onBus n f s).rattle = s.rattle := rfl
@[simp] theorem onBus_free (n : Nat) (f : Bus → Bus) (s : State) : (onBus n f s).free = s.free := rfl

@[simp] theorem onTap_pending (n : Nat) (f : Tap → Tap) (s : State) : (onTap n f s).pending = s.pending := rfl
@[simp] theorem onTap_timebase (n : Nat) (f : Tap → Tap) (s : State) : (onTap n f s).timebase = s.timebase := rfl
@[simp] theorem onTap_par (n : Nat) (f : Tap → Tap) (s : State) : (onTap n f s).par = s.par := rfl
@[simp] theorem onTap_inForce (n : Nat) (f : Tap → Tap) (s : State) : (onTap n f s).inForce = s.inForce := rfl
@[simp] theorem onTap_op (n : Nat) (f : Tap → Tap) (s : State) : (onTap n f s).op = s.op := rfl
@[simp] theorem onTap_cu (n : Nat) (f : Tap → Tap) (s : State) : (onTap n f s).cu = s.cu := rfl
@[simp] theorem onTap_waiting (n : Nat) (f : Tap → Tap) (s : State) : (onTap n f s).waiting = s.waiting := rfl
@[simp] theorem onTap_running (n : Nat) (f : Tap → Tap) (s : State) : (onTap n f s).running = s.running := rfl
@[simp] theorem onTap_events (n : Nat) (f : Tap → Tap) (s : State) : (onTap n f s).events = s.events := rfl
@[simp] theorem onTap_front (n : Nat) (f : Tap → Tap) (s : State) : (onTap n f s).front = s.front := rfl
@[simp] theorem onTap_seq (n : Nat) (f : Tap → Tap) (s : State) : (onTap n f s).seq = s.seq := rfl
@[simp] theorem onTap_alarm (n : Nat) (f : Tap → Tap) (s : State) : (onTap n f s).alarm = s.alarm := rfl
@[simp] theorem onTap_rck (n : Nat) (f : Tap → Tap) (s : State) : (onTap n f s).rck = s.rck := rfl
@[simp] theorem onTap_clk (n : Nat) (f : Tap → Tap) (s : State) : (onTap n f s).clk = s.clk := rfl
@[simp] theorem onTap_rf (n : Nat) (f : Tap → Tap) (s : State) : (onTap n f s).rf = s.rf := rfl
@[simp] theorem onTap_links (n : Nat) (f : Tap → Tap) (s : State) : (onTap n f s).links = s.links := rfl
@[simp] theorem onTap_carriers (n : Nat) (f : Tap → Tap) (s : State) : (onTap n f s).carriers = s.carriers := rfl
@[simp] theorem onTap_tx (n : Nat) (f : Tap → Tap) (s : State) : (onTap n f s).tx = s.tx := rfl
@[simp] theorem onTap_cl (n : Nat) (f : Tap → Tap) (s : State) : (onTap n f s).cl = s.cl := rfl
@[simp] theorem onTap_sessions (n : Nat) (f : Tap → Tap) (s : State) : (onTap n f s).sessions = s.sessions := rfl
@[simp] theorem onTap_rods (n : Nat) (f : Tap → Tap) (s : State) : (onTap n f s).rods = s.rods := rfl
@[simp] theorem onTap_audio (n : Nat) (f : Tap → Tap) (s : State) : (onTap n f s).audio = { s.audio with taps := smSet Tap.reset s.audio.taps n (f (tap s n)) } := rfl
@[simp] theorem onTap_mem (n : Nat) (f : Tap → Tap) (s : State) : (onTap n f s).mem = s.mem := rfl
@[simp] theorem onTap_ana (n : Nat) (f : Tap → Tap) (s : State) : (onTap n f s).ana = s.ana := rfl
@[simp] theorem onTap_inst (n : Nat) (f : Tap → Tap) (s : State) : (onTap n f s).inst = s.inst := rfl
@[simp] theorem onTap_tw (n : Nat) (f : Tap → Tap) (s : State) : (onTap n f s).tw = s.tw := rfl
@[simp] theorem onTap_power (n : Nat) (f : Tap → Tap) (s : State) : (onTap n f s).power = s.power := rfl
@[simp] theorem onTap_supply (n : Nat) (f : Tap → Tap) (s : State) : (onTap n f s).supply = s.supply := rfl
@[simp] theorem onTap_prot (n : Nat) (f : Tap → Tap) (s : State) : (onTap n f s).prot = s.prot := rfl
@[simp] theorem onTap_age (n : Nat) (f : Tap → Tap) (s : State) : (onTap n f s).age = s.age := rfl
@[simp] theorem onTap_rattle (n : Nat) (f : Tap → Tap) (s : State) : (onTap n f s).rattle = s.rattle := rfl
@[simp] theorem onTap_free (n : Nat) (f : Tap → Tap) (s : State) : (onTap n f s).free = s.free := rfl

@[simp] theorem onAna_pending (n : Nat) (f : AnaObj → AnaObj) (s : State) : (onAna n f s).pending = s.pending := rfl
@[simp] theorem onAna_timebase (n : Nat) (f : AnaObj → AnaObj) (s : State) : (onAna n f s).timebase = s.timebase := rfl
@[simp] theorem onAna_par (n : Nat) (f : AnaObj → AnaObj) (s : State) : (onAna n f s).par = s.par := rfl
@[simp] theorem onAna_inForce (n : Nat) (f : AnaObj → AnaObj) (s : State) : (onAna n f s).inForce = s.inForce := rfl
@[simp] theorem onAna_op (n : Nat) (f : AnaObj → AnaObj) (s : State) : (onAna n f s).op = s.op := rfl
@[simp] theorem onAna_cu (n : Nat) (f : AnaObj → AnaObj) (s : State) : (onAna n f s).cu = s.cu := rfl
@[simp] theorem onAna_waiting (n : Nat) (f : AnaObj → AnaObj) (s : State) : (onAna n f s).waiting = s.waiting := rfl
@[simp] theorem onAna_running (n : Nat) (f : AnaObj → AnaObj) (s : State) : (onAna n f s).running = s.running := rfl
@[simp] theorem onAna_events (n : Nat) (f : AnaObj → AnaObj) (s : State) : (onAna n f s).events = s.events := rfl
@[simp] theorem onAna_front (n : Nat) (f : AnaObj → AnaObj) (s : State) : (onAna n f s).front = s.front := rfl
@[simp] theorem onAna_seq (n : Nat) (f : AnaObj → AnaObj) (s : State) : (onAna n f s).seq = s.seq := rfl
@[simp] theorem onAna_alarm (n : Nat) (f : AnaObj → AnaObj) (s : State) : (onAna n f s).alarm = s.alarm := rfl
@[simp] theorem onAna_rck (n : Nat) (f : AnaObj → AnaObj) (s : State) : (onAna n f s).rck = s.rck := rfl
@[simp] theorem onAna_clk (n : Nat) (f : AnaObj → AnaObj) (s : State) : (onAna n f s).clk = s.clk := rfl
@[simp] theorem onAna_rf (n : Nat) (f : AnaObj → AnaObj) (s : State) : (onAna n f s).rf = s.rf := rfl
@[simp] theorem onAna_links (n : Nat) (f : AnaObj → AnaObj) (s : State) : (onAna n f s).links = s.links := rfl
@[simp] theorem onAna_carriers (n : Nat) (f : AnaObj → AnaObj) (s : State) : (onAna n f s).carriers = s.carriers := rfl
@[simp] theorem onAna_tx (n : Nat) (f : AnaObj → AnaObj) (s : State) : (onAna n f s).tx = s.tx := rfl
@[simp] theorem onAna_cl (n : Nat) (f : AnaObj → AnaObj) (s : State) : (onAna n f s).cl = s.cl := rfl
@[simp] theorem onAna_sessions (n : Nat) (f : AnaObj → AnaObj) (s : State) : (onAna n f s).sessions = s.sessions := rfl
@[simp] theorem onAna_rods (n : Nat) (f : AnaObj → AnaObj) (s : State) : (onAna n f s).rods = s.rods := rfl
@[simp] theorem onAna_audio (n : Nat) (f : AnaObj → AnaObj) (s : State) : (onAna n f s).audio = s.audio := rfl
@[simp] theorem onAna_mem (n : Nat) (f : AnaObj → AnaObj) (s : State) : (onAna n f s).mem = s.mem := rfl
@[simp] theorem onAna_ana (n : Nat) (f : AnaObj → AnaObj) (s : State) : (onAna n f s).ana = { s.ana with objs := smSet AnaObj.reset s.ana.objs n (f (ana s n)) } := rfl
@[simp] theorem onAna_inst (n : Nat) (f : AnaObj → AnaObj) (s : State) : (onAna n f s).inst = s.inst := rfl
@[simp] theorem onAna_tw (n : Nat) (f : AnaObj → AnaObj) (s : State) : (onAna n f s).tw = s.tw := rfl
@[simp] theorem onAna_power (n : Nat) (f : AnaObj → AnaObj) (s : State) : (onAna n f s).power = s.power := rfl
@[simp] theorem onAna_supply (n : Nat) (f : AnaObj → AnaObj) (s : State) : (onAna n f s).supply = s.supply := rfl
@[simp] theorem onAna_prot (n : Nat) (f : AnaObj → AnaObj) (s : State) : (onAna n f s).prot = s.prot := rfl
@[simp] theorem onAna_age (n : Nat) (f : AnaObj → AnaObj) (s : State) : (onAna n f s).age = s.age := rfl
@[simp] theorem onAna_rattle (n : Nat) (f : AnaObj → AnaObj) (s : State) : (onAna n f s).rattle = s.rattle := rfl
@[simp] theorem onAna_free (n : Nat) (f : AnaObj → AnaObj) (s : State) : (onAna n f s).free = s.free := rfl

@[simp] theorem onCdac_pending (n : Nat) (f : Cdac → Cdac) (s : State) : (onCdac n f s).pending = s.pending := rfl
@[simp] theorem onCdac_timebase (n : Nat) (f : Cdac → Cdac) (s : State) : (onCdac n f s).timebase = s.timebase := rfl
@[simp] theorem onCdac_par (n : Nat) (f : Cdac → Cdac) (s : State) : (onCdac n f s).par = s.par := rfl
@[simp] theorem onCdac_inForce (n : Nat) (f : Cdac → Cdac) (s : State) : (onCdac n f s).inForce = s.inForce := rfl
@[simp] theorem onCdac_op (n : Nat) (f : Cdac → Cdac) (s : State) : (onCdac n f s).op = s.op := rfl
@[simp] theorem onCdac_cu (n : Nat) (f : Cdac → Cdac) (s : State) : (onCdac n f s).cu = s.cu := rfl
@[simp] theorem onCdac_waiting (n : Nat) (f : Cdac → Cdac) (s : State) : (onCdac n f s).waiting = s.waiting := rfl
@[simp] theorem onCdac_running (n : Nat) (f : Cdac → Cdac) (s : State) : (onCdac n f s).running = s.running := rfl
@[simp] theorem onCdac_events (n : Nat) (f : Cdac → Cdac) (s : State) : (onCdac n f s).events = s.events := rfl
@[simp] theorem onCdac_front (n : Nat) (f : Cdac → Cdac) (s : State) : (onCdac n f s).front = s.front := rfl
@[simp] theorem onCdac_seq (n : Nat) (f : Cdac → Cdac) (s : State) : (onCdac n f s).seq = s.seq := rfl
@[simp] theorem onCdac_alarm (n : Nat) (f : Cdac → Cdac) (s : State) : (onCdac n f s).alarm = s.alarm := rfl
@[simp] theorem onCdac_rck (n : Nat) (f : Cdac → Cdac) (s : State) : (onCdac n f s).rck = s.rck := rfl
@[simp] theorem onCdac_clk (n : Nat) (f : Cdac → Cdac) (s : State) : (onCdac n f s).clk = s.clk := rfl
@[simp] theorem onCdac_rf (n : Nat) (f : Cdac → Cdac) (s : State) : (onCdac n f s).rf = s.rf := rfl
@[simp] theorem onCdac_links (n : Nat) (f : Cdac → Cdac) (s : State) : (onCdac n f s).links = s.links := rfl
@[simp] theorem onCdac_carriers (n : Nat) (f : Cdac → Cdac) (s : State) : (onCdac n f s).carriers = s.carriers := rfl
@[simp] theorem onCdac_tx (n : Nat) (f : Cdac → Cdac) (s : State) : (onCdac n f s).tx = s.tx := rfl
@[simp] theorem onCdac_cl (n : Nat) (f : Cdac → Cdac) (s : State) : (onCdac n f s).cl = s.cl := rfl
@[simp] theorem onCdac_sessions (n : Nat) (f : Cdac → Cdac) (s : State) : (onCdac n f s).sessions = s.sessions := rfl
@[simp] theorem onCdac_rods (n : Nat) (f : Cdac → Cdac) (s : State) : (onCdac n f s).rods = s.rods := rfl
@[simp] theorem onCdac_audio (n : Nat) (f : Cdac → Cdac) (s : State) : (onCdac n f s).audio = s.audio := rfl
@[simp] theorem onCdac_mem (n : Nat) (f : Cdac → Cdac) (s : State) : (onCdac n f s).mem = s.mem := rfl
@[simp] theorem onCdac_ana (n : Nat) (f : Cdac → Cdac) (s : State) : (onCdac n f s).ana = s.ana := rfl
@[simp] theorem onCdac_inst (n : Nat) (f : Cdac → Cdac) (s : State) : (onCdac n f s).inst = { s.inst with cdac := smSet Cdac.reset s.inst.cdac n (f (cdac s n)) } := rfl
@[simp] theorem onCdac_tw (n : Nat) (f : Cdac → Cdac) (s : State) : (onCdac n f s).tw = s.tw := rfl
@[simp] theorem onCdac_power (n : Nat) (f : Cdac → Cdac) (s : State) : (onCdac n f s).power = s.power := rfl
@[simp] theorem onCdac_supply (n : Nat) (f : Cdac → Cdac) (s : State) : (onCdac n f s).supply = s.supply := rfl
@[simp] theorem onCdac_prot (n : Nat) (f : Cdac → Cdac) (s : State) : (onCdac n f s).prot = s.prot := rfl
@[simp] theorem onCdac_age (n : Nat) (f : Cdac → Cdac) (s : State) : (onCdac n f s).age = s.age := rfl
@[simp] theorem onCdac_rattle (n : Nat) (f : Cdac → Cdac) (s : State) : (onCdac n f s).rattle = s.rattle := rfl
@[simp] theorem onCdac_free (n : Nat) (f : Cdac → Cdac) (s : State) : (onCdac n f s).free = s.free := rfl

@[simp] theorem setDom_pending (d : Nat) (b : Bool) (s : State) : (setDom d b s).pending = s.pending := rfl
@[simp] theorem setDom_timebase (d : Nat) (b : Bool) (s : State) : (setDom d b s).timebase = s.timebase := rfl
@[simp] theorem setDom_par (d : Nat) (b : Bool) (s : State) : (setDom d b s).par = s.par := rfl
@[simp] theorem setDom_inForce (d : Nat) (b : Bool) (s : State) : (setDom d b s).inForce = s.inForce := rfl
@[simp] theorem setDom_op (d : Nat) (b : Bool) (s : State) : (setDom d b s).op = s.op := rfl
@[simp] theorem setDom_cu (d : Nat) (b : Bool) (s : State) : (setDom d b s).cu = s.cu := rfl
@[simp] theorem setDom_waiting (d : Nat) (b : Bool) (s : State) : (setDom d b s).waiting = s.waiting := rfl
@[simp] theorem setDom_running (d : Nat) (b : Bool) (s : State) : (setDom d b s).running = s.running := rfl
@[simp] theorem setDom_events (d : Nat) (b : Bool) (s : State) : (setDom d b s).events = s.events := rfl
@[simp] theorem setDom_front (d : Nat) (b : Bool) (s : State) : (setDom d b s).front = s.front := rfl
@[simp] theorem setDom_seq (d : Nat) (b : Bool) (s : State) : (setDom d b s).seq = s.seq := rfl
@[simp] theorem setDom_alarm (d : Nat) (b : Bool) (s : State) : (setDom d b s).alarm = s.alarm := rfl
@[simp] theorem setDom_rck (d : Nat) (b : Bool) (s : State) : (setDom d b s).rck = s.rck := rfl
@[simp] theorem setDom_clk (d : Nat) (b : Bool) (s : State) : (setDom d b s).clk = s.clk := rfl
@[simp] theorem setDom_rf (d : Nat) (b : Bool) (s : State) : (setDom d b s).rf = s.rf := rfl
@[simp] theorem setDom_links (d : Nat) (b : Bool) (s : State) : (setDom d b s).links = s.links := rfl
@[simp] theorem setDom_carriers (d : Nat) (b : Bool) (s : State) : (setDom d b s).carriers = s.carriers := rfl
@[simp] theorem setDom_tx (d : Nat) (b : Bool) (s : State) : (setDom d b s).tx = s.tx := rfl
@[simp] theorem setDom_cl (d : Nat) (b : Bool) (s : State) : (setDom d b s).cl = s.cl := rfl
@[simp] theorem setDom_sessions (d : Nat) (b : Bool) (s : State) : (setDom d b s).sessions = s.sessions := rfl
@[simp] theorem setDom_rods (d : Nat) (b : Bool) (s : State) : (setDom d b s).rods = s.rods := rfl
@[simp] theorem setDom_audio (d : Nat) (b : Bool) (s : State) : (setDom d b s).audio = s.audio := rfl
@[simp] theorem setDom_mem (d : Nat) (b : Bool) (s : State) : (setDom d b s).mem = s.mem := rfl
@[simp] theorem setDom_ana (d : Nat) (b : Bool) (s : State) : (setDom d b s).ana = s.ana := rfl
@[simp] theorem setDom_inst (d : Nat) (b : Bool) (s : State) : (setDom d b s).inst = s.inst := rfl
@[simp] theorem setDom_tw (d : Nat) (b : Bool) (s : State) : (setDom d b s).tw = s.tw := rfl
@[simp] theorem setDom_supply (d : Nat) (b : Bool) (s : State) : (setDom d b s).supply = s.supply := rfl
@[simp] theorem setDom_prot (d : Nat) (b : Bool) (s : State) : (setDom d b s).prot = s.prot := rfl
@[simp] theorem setDom_age (d : Nat) (b : Bool) (s : State) : (setDom d b s).age = s.age := rfl
@[simp] theorem setDom_rattle (d : Nat) (b : Bool) (s : State) : (setDom d b s).rattle = s.rattle := rfl
@[simp] theorem setDom_free (d : Nat) (b : Bool) (s : State) : (setDom d b s).free = s.free := rfl

@[simp] theorem parSet_pending (k v : Nat) (s : State) : (parSet k v s).pending = s.pending := rfl
@[simp] theorem parSet_timebase (k v : Nat) (s : State) : (parSet k v s).timebase = s.timebase := rfl
@[simp] theorem parSet_par (k v : Nat) (s : State) : (parSet k v s).par = if v = porValue k then smErase s.par k else smPut s.par k v := rfl
@[simp] theorem parSet_inForce (k v : Nat) (s : State) : (parSet k v s).inForce = s.inForce := rfl
@[simp] theorem parSet_op (k v : Nat) (s : State) : (parSet k v s).op = s.op := rfl
@[simp] theorem parSet_cu (k v : Nat) (s : State) : (parSet k v s).cu = s.cu := rfl
@[simp] theorem parSet_waiting (k v : Nat) (s : State) : (parSet k v s).waiting = s.waiting := rfl
@[simp] theorem parSet_running (k v : Nat) (s : State) : (parSet k v s).running = s.running := rfl
@[simp] theorem parSet_events (k v : Nat) (s : State) : (parSet k v s).events = s.events := rfl
@[simp] theorem parSet_front (k v : Nat) (s : State) : (parSet k v s).front = s.front := rfl
@[simp] theorem parSet_seq (k v : Nat) (s : State) : (parSet k v s).seq = s.seq := rfl
@[simp] theorem parSet_alarm (k v : Nat) (s : State) : (parSet k v s).alarm = s.alarm := rfl
@[simp] theorem parSet_rck (k v : Nat) (s : State) : (parSet k v s).rck = s.rck := rfl
@[simp] theorem parSet_clk (k v : Nat) (s : State) : (parSet k v s).clk = s.clk := rfl
@[simp] theorem parSet_rf (k v : Nat) (s : State) : (parSet k v s).rf = s.rf := rfl
@[simp] theorem parSet_links (k v : Nat) (s : State) : (parSet k v s).links = s.links := rfl
@[simp] theorem parSet_carriers (k v : Nat) (s : State) : (parSet k v s).carriers = s.carriers := rfl
@[simp] theorem parSet_tx (k v : Nat) (s : State) : (parSet k v s).tx = s.tx := rfl
@[simp] theorem parSet_cl (k v : Nat) (s : State) : (parSet k v s).cl = s.cl := rfl
@[simp] theorem parSet_sessions (k v : Nat) (s : State) : (parSet k v s).sessions = s.sessions := rfl
@[simp] theorem parSet_rods (k v : Nat) (s : State) : (parSet k v s).rods = s.rods := rfl
@[simp] theorem parSet_audio (k v : Nat) (s : State) : (parSet k v s).audio = s.audio := rfl
@[simp] theorem parSet_mem (k v : Nat) (s : State) : (parSet k v s).mem = s.mem := rfl
@[simp] theorem parSet_ana (k v : Nat) (s : State) : (parSet k v s).ana = s.ana := rfl
@[simp] theorem parSet_inst (k v : Nat) (s : State) : (parSet k v s).inst = s.inst := rfl
@[simp] theorem parSet_tw (k v : Nat) (s : State) : (parSet k v s).tw = s.tw := rfl
@[simp] theorem parSet_power (k v : Nat) (s : State) : (parSet k v s).power = s.power := rfl
@[simp] theorem parSet_supply (k v : Nat) (s : State) : (parSet k v s).supply = s.supply := rfl
@[simp] theorem parSet_prot (k v : Nat) (s : State) : (parSet k v s).prot = s.prot := rfl
@[simp] theorem parSet_age (k v : Nat) (s : State) : (parSet k v s).age = s.age := rfl
@[simp] theorem parSet_rattle (k v : Nat) (s : State) : (parSet k v s).rattle = s.rattle := rfl
@[simp] theorem parSet_free (k v : Nat) (s : State) : (parSet k v s).free = s.free := rfl

@[simp] theorem stopRunning_pending (r : Running) (s : State) : (stopRunning r s).pending = s.pending := rfl
@[simp] theorem stopRunning_timebase (r : Running) (s : State) : (stopRunning r s).timebase = s.timebase := rfl
@[simp] theorem stopRunning_par (r : Running) (s : State) : (stopRunning r s).par = s.par := rfl
@[simp] theorem stopRunning_inForce (r : Running) (s : State) : (stopRunning r s).inForce = s.inForce := rfl
@[simp] theorem stopRunning_op (r : Running) (s : State) : (stopRunning r s).op = s.op := rfl
@[simp] theorem stopRunning_cu (r : Running) (s : State) : (stopRunning r s).cu = s.cu := rfl
@[simp] theorem stopRunning_waiting (r : Running) (s : State) : (stopRunning r s).waiting = s.waiting := rfl
@[simp] theorem stopRunning_running (r : Running) (s : State) : (stopRunning r s).running = s.running.filter (fun q => !isSame r q) := rfl
@[simp] theorem stopRunning_events (r : Running) (s : State) : (stopRunning r s).events = s.events := rfl
@[simp] theorem stopRunning_front (r : Running) (s : State) : (stopRunning r s).front = s.front := rfl
@[simp] theorem stopRunning_seq (r : Running) (s : State) : (stopRunning r s).seq = s.seq := rfl
@[simp] theorem stopRunning_alarm (r : Running) (s : State) : (stopRunning r s).alarm = s.alarm := rfl
@[simp] theorem stopRunning_rck (r : Running) (s : State) : (stopRunning r s).rck = s.rck := rfl
@[simp] theorem stopRunning_clk (r : Running) (s : State) : (stopRunning r s).clk = s.clk := rfl
@[simp] theorem stopRunning_rf (r : Running) (s : State) : (stopRunning r s).rf = s.rf := rfl
@[simp] theorem stopRunning_links (r : Running) (s : State) : (stopRunning r s).links = s.links := rfl
@[simp] theorem stopRunning_carriers (r : Running) (s : State) : (stopRunning r s).carriers = s.carriers := rfl
@[simp] theorem stopRunning_tx (r : Running) (s : State) : (stopRunning r s).tx = s.tx := rfl
@[simp] theorem stopRunning_cl (r : Running) (s : State) : (stopRunning r s).cl = s.cl := rfl
@[simp] theorem stopRunning_sessions (r : Running) (s : State) : (stopRunning r s).sessions = s.sessions := rfl
@[simp] theorem stopRunning_rods (r : Running) (s : State) : (stopRunning r s).rods = s.rods := rfl
@[simp] theorem stopRunning_audio (r : Running) (s : State) : (stopRunning r s).audio = s.audio := rfl
@[simp] theorem stopRunning_mem (r : Running) (s : State) : (stopRunning r s).mem = s.mem := rfl
@[simp] theorem stopRunning_ana (r : Running) (s : State) : (stopRunning r s).ana = s.ana := rfl
@[simp] theorem stopRunning_inst (r : Running) (s : State) : (stopRunning r s).inst = s.inst := rfl
@[simp] theorem stopRunning_tw (r : Running) (s : State) : (stopRunning r s).tw = s.tw := rfl
@[simp] theorem stopRunning_power (r : Running) (s : State) : (stopRunning r s).power = s.power := rfl
@[simp] theorem stopRunning_supply (r : Running) (s : State) : (stopRunning r s).supply = s.supply := rfl
@[simp] theorem stopRunning_prot (r : Running) (s : State) : (stopRunning r s).prot = s.prot := rfl
@[simp] theorem stopRunning_age (r : Running) (s : State) : (stopRunning r s).age = s.age := rfl
@[simp] theorem stopRunning_rattle (r : Running) (s : State) : (stopRunning r s).rattle = s.rattle := rfl
@[simp] theorem stopRunning_free (r : Running) (s : State) : (stopRunning r s).free = s.free := rfl

@[simp] theorem putRunning_pending (r : Running) (s : State) : (putRunning r s).pending = s.pending := rfl
@[simp] theorem putRunning_timebase (r : Running) (s : State) : (putRunning r s).timebase = s.timebase := rfl
@[simp] theorem putRunning_par (r : Running) (s : State) : (putRunning r s).par = s.par := rfl
@[simp] theorem putRunning_inForce (r : Running) (s : State) : (putRunning r s).inForce = s.inForce := rfl
@[simp] theorem putRunning_op (r : Running) (s : State) : (putRunning r s).op = s.op := rfl
@[simp] theorem putRunning_cu (r : Running) (s : State) : (putRunning r s).cu = s.cu := rfl
@[simp] theorem putRunning_waiting (r : Running) (s : State) : (putRunning r s).waiting = s.waiting := rfl
@[simp] theorem putRunning_running (r : Running) (s : State) : (putRunning r s).running = s.running.filter (fun q => !isSame r q) ++ [r] := rfl
@[simp] theorem putRunning_events (r : Running) (s : State) : (putRunning r s).events = s.events := rfl
@[simp] theorem putRunning_front (r : Running) (s : State) : (putRunning r s).front = s.front := rfl
@[simp] theorem putRunning_seq (r : Running) (s : State) : (putRunning r s).seq = s.seq := rfl
@[simp] theorem putRunning_alarm (r : Running) (s : State) : (putRunning r s).alarm = s.alarm := rfl
@[simp] theorem putRunning_rck (r : Running) (s : State) : (putRunning r s).rck = s.rck := rfl
@[simp] theorem putRunning_clk (r : Running) (s : State) : (putRunning r s).clk = s.clk := rfl
@[simp] theorem putRunning_rf (r : Running) (s : State) : (putRunning r s).rf = s.rf := rfl
@[simp] theorem putRunning_links (r : Running) (s : State) : (putRunning r s).links = s.links := rfl
@[simp] theorem putRunning_carriers (r : Running) (s : State) : (putRunning r s).carriers = s.carriers := rfl
@[simp] theorem putRunning_tx (r : Running) (s : State) : (putRunning r s).tx = s.tx := rfl
@[simp] theorem putRunning_cl (r : Running) (s : State) : (putRunning r s).cl = s.cl := rfl
@[simp] theorem putRunning_sessions (r : Running) (s : State) : (putRunning r s).sessions = s.sessions := rfl
@[simp] theorem putRunning_rods (r : Running) (s : State) : (putRunning r s).rods = s.rods := rfl
@[simp] theorem putRunning_audio (r : Running) (s : State) : (putRunning r s).audio = s.audio := rfl
@[simp] theorem putRunning_mem (r : Running) (s : State) : (putRunning r s).mem = s.mem := rfl
@[simp] theorem putRunning_ana (r : Running) (s : State) : (putRunning r s).ana = s.ana := rfl
@[simp] theorem putRunning_inst (r : Running) (s : State) : (putRunning r s).inst = s.inst := rfl
@[simp] theorem putRunning_tw (r : Running) (s : State) : (putRunning r s).tw = s.tw := rfl
@[simp] theorem putRunning_power (r : Running) (s : State) : (putRunning r s).power = s.power := rfl
@[simp] theorem putRunning_supply (r : Running) (s : State) : (putRunning r s).supply = s.supply := rfl
@[simp] theorem putRunning_prot (r : Running) (s : State) : (putRunning r s).prot = s.prot := rfl
@[simp] theorem putRunning_age (r : Running) (s : State) : (putRunning r s).age = s.age := rfl
@[simp] theorem putRunning_rattle (r : Running) (s : State) : (putRunning r s).rattle = s.rattle := rfl
@[simp] theorem putRunning_free (r : Running) (s : State) : (putRunning r s).free = s.free := rfl

@[simp] theorem setCharges_pending (cs : List Charge) (s : State) : (setCharges cs s).pending = s.pending := rfl
@[simp] theorem setCharges_timebase (cs : List Charge) (s : State) : (setCharges cs s).timebase = s.timebase := rfl
@[simp] theorem setCharges_par (cs : List Charge) (s : State) : (setCharges cs s).par = s.par := rfl
@[simp] theorem setCharges_inForce (cs : List Charge) (s : State) : (setCharges cs s).inForce = s.inForce := rfl
@[simp] theorem setCharges_op (cs : List Charge) (s : State) : (setCharges cs s).op = s.op := rfl
@[simp] theorem setCharges_cu (cs : List Charge) (s : State) : (setCharges cs s).cu = s.cu := rfl
@[simp] theorem setCharges_waiting (cs : List Charge) (s : State) : (setCharges cs s).waiting = s.waiting := rfl
@[simp] theorem setCharges_running (cs : List Charge) (s : State) : (setCharges cs s).running = s.running := rfl
@[simp] theorem setCharges_events (cs : List Charge) (s : State) : (setCharges cs s).events = s.events := rfl
@[simp] theorem setCharges_front (cs : List Charge) (s : State) : (setCharges cs s).front = s.front := rfl
@[simp] theorem setCharges_seq (cs : List Charge) (s : State) : (setCharges cs s).seq = s.seq := rfl
@[simp] theorem setCharges_alarm (cs : List Charge) (s : State) : (setCharges cs s).alarm = s.alarm := rfl
@[simp] theorem setCharges_rck (cs : List Charge) (s : State) : (setCharges cs s).rck = { s.rck with charges := cs } := rfl
@[simp] theorem setCharges_clk (cs : List Charge) (s : State) : (setCharges cs s).clk = s.clk := rfl
@[simp] theorem setCharges_rf (cs : List Charge) (s : State) : (setCharges cs s).rf = s.rf := rfl
@[simp] theorem setCharges_links (cs : List Charge) (s : State) : (setCharges cs s).links = s.links := rfl
@[simp] theorem setCharges_carriers (cs : List Charge) (s : State) : (setCharges cs s).carriers = s.carriers := rfl
@[simp] theorem setCharges_tx (cs : List Charge) (s : State) : (setCharges cs s).tx = s.tx := rfl
@[simp] theorem setCharges_cl (cs : List Charge) (s : State) : (setCharges cs s).cl = s.cl := rfl
@[simp] theorem setCharges_sessions (cs : List Charge) (s : State) : (setCharges cs s).sessions = s.sessions := rfl
@[simp] theorem setCharges_rods (cs : List Charge) (s : State) : (setCharges cs s).rods = s.rods := rfl
@[simp] theorem setCharges_audio (cs : List Charge) (s : State) : (setCharges cs s).audio = s.audio := rfl
@[simp] theorem setCharges_mem (cs : List Charge) (s : State) : (setCharges cs s).mem = s.mem := rfl
@[simp] theorem setCharges_ana (cs : List Charge) (s : State) : (setCharges cs s).ana = s.ana := rfl
@[simp] theorem setCharges_inst (cs : List Charge) (s : State) : (setCharges cs s).inst = s.inst := rfl
@[simp] theorem setCharges_tw (cs : List Charge) (s : State) : (setCharges cs s).tw = s.tw := rfl
@[simp] theorem setCharges_power (cs : List Charge) (s : State) : (setCharges cs s).power = s.power := rfl
@[simp] theorem setCharges_supply (cs : List Charge) (s : State) : (setCharges cs s).supply = s.supply := rfl
@[simp] theorem setCharges_prot (cs : List Charge) (s : State) : (setCharges cs s).prot = s.prot := rfl
@[simp] theorem setCharges_age (cs : List Charge) (s : State) : (setCharges cs s).age = s.age := rfl
@[simp] theorem setCharges_rattle (cs : List Charge) (s : State) : (setCharges cs s).rattle = s.rattle := rfl
@[simp] theorem setCharges_free (cs : List Charge) (s : State) : (setCharges cs s).free = s.free := rfl

@[simp] theorem onAnalog_pending (f : Analog → Analog) (s : State) : (onAnalog f s).pending = s.pending := rfl
@[simp] theorem onAnalog_timebase (f : Analog → Analog) (s : State) : (onAnalog f s).timebase = s.timebase := rfl
@[simp] theorem onAnalog_par (f : Analog → Analog) (s : State) : (onAnalog f s).par = s.par := rfl
@[simp] theorem onAnalog_inForce (f : Analog → Analog) (s : State) : (onAnalog f s).inForce = s.inForce := rfl
@[simp] theorem onAnalog_op (f : Analog → Analog) (s : State) : (onAnalog f s).op = s.op := rfl
@[simp] theorem onAnalog_cu (f : Analog → Analog) (s : State) : (onAnalog f s).cu = s.cu := rfl
@[simp] theorem onAnalog_waiting (f : Analog → Analog) (s : State) : (onAnalog f s).waiting = s.waiting := rfl
@[simp] theorem onAnalog_running (f : Analog → Analog) (s : State) : (onAnalog f s).running = s.running := rfl
@[simp] theorem onAnalog_events (f : Analog → Analog) (s : State) : (onAnalog f s).events = s.events := rfl
@[simp] theorem onAnalog_front (f : Analog → Analog) (s : State) : (onAnalog f s).front = s.front := rfl
@[simp] theorem onAnalog_seq (f : Analog → Analog) (s : State) : (onAnalog f s).seq = s.seq := rfl
@[simp] theorem onAnalog_alarm (f : Analog → Analog) (s : State) : (onAnalog f s).alarm = s.alarm := rfl
@[simp] theorem onAnalog_rck (f : Analog → Analog) (s : State) : (onAnalog f s).rck = s.rck := rfl
@[simp] theorem onAnalog_clk (f : Analog → Analog) (s : State) : (onAnalog f s).clk = s.clk := rfl
@[simp] theorem onAnalog_rf (f : Analog → Analog) (s : State) : (onAnalog f s).rf = s.rf := rfl
@[simp] theorem onAnalog_links (f : Analog → Analog) (s : State) : (onAnalog f s).links = s.links := rfl
@[simp] theorem onAnalog_carriers (f : Analog → Analog) (s : State) : (onAnalog f s).carriers = s.carriers := rfl
@[simp] theorem onAnalog_tx (f : Analog → Analog) (s : State) : (onAnalog f s).tx = s.tx := rfl
@[simp] theorem onAnalog_cl (f : Analog → Analog) (s : State) : (onAnalog f s).cl = s.cl := rfl
@[simp] theorem onAnalog_sessions (f : Analog → Analog) (s : State) : (onAnalog f s).sessions = s.sessions := rfl
@[simp] theorem onAnalog_rods (f : Analog → Analog) (s : State) : (onAnalog f s).rods = s.rods := rfl
@[simp] theorem onAnalog_audio (f : Analog → Analog) (s : State) : (onAnalog f s).audio = s.audio := rfl
@[simp] theorem onAnalog_mem (f : Analog → Analog) (s : State) : (onAnalog f s).mem = s.mem := rfl
@[simp] theorem onAnalog_ana (f : Analog → Analog) (s : State) : (onAnalog f s).ana = f s.ana := rfl
@[simp] theorem onAnalog_inst (f : Analog → Analog) (s : State) : (onAnalog f s).inst = s.inst := rfl
@[simp] theorem onAnalog_tw (f : Analog → Analog) (s : State) : (onAnalog f s).tw = s.tw := rfl
@[simp] theorem onAnalog_power (f : Analog → Analog) (s : State) : (onAnalog f s).power = s.power := rfl
@[simp] theorem onAnalog_supply (f : Analog → Analog) (s : State) : (onAnalog f s).supply = s.supply := rfl
@[simp] theorem onAnalog_prot (f : Analog → Analog) (s : State) : (onAnalog f s).prot = s.prot := rfl
@[simp] theorem onAnalog_age (f : Analog → Analog) (s : State) : (onAnalog f s).age = s.age := rfl
@[simp] theorem onAnalog_rattle (f : Analog → Analog) (s : State) : (onAnalog f s).rattle = s.rattle := rfl
@[simp] theorem onAnalog_free (f : Analog → Analog) (s : State) : (onAnalog f s).free = s.free := rfl

@[simp] theorem onCl_pending (f : Cl → Cl) (s : State) : (onCl f s).pending = s.pending := rfl
@[simp] theorem onCl_timebase (f : Cl → Cl) (s : State) : (onCl f s).timebase = s.timebase := rfl
@[simp] theorem onCl_par (f : Cl → Cl) (s : State) : (onCl f s).par = s.par := rfl
@[simp] theorem onCl_inForce (f : Cl → Cl) (s : State) : (onCl f s).inForce = s.inForce := rfl
@[simp] theorem onCl_op (f : Cl → Cl) (s : State) : (onCl f s).op = s.op := rfl
@[simp] theorem onCl_cu (f : Cl → Cl) (s : State) : (onCl f s).cu = s.cu := rfl
@[simp] theorem onCl_waiting (f : Cl → Cl) (s : State) : (onCl f s).waiting = s.waiting := rfl
@[simp] theorem onCl_running (f : Cl → Cl) (s : State) : (onCl f s).running = s.running := rfl
@[simp] theorem onCl_events (f : Cl → Cl) (s : State) : (onCl f s).events = s.events := rfl
@[simp] theorem onCl_front (f : Cl → Cl) (s : State) : (onCl f s).front = s.front := rfl
@[simp] theorem onCl_seq (f : Cl → Cl) (s : State) : (onCl f s).seq = s.seq := rfl
@[simp] theorem onCl_alarm (f : Cl → Cl) (s : State) : (onCl f s).alarm = s.alarm := rfl
@[simp] theorem onCl_rck (f : Cl → Cl) (s : State) : (onCl f s).rck = s.rck := rfl
@[simp] theorem onCl_clk (f : Cl → Cl) (s : State) : (onCl f s).clk = s.clk := rfl
@[simp] theorem onCl_rf (f : Cl → Cl) (s : State) : (onCl f s).rf = s.rf := rfl
@[simp] theorem onCl_links (f : Cl → Cl) (s : State) : (onCl f s).links = s.links := rfl
@[simp] theorem onCl_carriers (f : Cl → Cl) (s : State) : (onCl f s).carriers = s.carriers := rfl
@[simp] theorem onCl_tx (f : Cl → Cl) (s : State) : (onCl f s).tx = s.tx := rfl
@[simp] theorem onCl_cl (f : Cl → Cl) (s : State) : (onCl f s).cl = f s.cl := rfl
@[simp] theorem onCl_sessions (f : Cl → Cl) (s : State) : (onCl f s).sessions = s.sessions := rfl
@[simp] theorem onCl_rods (f : Cl → Cl) (s : State) : (onCl f s).rods = s.rods := rfl
@[simp] theorem onCl_audio (f : Cl → Cl) (s : State) : (onCl f s).audio = s.audio := rfl
@[simp] theorem onCl_mem (f : Cl → Cl) (s : State) : (onCl f s).mem = s.mem := rfl
@[simp] theorem onCl_ana (f : Cl → Cl) (s : State) : (onCl f s).ana = s.ana := rfl
@[simp] theorem onCl_inst (f : Cl → Cl) (s : State) : (onCl f s).inst = s.inst := rfl
@[simp] theorem onCl_tw (f : Cl → Cl) (s : State) : (onCl f s).tw = s.tw := rfl
@[simp] theorem onCl_power (f : Cl → Cl) (s : State) : (onCl f s).power = s.power := rfl
@[simp] theorem onCl_supply (f : Cl → Cl) (s : State) : (onCl f s).supply = s.supply := rfl
@[simp] theorem onCl_prot (f : Cl → Cl) (s : State) : (onCl f s).prot = s.prot := rfl
@[simp] theorem onCl_age (f : Cl → Cl) (s : State) : (onCl f s).age = s.age := rfl
@[simp] theorem onCl_rattle (f : Cl → Cl) (s : State) : (onCl f s).rattle = s.rattle := rfl
@[simp] theorem onCl_free (f : Cl → Cl) (s : State) : (onCl f s).free = s.free := rfl

@[simp] theorem onClk_pending (f : Clocks → Clocks) (s : State) : (onClk f s).pending = s.pending := rfl
@[simp] theorem onClk_timebase (f : Clocks → Clocks) (s : State) : (onClk f s).timebase = s.timebase := rfl
@[simp] theorem onClk_par (f : Clocks → Clocks) (s : State) : (onClk f s).par = s.par := rfl
@[simp] theorem onClk_inForce (f : Clocks → Clocks) (s : State) : (onClk f s).inForce = s.inForce := rfl
@[simp] theorem onClk_op (f : Clocks → Clocks) (s : State) : (onClk f s).op = s.op := rfl
@[simp] theorem onClk_cu (f : Clocks → Clocks) (s : State) : (onClk f s).cu = s.cu := rfl
@[simp] theorem onClk_waiting (f : Clocks → Clocks) (s : State) : (onClk f s).waiting = s.waiting := rfl
@[simp] theorem onClk_running (f : Clocks → Clocks) (s : State) : (onClk f s).running = s.running := rfl
@[simp] theorem onClk_events (f : Clocks → Clocks) (s : State) : (onClk f s).events = s.events := rfl
@[simp] theorem onClk_front (f : Clocks → Clocks) (s : State) : (onClk f s).front = s.front := rfl
@[simp] theorem onClk_seq (f : Clocks → Clocks) (s : State) : (onClk f s).seq = s.seq := rfl
@[simp] theorem onClk_alarm (f : Clocks → Clocks) (s : State) : (onClk f s).alarm = s.alarm := rfl
@[simp] theorem onClk_rck (f : Clocks → Clocks) (s : State) : (onClk f s).rck = s.rck := rfl
@[simp] theorem onClk_clk (f : Clocks → Clocks) (s : State) : (onClk f s).clk = f s.clk := rfl
@[simp] theorem onClk_rf (f : Clocks → Clocks) (s : State) : (onClk f s).rf = s.rf := rfl
@[simp] theorem onClk_links (f : Clocks → Clocks) (s : State) : (onClk f s).links = s.links := rfl
@[simp] theorem onClk_carriers (f : Clocks → Clocks) (s : State) : (onClk f s).carriers = s.carriers := rfl
@[simp] theorem onClk_tx (f : Clocks → Clocks) (s : State) : (onClk f s).tx = s.tx := rfl
@[simp] theorem onClk_cl (f : Clocks → Clocks) (s : State) : (onClk f s).cl = s.cl := rfl
@[simp] theorem onClk_sessions (f : Clocks → Clocks) (s : State) : (onClk f s).sessions = s.sessions := rfl
@[simp] theorem onClk_rods (f : Clocks → Clocks) (s : State) : (onClk f s).rods = s.rods := rfl
@[simp] theorem onClk_audio (f : Clocks → Clocks) (s : State) : (onClk f s).audio = s.audio := rfl
@[simp] theorem onClk_mem (f : Clocks → Clocks) (s : State) : (onClk f s).mem = s.mem := rfl
@[simp] theorem onClk_ana (f : Clocks → Clocks) (s : State) : (onClk f s).ana = s.ana := rfl
@[simp] theorem onClk_inst (f : Clocks → Clocks) (s : State) : (onClk f s).inst = s.inst := rfl
@[simp] theorem onClk_tw (f : Clocks → Clocks) (s : State) : (onClk f s).tw = s.tw := rfl
@[simp] theorem onClk_power (f : Clocks → Clocks) (s : State) : (onClk f s).power = s.power := rfl
@[simp] theorem onClk_supply (f : Clocks → Clocks) (s : State) : (onClk f s).supply = s.supply := rfl
@[simp] theorem onClk_prot (f : Clocks → Clocks) (s : State) : (onClk f s).prot = s.prot := rfl
@[simp] theorem onClk_age (f : Clocks → Clocks) (s : State) : (onClk f s).age = s.age := rfl
@[simp] theorem onClk_rattle (f : Clocks → Clocks) (s : State) : (onClk f s).rattle = s.rattle := rfl
@[simp] theorem onClk_free (f : Clocks → Clocks) (s : State) : (onClk f s).free = s.free := rfl

@[simp] theorem onPower_pending (f : Power → Power) (s : State) : (onPower f s).pending = s.pending := rfl
@[simp] theorem onPower_timebase (f : Power → Power) (s : State) : (onPower f s).timebase = s.timebase := rfl
@[simp] theorem onPower_par (f : Power → Power) (s : State) : (onPower f s).par = s.par := rfl
@[simp] theorem onPower_inForce (f : Power → Power) (s : State) : (onPower f s).inForce = s.inForce := rfl
@[simp] theorem onPower_op (f : Power → Power) (s : State) : (onPower f s).op = s.op := rfl
@[simp] theorem onPower_cu (f : Power → Power) (s : State) : (onPower f s).cu = s.cu := rfl
@[simp] theorem onPower_waiting (f : Power → Power) (s : State) : (onPower f s).waiting = s.waiting := rfl
@[simp] theorem onPower_running (f : Power → Power) (s : State) : (onPower f s).running = s.running := rfl
@[simp] theorem onPower_events (f : Power → Power) (s : State) : (onPower f s).events = s.events := rfl
@[simp] theorem onPower_front (f : Power → Power) (s : State) : (onPower f s).front = s.front := rfl
@[simp] theorem onPower_seq (f : Power → Power) (s : State) : (onPower f s).seq = s.seq := rfl
@[simp] theorem onPower_alarm (f : Power → Power) (s : State) : (onPower f s).alarm = s.alarm := rfl
@[simp] theorem onPower_rck (f : Power → Power) (s : State) : (onPower f s).rck = s.rck := rfl
@[simp] theorem onPower_clk (f : Power → Power) (s : State) : (onPower f s).clk = s.clk := rfl
@[simp] theorem onPower_rf (f : Power → Power) (s : State) : (onPower f s).rf = s.rf := rfl
@[simp] theorem onPower_links (f : Power → Power) (s : State) : (onPower f s).links = s.links := rfl
@[simp] theorem onPower_carriers (f : Power → Power) (s : State) : (onPower f s).carriers = s.carriers := rfl
@[simp] theorem onPower_tx (f : Power → Power) (s : State) : (onPower f s).tx = s.tx := rfl
@[simp] theorem onPower_cl (f : Power → Power) (s : State) : (onPower f s).cl = s.cl := rfl
@[simp] theorem onPower_sessions (f : Power → Power) (s : State) : (onPower f s).sessions = s.sessions := rfl
@[simp] theorem onPower_rods (f : Power → Power) (s : State) : (onPower f s).rods = s.rods := rfl
@[simp] theorem onPower_audio (f : Power → Power) (s : State) : (onPower f s).audio = s.audio := rfl
@[simp] theorem onPower_mem (f : Power → Power) (s : State) : (onPower f s).mem = s.mem := rfl
@[simp] theorem onPower_ana (f : Power → Power) (s : State) : (onPower f s).ana = s.ana := rfl
@[simp] theorem onPower_inst (f : Power → Power) (s : State) : (onPower f s).inst = s.inst := rfl
@[simp] theorem onPower_tw (f : Power → Power) (s : State) : (onPower f s).tw = s.tw := rfl
@[simp] theorem onPower_power (f : Power → Power) (s : State) : (onPower f s).power = f s.power := rfl
@[simp] theorem onPower_supply (f : Power → Power) (s : State) : (onPower f s).supply = s.supply := rfl
@[simp] theorem onPower_prot (f : Power → Power) (s : State) : (onPower f s).prot = s.prot := rfl
@[simp] theorem onPower_age (f : Power → Power) (s : State) : (onPower f s).age = s.age := rfl
@[simp] theorem onPower_rattle (f : Power → Power) (s : State) : (onPower f s).rattle = s.rattle := rfl
@[simp] theorem onPower_free (f : Power → Power) (s : State) : (onPower f s).free = s.free := rfl

@[simp] theorem onTw_pending (f : Tw → Tw) (s : State) : (onTw f s).pending = s.pending := rfl
@[simp] theorem onTw_timebase (f : Tw → Tw) (s : State) : (onTw f s).timebase = s.timebase := rfl
@[simp] theorem onTw_par (f : Tw → Tw) (s : State) : (onTw f s).par = s.par := rfl
@[simp] theorem onTw_inForce (f : Tw → Tw) (s : State) : (onTw f s).inForce = s.inForce := rfl
@[simp] theorem onTw_op (f : Tw → Tw) (s : State) : (onTw f s).op = s.op := rfl
@[simp] theorem onTw_cu (f : Tw → Tw) (s : State) : (onTw f s).cu = s.cu := rfl
@[simp] theorem onTw_waiting (f : Tw → Tw) (s : State) : (onTw f s).waiting = s.waiting := rfl
@[simp] theorem onTw_running (f : Tw → Tw) (s : State) : (onTw f s).running = s.running := rfl
@[simp] theorem onTw_events (f : Tw → Tw) (s : State) : (onTw f s).events = s.events := rfl
@[simp] theorem onTw_front (f : Tw → Tw) (s : State) : (onTw f s).front = s.front := rfl
@[simp] theorem onTw_seq (f : Tw → Tw) (s : State) : (onTw f s).seq = s.seq := rfl
@[simp] theorem onTw_alarm (f : Tw → Tw) (s : State) : (onTw f s).alarm = s.alarm := rfl
@[simp] theorem onTw_rck (f : Tw → Tw) (s : State) : (onTw f s).rck = s.rck := rfl
@[simp] theorem onTw_clk (f : Tw → Tw) (s : State) : (onTw f s).clk = s.clk := rfl
@[simp] theorem onTw_rf (f : Tw → Tw) (s : State) : (onTw f s).rf = s.rf := rfl
@[simp] theorem onTw_links (f : Tw → Tw) (s : State) : (onTw f s).links = s.links := rfl
@[simp] theorem onTw_carriers (f : Tw → Tw) (s : State) : (onTw f s).carriers = s.carriers := rfl
@[simp] theorem onTw_tx (f : Tw → Tw) (s : State) : (onTw f s).tx = s.tx := rfl
@[simp] theorem onTw_cl (f : Tw → Tw) (s : State) : (onTw f s).cl = s.cl := rfl
@[simp] theorem onTw_sessions (f : Tw → Tw) (s : State) : (onTw f s).sessions = s.sessions := rfl
@[simp] theorem onTw_rods (f : Tw → Tw) (s : State) : (onTw f s).rods = s.rods := rfl
@[simp] theorem onTw_audio (f : Tw → Tw) (s : State) : (onTw f s).audio = s.audio := rfl
@[simp] theorem onTw_mem (f : Tw → Tw) (s : State) : (onTw f s).mem = s.mem := rfl
@[simp] theorem onTw_ana (f : Tw → Tw) (s : State) : (onTw f s).ana = s.ana := rfl
@[simp] theorem onTw_inst (f : Tw → Tw) (s : State) : (onTw f s).inst = s.inst := rfl
@[simp] theorem onTw_tw (f : Tw → Tw) (s : State) : (onTw f s).tw = f s.tw := rfl
@[simp] theorem onTw_power (f : Tw → Tw) (s : State) : (onTw f s).power = s.power := rfl
@[simp] theorem onTw_supply (f : Tw → Tw) (s : State) : (onTw f s).supply = s.supply := rfl
@[simp] theorem onTw_prot (f : Tw → Tw) (s : State) : (onTw f s).prot = s.prot := rfl
@[simp] theorem onTw_age (f : Tw → Tw) (s : State) : (onTw f s).age = s.age := rfl
@[simp] theorem onTw_rattle (f : Tw → Tw) (s : State) : (onTw f s).rattle = s.rattle := rfl
@[simp] theorem onTw_free (f : Tw → Tw) (s : State) : (onTw f s).free = s.free := rfl

@[simp] theorem onRf_pending (f : Rf → Rf) (s : State) : (onRf f s).pending = s.pending := rfl
@[simp] theorem onRf_timebase (f : Rf → Rf) (s : State) : (onRf f s).timebase = s.timebase := rfl
@[simp] theorem onRf_par (f : Rf → Rf) (s : State) : (onRf f s).par = s.par := rfl
@[simp] theorem onRf_inForce (f : Rf → Rf) (s : State) : (onRf f s).inForce = s.inForce := rfl
@[simp] theorem onRf_op (f : Rf → Rf) (s : State) : (onRf f s).op = s.op := rfl
@[simp] theorem onRf_cu (f : Rf → Rf) (s : State) : (onRf f s).cu = s.cu := rfl
@[simp] theorem onRf_waiting (f : Rf → Rf) (s : State) : (onRf f s).waiting = s.waiting := rfl
@[simp] theorem onRf_running (f : Rf → Rf) (s : State) : (onRf f s).running = s.running := rfl
@[simp] theorem onRf_events (f : Rf → Rf) (s : State) : (onRf f s).events = s.events := rfl
@[simp] theorem onRf_front (f : Rf → Rf) (s : State) : (onRf f s).front = s.front := rfl
@[simp] theorem onRf_seq (f : Rf → Rf) (s : State) : (onRf f s).seq = s.seq := rfl
@[simp] theorem onRf_alarm (f : Rf → Rf) (s : State) : (onRf f s).alarm = s.alarm := rfl
@[simp] theorem onRf_rck (f : Rf → Rf) (s : State) : (onRf f s).rck = s.rck := rfl
@[simp] theorem onRf_clk (f : Rf → Rf) (s : State) : (onRf f s).clk = s.clk := rfl
@[simp] theorem onRf_rf (f : Rf → Rf) (s : State) : (onRf f s).rf = f s.rf := rfl
@[simp] theorem onRf_links (f : Rf → Rf) (s : State) : (onRf f s).links = s.links := rfl
@[simp] theorem onRf_carriers (f : Rf → Rf) (s : State) : (onRf f s).carriers = s.carriers := rfl
@[simp] theorem onRf_tx (f : Rf → Rf) (s : State) : (onRf f s).tx = s.tx := rfl
@[simp] theorem onRf_cl (f : Rf → Rf) (s : State) : (onRf f s).cl = s.cl := rfl
@[simp] theorem onRf_sessions (f : Rf → Rf) (s : State) : (onRf f s).sessions = s.sessions := rfl
@[simp] theorem onRf_rods (f : Rf → Rf) (s : State) : (onRf f s).rods = s.rods := rfl
@[simp] theorem onRf_audio (f : Rf → Rf) (s : State) : (onRf f s).audio = s.audio := rfl
@[simp] theorem onRf_mem (f : Rf → Rf) (s : State) : (onRf f s).mem = s.mem := rfl
@[simp] theorem onRf_ana (f : Rf → Rf) (s : State) : (onRf f s).ana = s.ana := rfl
@[simp] theorem onRf_inst (f : Rf → Rf) (s : State) : (onRf f s).inst = s.inst := rfl
@[simp] theorem onRf_tw (f : Rf → Rf) (s : State) : (onRf f s).tw = s.tw := rfl
@[simp] theorem onRf_power (f : Rf → Rf) (s : State) : (onRf f s).power = s.power := rfl
@[simp] theorem onRf_supply (f : Rf → Rf) (s : State) : (onRf f s).supply = s.supply := rfl
@[simp] theorem onRf_prot (f : Rf → Rf) (s : State) : (onRf f s).prot = s.prot := rfl
@[simp] theorem onRf_age (f : Rf → Rf) (s : State) : (onRf f s).age = s.age := rfl
@[simp] theorem onRf_rattle (f : Rf → Rf) (s : State) : (onRf f s).rattle = s.rattle := rfl
@[simp] theorem onRf_free (f : Rf → Rf) (s : State) : (onRf f s).free = s.free := rfl

@[simp] theorem onSupply_pending (f : Supply → Supply) (s : State) : (onSupply f s).pending = s.pending := rfl
@[simp] theorem onSupply_timebase (f : Supply → Supply) (s : State) : (onSupply f s).timebase = s.timebase := rfl
@[simp] theorem onSupply_par (f : Supply → Supply) (s : State) : (onSupply f s).par = s.par := rfl
@[simp] theorem onSupply_inForce (f : Supply → Supply) (s : State) : (onSupply f s).inForce = s.inForce := rfl
@[simp] theorem onSupply_op (f : Supply → Supply) (s : State) : (onSupply f s).op = s.op := rfl
@[simp] theorem onSupply_cu (f : Supply → Supply) (s : State) : (onSupply f s).cu = s.cu := rfl
@[simp] theorem onSupply_waiting (f : Supply → Supply) (s : State) : (onSupply f s).waiting = s.waiting := rfl
@[simp] theorem onSupply_running (f : Supply → Supply) (s : State) : (onSupply f s).running = s.running := rfl
@[simp] theorem onSupply_events (f : Supply → Supply) (s : State) : (onSupply f s).events = s.events := rfl
@[simp] theorem onSupply_front (f : Supply → Supply) (s : State) : (onSupply f s).front = s.front := rfl
@[simp] theorem onSupply_seq (f : Supply → Supply) (s : State) : (onSupply f s).seq = s.seq := rfl
@[simp] theorem onSupply_alarm (f : Supply → Supply) (s : State) : (onSupply f s).alarm = s.alarm := rfl
@[simp] theorem onSupply_rck (f : Supply → Supply) (s : State) : (onSupply f s).rck = s.rck := rfl
@[simp] theorem onSupply_clk (f : Supply → Supply) (s : State) : (onSupply f s).clk = s.clk := rfl
@[simp] theorem onSupply_rf (f : Supply → Supply) (s : State) : (onSupply f s).rf = s.rf := rfl
@[simp] theorem onSupply_links (f : Supply → Supply) (s : State) : (onSupply f s).links = s.links := rfl
@[simp] theorem onSupply_carriers (f : Supply → Supply) (s : State) : (onSupply f s).carriers = s.carriers := rfl
@[simp] theorem onSupply_tx (f : Supply → Supply) (s : State) : (onSupply f s).tx = s.tx := rfl
@[simp] theorem onSupply_cl (f : Supply → Supply) (s : State) : (onSupply f s).cl = s.cl := rfl
@[simp] theorem onSupply_sessions (f : Supply → Supply) (s : State) : (onSupply f s).sessions = s.sessions := rfl
@[simp] theorem onSupply_rods (f : Supply → Supply) (s : State) : (onSupply f s).rods = s.rods := rfl
@[simp] theorem onSupply_audio (f : Supply → Supply) (s : State) : (onSupply f s).audio = s.audio := rfl
@[simp] theorem onSupply_mem (f : Supply → Supply) (s : State) : (onSupply f s).mem = s.mem := rfl
@[simp] theorem onSupply_ana (f : Supply → Supply) (s : State) : (onSupply f s).ana = s.ana := rfl
@[simp] theorem onSupply_inst (f : Supply → Supply) (s : State) : (onSupply f s).inst = s.inst := rfl
@[simp] theorem onSupply_tw (f : Supply → Supply) (s : State) : (onSupply f s).tw = s.tw := rfl
@[simp] theorem onSupply_power (f : Supply → Supply) (s : State) : (onSupply f s).power = s.power := rfl
@[simp] theorem onSupply_supply (f : Supply → Supply) (s : State) : (onSupply f s).supply = f s.supply := rfl
@[simp] theorem onSupply_prot (f : Supply → Supply) (s : State) : (onSupply f s).prot = s.prot := rfl
@[simp] theorem onSupply_age (f : Supply → Supply) (s : State) : (onSupply f s).age = s.age := rfl
@[simp] theorem onSupply_rattle (f : Supply → Supply) (s : State) : (onSupply f s).rattle = s.rattle := rfl
@[simp] theorem onSupply_free (f : Supply → Supply) (s : State) : (onSupply f s).free = s.free := rfl

@[simp] theorem setArmed_pending (m : SMap Pert) (s : State) : (setArmed m s).pending = s.pending := rfl
@[simp] theorem setArmed_timebase (m : SMap Pert) (s : State) : (setArmed m s).timebase = s.timebase := rfl
@[simp] theorem setArmed_par (m : SMap Pert) (s : State) : (setArmed m s).par = s.par := rfl
@[simp] theorem setArmed_inForce (m : SMap Pert) (s : State) : (setArmed m s).inForce = s.inForce := rfl
@[simp] theorem setArmed_op (m : SMap Pert) (s : State) : (setArmed m s).op = s.op := rfl
@[simp] theorem setArmed_cu (m : SMap Pert) (s : State) : (setArmed m s).cu = s.cu := rfl
@[simp] theorem setArmed_waiting (m : SMap Pert) (s : State) : (setArmed m s).waiting = s.waiting := rfl
@[simp] theorem setArmed_running (m : SMap Pert) (s : State) : (setArmed m s).running = s.running := rfl
@[simp] theorem setArmed_events (m : SMap Pert) (s : State) : (setArmed m s).events = s.events := rfl
@[simp] theorem setArmed_front (m : SMap Pert) (s : State) : (setArmed m s).front = s.front := rfl
@[simp] theorem setArmed_seq (m : SMap Pert) (s : State) : (setArmed m s).seq = s.seq := rfl
@[simp] theorem setArmed_alarm (m : SMap Pert) (s : State) : (setArmed m s).alarm = s.alarm := rfl
@[simp] theorem setArmed_rck (m : SMap Pert) (s : State) : (setArmed m s).rck = s.rck := rfl
@[simp] theorem setArmed_clk (m : SMap Pert) (s : State) : (setArmed m s).clk = s.clk := rfl
@[simp] theorem setArmed_rf (m : SMap Pert) (s : State) : (setArmed m s).rf = s.rf := rfl
@[simp] theorem setArmed_links (m : SMap Pert) (s : State) : (setArmed m s).links = s.links := rfl
@[simp] theorem setArmed_carriers (m : SMap Pert) (s : State) : (setArmed m s).carriers = s.carriers := rfl
@[simp] theorem setArmed_tx (m : SMap Pert) (s : State) : (setArmed m s).tx = s.tx := rfl
@[simp] theorem setArmed_cl (m : SMap Pert) (s : State) : (setArmed m s).cl = s.cl := rfl
@[simp] theorem setArmed_sessions (m : SMap Pert) (s : State) : (setArmed m s).sessions = s.sessions := rfl
@[simp] theorem setArmed_rods (m : SMap Pert) (s : State) : (setArmed m s).rods = s.rods := rfl
@[simp] theorem setArmed_audio (m : SMap Pert) (s : State) : (setArmed m s).audio = s.audio := rfl
@[simp] theorem setArmed_mem (m : SMap Pert) (s : State) : (setArmed m s).mem = s.mem := rfl
@[simp] theorem setArmed_ana (m : SMap Pert) (s : State) : (setArmed m s).ana = s.ana := rfl
@[simp] theorem setArmed_inst (m : SMap Pert) (s : State) : (setArmed m s).inst = s.inst := rfl
@[simp] theorem setArmed_tw (m : SMap Pert) (s : State) : (setArmed m s).tw = s.tw := rfl
@[simp] theorem setArmed_power (m : SMap Pert) (s : State) : (setArmed m s).power = s.power := rfl
@[simp] theorem setArmed_supply (m : SMap Pert) (s : State) : (setArmed m s).supply = s.supply := rfl
@[simp] theorem setArmed_prot (m : SMap Pert) (s : State) : (setArmed m s).prot = s.prot := rfl
@[simp] theorem setArmed_age (m : SMap Pert) (s : State) : (setArmed m s).age = s.age := rfl
@[simp] theorem setArmed_rattle (m : SMap Pert) (s : State) : (setArmed m s).rattle = { s.rattle with armed := m } := rfl
@[simp] theorem setArmed_free (m : SMap Pert) (s : State) : (setArmed m s).free = s.free := rfl

@[simp] theorem setProposal_pending (p : Option Proposal) (s : State) : (setProposal p s).pending = s.pending := rfl
@[simp] theorem setProposal_timebase (p : Option Proposal) (s : State) : (setProposal p s).timebase = s.timebase := rfl
@[simp] theorem setProposal_par (p : Option Proposal) (s : State) : (setProposal p s).par = s.par := rfl
@[simp] theorem setProposal_inForce (p : Option Proposal) (s : State) : (setProposal p s).inForce = s.inForce := rfl
@[simp] theorem setProposal_op (p : Option Proposal) (s : State) : (setProposal p s).op = s.op := rfl
@[simp] theorem setProposal_cu (p : Option Proposal) (s : State) : (setProposal p s).cu = s.cu := rfl
@[simp] theorem setProposal_waiting (p : Option Proposal) (s : State) : (setProposal p s).waiting = s.waiting := rfl
@[simp] theorem setProposal_running (p : Option Proposal) (s : State) : (setProposal p s).running = s.running := rfl
@[simp] theorem setProposal_events (p : Option Proposal) (s : State) : (setProposal p s).events = s.events := rfl
@[simp] theorem setProposal_front (p : Option Proposal) (s : State) : (setProposal p s).front = s.front := rfl
@[simp] theorem setProposal_seq (p : Option Proposal) (s : State) : (setProposal p s).seq = s.seq := rfl
@[simp] theorem setProposal_alarm (p : Option Proposal) (s : State) : (setProposal p s).alarm = s.alarm := rfl
@[simp] theorem setProposal_rck (p : Option Proposal) (s : State) : (setProposal p s).rck = s.rck := rfl
@[simp] theorem setProposal_clk (p : Option Proposal) (s : State) : (setProposal p s).clk = s.clk := rfl
@[simp] theorem setProposal_rf (p : Option Proposal) (s : State) : (setProposal p s).rf = s.rf := rfl
@[simp] theorem setProposal_links (p : Option Proposal) (s : State) : (setProposal p s).links = s.links := rfl
@[simp] theorem setProposal_carriers (p : Option Proposal) (s : State) : (setProposal p s).carriers = s.carriers := rfl
@[simp] theorem setProposal_tx (p : Option Proposal) (s : State) : (setProposal p s).tx = s.tx := rfl
@[simp] theorem setProposal_cl (p : Option Proposal) (s : State) : (setProposal p s).cl = s.cl := rfl
@[simp] theorem setProposal_sessions (p : Option Proposal) (s : State) : (setProposal p s).sessions = s.sessions := rfl
@[simp] theorem setProposal_rods (p : Option Proposal) (s : State) : (setProposal p s).rods = s.rods := rfl
@[simp] theorem setProposal_audio (p : Option Proposal) (s : State) : (setProposal p s).audio = s.audio := rfl
@[simp] theorem setProposal_mem (p : Option Proposal) (s : State) : (setProposal p s).mem = s.mem := rfl
@[simp] theorem setProposal_ana (p : Option Proposal) (s : State) : (setProposal p s).ana = s.ana := rfl
@[simp] theorem setProposal_inst (p : Option Proposal) (s : State) : (setProposal p s).inst = s.inst := rfl
@[simp] theorem setProposal_tw (p : Option Proposal) (s : State) : (setProposal p s).tw = s.tw := rfl
@[simp] theorem setProposal_power (p : Option Proposal) (s : State) : (setProposal p s).power = s.power := rfl
@[simp] theorem setProposal_supply (p : Option Proposal) (s : State) : (setProposal p s).supply = s.supply := rfl
@[simp] theorem setProposal_prot (p : Option Proposal) (s : State) : (setProposal p s).prot = { s.prot with proposal := p } := rfl
@[simp] theorem setProposal_age (p : Option Proposal) (s : State) : (setProposal p s).age = s.age := rfl
@[simp] theorem setProposal_rattle (p : Option Proposal) (s : State) : (setProposal p s).rattle = s.rattle := rfl
@[simp] theorem setProposal_free (p : Option Proposal) (s : State) : (setProposal p s).free = s.free := rfl

@[simp] theorem onSynth_pending (id : Nat) (f : Synth → Synth) (s : State) : (onSynth id f s).pending = s.pending := by unfold onSynth; (repeat' split) <;> rfl
@[simp] theorem onSynth_timebase (id : Nat) (f : Synth → Synth) (s : State) : (onSynth id f s).timebase = s.timebase := by unfold onSynth; (repeat' split) <;> rfl
@[simp] theorem onSynth_par (id : Nat) (f : Synth → Synth) (s : State) : (onSynth id f s).par = s.par := by unfold onSynth; (repeat' split) <;> rfl
@[simp] theorem onSynth_inForce (id : Nat) (f : Synth → Synth) (s : State) : (onSynth id f s).inForce = s.inForce := by unfold onSynth; (repeat' split) <;> rfl
@[simp] theorem onSynth_op (id : Nat) (f : Synth → Synth) (s : State) : (onSynth id f s).op = s.op := by unfold onSynth; (repeat' split) <;> rfl
@[simp] theorem onSynth_cu (id : Nat) (f : Synth → Synth) (s : State) : (onSynth id f s).cu = s.cu := by unfold onSynth; (repeat' split) <;> rfl
@[simp] theorem onSynth_waiting (id : Nat) (f : Synth → Synth) (s : State) : (onSynth id f s).waiting = s.waiting := by unfold onSynth; (repeat' split) <;> rfl
@[simp] theorem onSynth_running (id : Nat) (f : Synth → Synth) (s : State) : (onSynth id f s).running = s.running := by unfold onSynth; (repeat' split) <;> rfl
@[simp] theorem onSynth_events (id : Nat) (f : Synth → Synth) (s : State) : (onSynth id f s).events = s.events := by unfold onSynth; (repeat' split) <;> rfl
@[simp] theorem onSynth_front (id : Nat) (f : Synth → Synth) (s : State) : (onSynth id f s).front = s.front := by unfold onSynth; (repeat' split) <;> rfl
@[simp] theorem onSynth_seq (id : Nat) (f : Synth → Synth) (s : State) : (onSynth id f s).seq = s.seq := by unfold onSynth; (repeat' split) <;> rfl
@[simp] theorem onSynth_alarm (id : Nat) (f : Synth → Synth) (s : State) : (onSynth id f s).alarm = s.alarm := by unfold onSynth; (repeat' split) <;> rfl
@[simp] theorem onSynth_rck (id : Nat) (f : Synth → Synth) (s : State) : (onSynth id f s).rck = s.rck := by unfold onSynth; (repeat' split) <;> rfl
@[simp] theorem onSynth_rf (id : Nat) (f : Synth → Synth) (s : State) : (onSynth id f s).rf = s.rf := by unfold onSynth; (repeat' split) <;> rfl
@[simp] theorem onSynth_links (id : Nat) (f : Synth → Synth) (s : State) : (onSynth id f s).links = s.links := by unfold onSynth; (repeat' split) <;> rfl
@[simp] theorem onSynth_carriers (id : Nat) (f : Synth → Synth) (s : State) : (onSynth id f s).carriers = s.carriers := by unfold onSynth; (repeat' split) <;> rfl
@[simp] theorem onSynth_tx (id : Nat) (f : Synth → Synth) (s : State) : (onSynth id f s).tx = s.tx := by unfold onSynth; (repeat' split) <;> rfl
@[simp] theorem onSynth_cl (id : Nat) (f : Synth → Synth) (s : State) : (onSynth id f s).cl = s.cl := by unfold onSynth; (repeat' split) <;> rfl
@[simp] theorem onSynth_sessions (id : Nat) (f : Synth → Synth) (s : State) : (onSynth id f s).sessions = s.sessions := by unfold onSynth; (repeat' split) <;> rfl
@[simp] theorem onSynth_rods (id : Nat) (f : Synth → Synth) (s : State) : (onSynth id f s).rods = s.rods := by unfold onSynth; (repeat' split) <;> rfl
@[simp] theorem onSynth_audio (id : Nat) (f : Synth → Synth) (s : State) : (onSynth id f s).audio = s.audio := by unfold onSynth; (repeat' split) <;> rfl
@[simp] theorem onSynth_mem (id : Nat) (f : Synth → Synth) (s : State) : (onSynth id f s).mem = s.mem := by unfold onSynth; (repeat' split) <;> rfl
@[simp] theorem onSynth_ana (id : Nat) (f : Synth → Synth) (s : State) : (onSynth id f s).ana = s.ana := by unfold onSynth; (repeat' split) <;> rfl
@[simp] theorem onSynth_inst (id : Nat) (f : Synth → Synth) (s : State) : (onSynth id f s).inst = s.inst := by unfold onSynth; (repeat' split) <;> rfl
@[simp] theorem onSynth_tw (id : Nat) (f : Synth → Synth) (s : State) : (onSynth id f s).tw = s.tw := by unfold onSynth; (repeat' split) <;> rfl
@[simp] theorem onSynth_power (id : Nat) (f : Synth → Synth) (s : State) : (onSynth id f s).power = s.power := by unfold onSynth; (repeat' split) <;> rfl
@[simp] theorem onSynth_supply (id : Nat) (f : Synth → Synth) (s : State) : (onSynth id f s).supply = s.supply := by unfold onSynth; (repeat' split) <;> rfl
@[simp] theorem onSynth_prot (id : Nat) (f : Synth → Synth) (s : State) : (onSynth id f s).prot = s.prot := by unfold onSynth; (repeat' split) <;> rfl
@[simp] theorem onSynth_age (id : Nat) (f : Synth → Synth) (s : State) : (onSynth id f s).age = s.age := by unfold onSynth; (repeat' split) <;> rfl
@[simp] theorem onSynth_rattle (id : Nat) (f : Synth → Synth) (s : State) : (onSynth id f s).rattle = s.rattle := by unfold onSynth; (repeat' split) <;> rfl
@[simp] theorem onSynth_free (id : Nat) (f : Synth → Synth) (s : State) : (onSynth id f s).free = s.free := by unfold onSynth; (repeat' split) <;> rfl

@[simp] theorem onFine_pending (n : Nat) (f : Fine → Fine) (s : State) : (onFine n f s).pending = s.pending := by unfold onFine; (repeat' split) <;> rfl
@[simp] theorem onFine_timebase (n : Nat) (f : Fine → Fine) (s : State) : (onFine n f s).timebase = s.timebase := by unfold onFine; (repeat' split) <;> rfl
@[simp] theorem onFine_par (n : Nat) (f : Fine → Fine) (s : State) : (onFine n f s).par = s.par := by unfold onFine; (repeat' split) <;> rfl
@[simp] theorem onFine_inForce (n : Nat) (f : Fine → Fine) (s : State) : (onFine n f s).inForce = s.inForce := by unfold onFine; (repeat' split) <;> rfl
@[simp] theorem onFine_op (n : Nat) (f : Fine → Fine) (s : State) : (onFine n f s).op = s.op := by unfold onFine; (repeat' split) <;> rfl
@[simp] theorem onFine_cu (n : Nat) (f : Fine → Fine) (s : State) : (onFine n f s).cu = s.cu := by unfold onFine; (repeat' split) <;> rfl
@[simp] theorem onFine_waiting (n : Nat) (f : Fine → Fine) (s : State) : (onFine n f s).waiting = s.waiting := by unfold onFine; (repeat' split) <;> rfl
@[simp] theorem onFine_running (n : Nat) (f : Fine → Fine) (s : State) : (onFine n f s).running = s.running := by unfold onFine; (repeat' split) <;> rfl
@[simp] theorem onFine_events (n : Nat) (f : Fine → Fine) (s : State) : (onFine n f s).events = s.events := by unfold onFine; (repeat' split) <;> rfl
@[simp] theorem onFine_front (n : Nat) (f : Fine → Fine) (s : State) : (onFine n f s).front = s.front := by unfold onFine; (repeat' split) <;> rfl
@[simp] theorem onFine_seq (n : Nat) (f : Fine → Fine) (s : State) : (onFine n f s).seq = s.seq := by unfold onFine; (repeat' split) <;> rfl
@[simp] theorem onFine_alarm (n : Nat) (f : Fine → Fine) (s : State) : (onFine n f s).alarm = s.alarm := by unfold onFine; (repeat' split) <;> rfl
@[simp] theorem onFine_rck (n : Nat) (f : Fine → Fine) (s : State) : (onFine n f s).rck = s.rck := by unfold onFine; (repeat' split) <;> rfl
@[simp] theorem onFine_clk (n : Nat) (f : Fine → Fine) (s : State) : (onFine n f s).clk = s.clk := by unfold onFine; (repeat' split) <;> rfl
@[simp] theorem onFine_rf (n : Nat) (f : Fine → Fine) (s : State) : (onFine n f s).rf = s.rf := by unfold onFine; (repeat' split) <;> rfl
@[simp] theorem onFine_links (n : Nat) (f : Fine → Fine) (s : State) : (onFine n f s).links = s.links := by unfold onFine; (repeat' split) <;> rfl
@[simp] theorem onFine_carriers (n : Nat) (f : Fine → Fine) (s : State) : (onFine n f s).carriers = s.carriers := by unfold onFine; (repeat' split) <;> rfl
@[simp] theorem onFine_tx (n : Nat) (f : Fine → Fine) (s : State) : (onFine n f s).tx = s.tx := by unfold onFine; (repeat' split) <;> rfl
@[simp] theorem onFine_cl (n : Nat) (f : Fine → Fine) (s : State) : (onFine n f s).cl = s.cl := by unfold onFine; (repeat' split) <;> rfl
@[simp] theorem onFine_sessions (n : Nat) (f : Fine → Fine) (s : State) : (onFine n f s).sessions = s.sessions := by unfold onFine; (repeat' split) <;> rfl
@[simp] theorem onFine_rods (n : Nat) (f : Fine → Fine) (s : State) : (onFine n f s).rods = s.rods := by unfold onFine; (repeat' split) <;> rfl
@[simp] theorem onFine_audio (n : Nat) (f : Fine → Fine) (s : State) : (onFine n f s).audio = s.audio := by unfold onFine; (repeat' split) <;> rfl
@[simp] theorem onFine_mem (n : Nat) (f : Fine → Fine) (s : State) : (onFine n f s).mem = s.mem := by unfold onFine; (repeat' split) <;> rfl
@[simp] theorem onFine_ana (n : Nat) (f : Fine → Fine) (s : State) : (onFine n f s).ana = s.ana := by unfold onFine; (repeat' split) <;> rfl
@[simp] theorem onFine_tw (n : Nat) (f : Fine → Fine) (s : State) : (onFine n f s).tw = s.tw := by unfold onFine; (repeat' split) <;> rfl
@[simp] theorem onFine_power (n : Nat) (f : Fine → Fine) (s : State) : (onFine n f s).power = s.power := by unfold onFine; (repeat' split) <;> rfl
@[simp] theorem onFine_supply (n : Nat) (f : Fine → Fine) (s : State) : (onFine n f s).supply = s.supply := by unfold onFine; (repeat' split) <;> rfl
@[simp] theorem onFine_prot (n : Nat) (f : Fine → Fine) (s : State) : (onFine n f s).prot = s.prot := by unfold onFine; (repeat' split) <;> rfl
@[simp] theorem onFine_age (n : Nat) (f : Fine → Fine) (s : State) : (onFine n f s).age = s.age := by unfold onFine; (repeat' split) <;> rfl
@[simp] theorem onFine_rattle (n : Nat) (f : Fine → Fine) (s : State) : (onFine n f s).rattle = s.rattle := by unfold onFine; (repeat' split) <;> rfl
@[simp] theorem onFine_free (n : Nat) (f : Fine → Fine) (s : State) : (onFine n f s).free = s.free := by unfold onFine; (repeat' split) <;> rfl

@[simp] theorem onChan_pending (c : Chan) (f : Channel → Channel) (s : State) : (onChan c f s).pending = s.pending := by cases c <;> rfl
@[simp] theorem onChan_timebase (c : Chan) (f : Channel → Channel) (s : State) : (onChan c f s).timebase = s.timebase := by cases c <;> rfl
@[simp] theorem onChan_par (c : Chan) (f : Channel → Channel) (s : State) : (onChan c f s).par = s.par := by cases c <;> rfl
@[simp] theorem onChan_inForce (c : Chan) (f : Channel → Channel) (s : State) : (onChan c f s).inForce = s.inForce := by cases c <;> rfl
@[simp] theorem onChan_waiting (c : Chan) (f : Channel → Channel) (s : State) : (onChan c f s).waiting = s.waiting := by cases c <;> rfl
@[simp] theorem onChan_running (c : Chan) (f : Channel → Channel) (s : State) : (onChan c f s).running = s.running := by cases c <;> rfl
@[simp] theorem onChan_events (c : Chan) (f : Channel → Channel) (s : State) : (onChan c f s).events = s.events := by cases c <;> rfl
@[simp] theorem onChan_front (c : Chan) (f : Channel → Channel) (s : State) : (onChan c f s).front = s.front := by cases c <;> rfl
@[simp] theorem onChan_seq (c : Chan) (f : Channel → Channel) (s : State) : (onChan c f s).seq = s.seq := by cases c <;> rfl
@[simp] theorem onChan_alarm (c : Chan) (f : Channel → Channel) (s : State) : (onChan c f s).alarm = s.alarm := by cases c <;> rfl
@[simp] theorem onChan_rck (c : Chan) (f : Channel → Channel) (s : State) : (onChan c f s).rck = s.rck := by cases c <;> rfl
@[simp] theorem onChan_clk (c : Chan) (f : Channel → Channel) (s : State) : (onChan c f s).clk = s.clk := by cases c <;> rfl
@[simp] theorem onChan_rf (c : Chan) (f : Channel → Channel) (s : State) : (onChan c f s).rf = s.rf := by cases c <;> rfl
@[simp] theorem onChan_links (c : Chan) (f : Channel → Channel) (s : State) : (onChan c f s).links = s.links := by cases c <;> rfl
@[simp] theorem onChan_carriers (c : Chan) (f : Channel → Channel) (s : State) : (onChan c f s).carriers = s.carriers := by cases c <;> rfl
@[simp] theorem onChan_tx (c : Chan) (f : Channel → Channel) (s : State) : (onChan c f s).tx = s.tx := by cases c <;> rfl
@[simp] theorem onChan_cl (c : Chan) (f : Channel → Channel) (s : State) : (onChan c f s).cl = s.cl := by cases c <;> rfl
@[simp] theorem onChan_sessions (c : Chan) (f : Channel → Channel) (s : State) : (onChan c f s).sessions = s.sessions := by cases c <;> rfl
@[simp] theorem onChan_rods (c : Chan) (f : Channel → Channel) (s : State) : (onChan c f s).rods = s.rods := by cases c <;> rfl
@[simp] theorem onChan_audio (c : Chan) (f : Channel → Channel) (s : State) : (onChan c f s).audio = s.audio := by cases c <;> rfl
@[simp] theorem onChan_mem (c : Chan) (f : Channel → Channel) (s : State) : (onChan c f s).mem = s.mem := by cases c <;> rfl
@[simp] theorem onChan_ana (c : Chan) (f : Channel → Channel) (s : State) : (onChan c f s).ana = s.ana := by cases c <;> rfl
@[simp] theorem onChan_inst (c : Chan) (f : Channel → Channel) (s : State) : (onChan c f s).inst = s.inst := by cases c <;> rfl
@[simp] theorem onChan_tw (c : Chan) (f : Channel → Channel) (s : State) : (onChan c f s).tw = s.tw := by cases c <;> rfl
@[simp] theorem onChan_power (c : Chan) (f : Channel → Channel) (s : State) : (onChan c f s).power = s.power := by cases c <;> rfl
@[simp] theorem onChan_supply (c : Chan) (f : Channel → Channel) (s : State) : (onChan c f s).supply = s.supply := by cases c <;> rfl
@[simp] theorem onChan_prot (c : Chan) (f : Channel → Channel) (s : State) : (onChan c f s).prot = s.prot := by cases c <;> rfl
@[simp] theorem onChan_age (c : Chan) (f : Channel → Channel) (s : State) : (onChan c f s).age = s.age := by cases c <;> rfl
@[simp] theorem onChan_rattle (c : Chan) (f : Channel → Channel) (s : State) : (onChan c f s).rattle = s.rattle := by cases c <;> rfl
@[simp] theorem onChan_free (c : Chan) (f : Channel → Channel) (s : State) : (onChan c f s).free = s.free := by cases c <;> rfl

@[simp] theorem bumpBy_pending (n k : Nat) (s : State) : (bumpBy n k s).pending = s.pending := by unfold bumpBy; (repeat' split) <;> rfl
@[simp] theorem bumpBy_timebase (n k : Nat) (s : State) : (bumpBy n k s).timebase = s.timebase := by unfold bumpBy; (repeat' split) <;> rfl
@[simp] theorem bumpBy_inForce (n k : Nat) (s : State) : (bumpBy n k s).inForce = s.inForce := by unfold bumpBy; (repeat' split) <;> rfl
@[simp] theorem bumpBy_op (n k : Nat) (s : State) : (bumpBy n k s).op = s.op := by unfold bumpBy; (repeat' split) <;> rfl
@[simp] theorem bumpBy_cu (n k : Nat) (s : State) : (bumpBy n k s).cu = s.cu := by unfold bumpBy; (repeat' split) <;> rfl
@[simp] theorem bumpBy_waiting (n k : Nat) (s : State) : (bumpBy n k s).waiting = s.waiting := by unfold bumpBy; (repeat' split) <;> rfl
@[simp] theorem bumpBy_running (n k : Nat) (s : State) : (bumpBy n k s).running = s.running := by unfold bumpBy; (repeat' split) <;> rfl
@[simp] theorem bumpBy_events (n k : Nat) (s : State) : (bumpBy n k s).events = s.events := by unfold bumpBy; (repeat' split) <;> rfl
@[simp] theorem bumpBy_front (n k : Nat) (s : State) : (bumpBy n k s).front = s.front := by unfold bumpBy; (repeat' split) <;> rfl
@[simp] theorem bumpBy_seq (n k : Nat) (s : State) : (bumpBy n k s).seq = s.seq := by unfold bumpBy; (repeat' split) <;> rfl
@[simp] theorem bumpBy_alarm (n k : Nat) (s : State) : (bumpBy n k s).alarm = s.alarm := by unfold bumpBy; (repeat' split) <;> rfl
@[simp] theorem bumpBy_rck (n k : Nat) (s : State) : (bumpBy n k s).rck = s.rck := by unfold bumpBy; (repeat' split) <;> rfl
@[simp] theorem bumpBy_clk (n k : Nat) (s : State) : (bumpBy n k s).clk = s.clk := by unfold bumpBy; (repeat' split) <;> rfl
@[simp] theorem bumpBy_rf (n k : Nat) (s : State) : (bumpBy n k s).rf = s.rf := by unfold bumpBy; (repeat' split) <;> rfl
@[simp] theorem bumpBy_links (n k : Nat) (s : State) : (bumpBy n k s).links = s.links := by unfold bumpBy; (repeat' split) <;> rfl
@[simp] theorem bumpBy_carriers (n k : Nat) (s : State) : (bumpBy n k s).carriers = s.carriers := by unfold bumpBy; (repeat' split) <;> rfl
@[simp] theorem bumpBy_tx (n k : Nat) (s : State) : (bumpBy n k s).tx = s.tx := by unfold bumpBy; (repeat' split) <;> rfl
@[simp] theorem bumpBy_cl (n k : Nat) (s : State) : (bumpBy n k s).cl = s.cl := by unfold bumpBy; (repeat' split) <;> rfl
@[simp] theorem bumpBy_sessions (n k : Nat) (s : State) : (bumpBy n k s).sessions = s.sessions := by unfold bumpBy; (repeat' split) <;> rfl
@[simp] theorem bumpBy_rods (n k : Nat) (s : State) : (bumpBy n k s).rods = s.rods := by unfold bumpBy; (repeat' split) <;> rfl
@[simp] theorem bumpBy_audio (n k : Nat) (s : State) : (bumpBy n k s).audio = s.audio := by unfold bumpBy; (repeat' split) <;> rfl
@[simp] theorem bumpBy_mem (n k : Nat) (s : State) : (bumpBy n k s).mem = s.mem := by unfold bumpBy; (repeat' split) <;> rfl
@[simp] theorem bumpBy_ana (n k : Nat) (s : State) : (bumpBy n k s).ana = s.ana := by unfold bumpBy; (repeat' split) <;> rfl
@[simp] theorem bumpBy_inst (n k : Nat) (s : State) : (bumpBy n k s).inst = s.inst := by unfold bumpBy; (repeat' split) <;> rfl
@[simp] theorem bumpBy_tw (n k : Nat) (s : State) : (bumpBy n k s).tw = s.tw := by unfold bumpBy; (repeat' split) <;> rfl
@[simp] theorem bumpBy_power (n k : Nat) (s : State) : (bumpBy n k s).power = s.power := by unfold bumpBy; (repeat' split) <;> rfl
@[simp] theorem bumpBy_supply (n k : Nat) (s : State) : (bumpBy n k s).supply = s.supply := by unfold bumpBy; (repeat' split) <;> rfl
@[simp] theorem bumpBy_prot (n k : Nat) (s : State) : (bumpBy n k s).prot = s.prot := by unfold bumpBy; (repeat' split) <;> rfl
@[simp] theorem bumpBy_age (n k : Nat) (s : State) : (bumpBy n k s).age = s.age := by unfold bumpBy; (repeat' split) <;> rfl
@[simp] theorem bumpBy_rattle (n k : Nat) (s : State) : (bumpBy n k s).rattle = s.rattle := by unfold bumpBy; (repeat' split) <;> rfl
@[simp] theorem bumpBy_free (n k : Nat) (s : State) : (bumpBy n k s).free = s.free := by unfold bumpBy; (repeat' split) <;> rfl

@[simp] theorem bump_pending (k : Nat) (s : State) : (bump k s).pending = s.pending := by unfold bump bumpBy; split <;> rfl
@[simp] theorem bump_timebase (k : Nat) (s : State) : (bump k s).timebase = s.timebase := by unfold bump bumpBy; split <;> rfl
@[simp] theorem bump_inForce (k : Nat) (s : State) : (bump k s).inForce = s.inForce := by unfold bump bumpBy; split <;> rfl
@[simp] theorem bump_op (k : Nat) (s : State) : (bump k s).op = s.op := by unfold bump bumpBy; split <;> rfl
@[simp] theorem bump_cu (k : Nat) (s : State) : (bump k s).cu = s.cu := by unfold bump bumpBy; split <;> rfl
@[simp] theorem bump_waiting (k : Nat) (s : State) : (bump k s).waiting = s.waiting := by unfold bump bumpBy; split <;> rfl
@[simp] theorem bump_running (k : Nat) (s : State) : (bump k s).running = s.running := by unfold bump bumpBy; split <;> rfl
@[simp] theorem bump_events (k : Nat) (s : State) : (bump k s).events = s.events := by unfold bump bumpBy; split <;> rfl
@[simp] theorem bump_front (k : Nat) (s : State) : (bump k s).front = s.front := by unfold bump bumpBy; split <;> rfl
@[simp] theorem bump_seq (k : Nat) (s : State) : (bump k s).seq = s.seq := by unfold bump bumpBy; split <;> rfl
@[simp] theorem bump_alarm (k : Nat) (s : State) : (bump k s).alarm = s.alarm := by unfold bump bumpBy; split <;> rfl
@[simp] theorem bump_rck (k : Nat) (s : State) : (bump k s).rck = s.rck := by unfold bump bumpBy; split <;> rfl
@[simp] theorem bump_clk (k : Nat) (s : State) : (bump k s).clk = s.clk := by unfold bump bumpBy; split <;> rfl
@[simp] theorem bump_rf (k : Nat) (s : State) : (bump k s).rf = s.rf := by unfold bump bumpBy; split <;> rfl
@[simp] theorem bump_links (k : Nat) (s : State) : (bump k s).links = s.links := by unfold bump bumpBy; split <;> rfl
@[simp] theorem bump_carriers (k : Nat) (s : State) : (bump k s).carriers = s.carriers := by unfold bump bumpBy; split <;> rfl
@[simp] theorem bump_tx (k : Nat) (s : State) : (bump k s).tx = s.tx := by unfold bump bumpBy; split <;> rfl
@[simp] theorem bump_cl (k : Nat) (s : State) : (bump k s).cl = s.cl := by unfold bump bumpBy; split <;> rfl
@[simp] theorem bump_sessions (k : Nat) (s : State) : (bump k s).sessions = s.sessions := by unfold bump bumpBy; split <;> rfl
@[simp] theorem bump_rods (k : Nat) (s : State) : (bump k s).rods = s.rods := by unfold bump bumpBy; split <;> rfl
@[simp] theorem bump_audio (k : Nat) (s : State) : (bump k s).audio = s.audio := by unfold bump bumpBy; split <;> rfl
@[simp] theorem bump_mem (k : Nat) (s : State) : (bump k s).mem = s.mem := by unfold bump bumpBy; split <;> rfl
@[simp] theorem bump_ana (k : Nat) (s : State) : (bump k s).ana = s.ana := by unfold bump bumpBy; split <;> rfl
@[simp] theorem bump_inst (k : Nat) (s : State) : (bump k s).inst = s.inst := by unfold bump bumpBy; split <;> rfl
@[simp] theorem bump_tw (k : Nat) (s : State) : (bump k s).tw = s.tw := by unfold bump bumpBy; split <;> rfl
@[simp] theorem bump_power (k : Nat) (s : State) : (bump k s).power = s.power := by unfold bump bumpBy; split <;> rfl
@[simp] theorem bump_supply (k : Nat) (s : State) : (bump k s).supply = s.supply := by unfold bump bumpBy; split <;> rfl
@[simp] theorem bump_prot (k : Nat) (s : State) : (bump k s).prot = s.prot := by unfold bump bumpBy; split <;> rfl
@[simp] theorem bump_age (k : Nat) (s : State) : (bump k s).age = s.age := by unfold bump bumpBy; split <;> rfl
@[simp] theorem bump_rattle (k : Nat) (s : State) : (bump k s).rattle = s.rattle := by unfold bump bumpBy; split <;> rfl
@[simp] theorem bump_free (k : Nat) (s : State) : (bump k s).free = s.free := by unfold bump bumpBy; split <;> rfl

@[simp] theorem started_pending (h : Hdr) (s : State) : (started h s).pending = s.pending := by simp [started]
@[simp] theorem started_timebase (h : Hdr) (s : State) : (started h s).timebase = s.timebase := by simp [started]
@[simp] theorem started_inForce (h : Hdr) (s : State) : (started h s).inForce = s.inForce := by simp [started]
@[simp] theorem started_waiting (h : Hdr) (s : State) : (started h s).waiting = s.waiting := by simp [started]
@[simp] theorem started_running (h : Hdr) (s : State) : (started h s).running = s.running := by simp [started]
@[simp] theorem started_events (h : Hdr) (s : State) : (started h s).events = s.events := by simp [started]
@[simp] theorem started_front (h : Hdr) (s : State) : (started h s).front = s.front := by simp [started]
@[simp] theorem started_seq (h : Hdr) (s : State) : (started h s).seq = s.seq := by simp [started]
@[simp] theorem started_alarm (h : Hdr) (s : State) : (started h s).alarm = s.alarm := by simp [started]
@[simp] theorem started_rck (h : Hdr) (s : State) : (started h s).rck = s.rck := by simp [started]
@[simp] theorem started_clk (h : Hdr) (s : State) : (started h s).clk = s.clk := by simp [started]
@[simp] theorem started_rf (h : Hdr) (s : State) : (started h s).rf = s.rf := by simp [started]
@[simp] theorem started_links (h : Hdr) (s : State) : (started h s).links = s.links := by simp [started]
@[simp] theorem started_carriers (h : Hdr) (s : State) : (started h s).carriers = s.carriers := by simp [started]
@[simp] theorem started_tx (h : Hdr) (s : State) : (started h s).tx = s.tx := by simp [started]
@[simp] theorem started_cl (h : Hdr) (s : State) : (started h s).cl = s.cl := by simp [started]
@[simp] theorem started_sessions (h : Hdr) (s : State) : (started h s).sessions = s.sessions := by simp [started]
@[simp] theorem started_rods (h : Hdr) (s : State) : (started h s).rods = s.rods := by simp [started]
@[simp] theorem started_audio (h : Hdr) (s : State) : (started h s).audio = s.audio := by simp [started]
@[simp] theorem started_mem (h : Hdr) (s : State) : (started h s).mem = s.mem := by simp [started]
@[simp] theorem started_ana (h : Hdr) (s : State) : (started h s).ana = s.ana := by simp [started]
@[simp] theorem started_inst (h : Hdr) (s : State) : (started h s).inst = s.inst := by simp [started]
@[simp] theorem started_tw (h : Hdr) (s : State) : (started h s).tw = s.tw := by simp [started]
@[simp] theorem started_power (h : Hdr) (s : State) : (started h s).power = s.power := by simp [started]
@[simp] theorem started_supply (h : Hdr) (s : State) : (started h s).supply = s.supply := by simp [started]
@[simp] theorem started_prot (h : Hdr) (s : State) : (started h s).prot = s.prot := by simp [started]
@[simp] theorem started_age (h : Hdr) (s : State) : (started h s).age = s.age := by simp [started]
@[simp] theorem started_rattle (h : Hdr) (s : State) : (started h s).rattle = s.rattle := by simp [started]
@[simp] theorem started_free (h : Hdr) (s : State) : (started h s).free = s.free := by simp [started]

@[simp] theorem sendReply_pending (h : Hdr) (op : Nat) (b : Bool) (st : Status) (pl : List Byte) (f : Bool) (s : State) : (sendReply h op b st pl f s).pending = s.pending := by simp [sendReply]
@[simp] theorem sendReply_timebase (h : Hdr) (op : Nat) (b : Bool) (st : Status) (pl : List Byte) (f : Bool) (s : State) : (sendReply h op b st pl f s).timebase = s.timebase := by simp [sendReply]
@[simp] theorem sendReply_par (h : Hdr) (op : Nat) (b : Bool) (st : Status) (pl : List Byte) (f : Bool) (s : State) : (sendReply h op b st pl f s).par = s.par := by simp [sendReply]
@[simp] theorem sendReply_inForce (h : Hdr) (op : Nat) (b : Bool) (st : Status) (pl : List Byte) (f : Bool) (s : State) : (sendReply h op b st pl f s).inForce = s.inForce := by simp [sendReply]
@[simp] theorem sendReply_waiting (h : Hdr) (op : Nat) (b : Bool) (st : Status) (pl : List Byte) (f : Bool) (s : State) : (sendReply h op b st pl f s).waiting = s.waiting := by simp [sendReply]
@[simp] theorem sendReply_running (h : Hdr) (op : Nat) (b : Bool) (st : Status) (pl : List Byte) (f : Bool) (s : State) : (sendReply h op b st pl f s).running = s.running := by simp [sendReply]
@[simp] theorem sendReply_events (h : Hdr) (op : Nat) (b : Bool) (st : Status) (pl : List Byte) (f : Bool) (s : State) : (sendReply h op b st pl f s).events = s.events := by simp [sendReply]
@[simp] theorem sendReply_front (h : Hdr) (op : Nat) (b : Bool) (st : Status) (pl : List Byte) (f : Bool) (s : State) : (sendReply h op b st pl f s).front = s.front := by simp [sendReply]
@[simp] theorem sendReply_seq (h : Hdr) (op : Nat) (b : Bool) (st : Status) (pl : List Byte) (f : Bool) (s : State) : (sendReply h op b st pl f s).seq = s.seq := by simp [sendReply]
@[simp] theorem sendReply_alarm (h : Hdr) (op : Nat) (b : Bool) (st : Status) (pl : List Byte) (f : Bool) (s : State) : (sendReply h op b st pl f s).alarm = s.alarm := by simp [sendReply]
@[simp] theorem sendReply_rck (h : Hdr) (op : Nat) (b : Bool) (st : Status) (pl : List Byte) (f : Bool) (s : State) : (sendReply h op b st pl f s).rck = s.rck := by simp [sendReply]
@[simp] theorem sendReply_clk (h : Hdr) (op : Nat) (b : Bool) (st : Status) (pl : List Byte) (f : Bool) (s : State) : (sendReply h op b st pl f s).clk = s.clk := by simp [sendReply]
@[simp] theorem sendReply_rf (h : Hdr) (op : Nat) (b : Bool) (st : Status) (pl : List Byte) (f : Bool) (s : State) : (sendReply h op b st pl f s).rf = s.rf := by simp [sendReply]
@[simp] theorem sendReply_links (h : Hdr) (op : Nat) (b : Bool) (st : Status) (pl : List Byte) (f : Bool) (s : State) : (sendReply h op b st pl f s).links = s.links := by simp [sendReply]
@[simp] theorem sendReply_carriers (h : Hdr) (op : Nat) (b : Bool) (st : Status) (pl : List Byte) (f : Bool) (s : State) : (sendReply h op b st pl f s).carriers = s.carriers := by simp [sendReply]
@[simp] theorem sendReply_tx (h : Hdr) (op : Nat) (b : Bool) (st : Status) (pl : List Byte) (f : Bool) (s : State) : (sendReply h op b st pl f s).tx = s.tx := by simp [sendReply]
@[simp] theorem sendReply_cl (h : Hdr) (op : Nat) (b : Bool) (st : Status) (pl : List Byte) (f : Bool) (s : State) : (sendReply h op b st pl f s).cl = s.cl := by simp [sendReply]
@[simp] theorem sendReply_sessions (h : Hdr) (op : Nat) (b : Bool) (st : Status) (pl : List Byte) (f : Bool) (s : State) : (sendReply h op b st pl f s).sessions = s.sessions := by simp [sendReply]
@[simp] theorem sendReply_rods (h : Hdr) (op : Nat) (b : Bool) (st : Status) (pl : List Byte) (f : Bool) (s : State) : (sendReply h op b st pl f s).rods = s.rods := by simp [sendReply]
@[simp] theorem sendReply_audio (h : Hdr) (op : Nat) (b : Bool) (st : Status) (pl : List Byte) (f : Bool) (s : State) : (sendReply h op b st pl f s).audio = s.audio := by simp [sendReply]
@[simp] theorem sendReply_mem (h : Hdr) (op : Nat) (b : Bool) (st : Status) (pl : List Byte) (f : Bool) (s : State) : (sendReply h op b st pl f s).mem = s.mem := by simp [sendReply]
@[simp] theorem sendReply_ana (h : Hdr) (op : Nat) (b : Bool) (st : Status) (pl : List Byte) (f : Bool) (s : State) : (sendReply h op b st pl f s).ana = s.ana := by simp [sendReply]
@[simp] theorem sendReply_inst (h : Hdr) (op : Nat) (b : Bool) (st : Status) (pl : List Byte) (f : Bool) (s : State) : (sendReply h op b st pl f s).inst = s.inst := by simp [sendReply]
@[simp] theorem sendReply_tw (h : Hdr) (op : Nat) (b : Bool) (st : Status) (pl : List Byte) (f : Bool) (s : State) : (sendReply h op b st pl f s).tw = s.tw := by simp [sendReply]
@[simp] theorem sendReply_power (h : Hdr) (op : Nat) (b : Bool) (st : Status) (pl : List Byte) (f : Bool) (s : State) : (sendReply h op b st pl f s).power = s.power := by simp [sendReply]
@[simp] theorem sendReply_supply (h : Hdr) (op : Nat) (b : Bool) (st : Status) (pl : List Byte) (f : Bool) (s : State) : (sendReply h op b st pl f s).supply = s.supply := by simp [sendReply]
@[simp] theorem sendReply_prot (h : Hdr) (op : Nat) (b : Bool) (st : Status) (pl : List Byte) (f : Bool) (s : State) : (sendReply h op b st pl f s).prot = s.prot := by simp [sendReply]
@[simp] theorem sendReply_age (h : Hdr) (op : Nat) (b : Bool) (st : Status) (pl : List Byte) (f : Bool) (s : State) : (sendReply h op b st pl f s).age = s.age := by simp [sendReply]
@[simp] theorem sendReply_rattle (h : Hdr) (op : Nat) (b : Bool) (st : Status) (pl : List Byte) (f : Bool) (s : State) : (sendReply h op b st pl f s).rattle = s.rattle := by simp [sendReply]
@[simp] theorem sendReply_free (h : Hdr) (op : Nat) (b : Bool) (st : Status) (pl : List Byte) (f : Bool) (s : State) : (sendReply h op b st pl f s).free = s.free := by simp [sendReply]

@[simp] theorem replied_pending (h : Hdr) (op : Nat) (pl : List Byte) (s : State) : (replied h op pl s).pending = s.pending := by simp [replied]
@[simp] theorem replied_timebase (h : Hdr) (op : Nat) (pl : List Byte) (s : State) : (replied h op pl s).timebase = s.timebase := by simp [replied]
@[simp] theorem replied_par (h : Hdr) (op : Nat) (pl : List Byte) (s : State) : (replied h op pl s).par = s.par := by simp [replied]
@[simp] theorem replied_inForce (h : Hdr) (op : Nat) (pl : List Byte) (s : State) : (replied h op pl s).inForce = s.inForce := by simp [replied]
@[simp] theorem replied_waiting (h : Hdr) (op : Nat) (pl : List Byte) (s : State) : (replied h op pl s).waiting = s.waiting := by simp [replied]
@[simp] theorem replied_running (h : Hdr) (op : Nat) (pl : List Byte) (s : State) : (replied h op pl s).running = s.running := by simp [replied]
@[simp] theorem replied_events (h : Hdr) (op : Nat) (pl : List Byte) (s : State) : (replied h op pl s).events = s.events := by simp [replied]
@[simp] theorem replied_front (h : Hdr) (op : Nat) (pl : List Byte) (s : State) : (replied h op pl s).front = s.front := by simp [replied]
@[simp] theorem replied_seq (h : Hdr) (op : Nat) (pl : List Byte) (s : State) : (replied h op pl s).seq = s.seq := by simp [replied]
@[simp] theorem replied_alarm (h : Hdr) (op : Nat) (pl : List Byte) (s : State) : (replied h op pl s).alarm = s.alarm := by simp [replied]
@[simp] theorem replied_rck (h : Hdr) (op : Nat) (pl : List Byte) (s : State) : (replied h op pl s).rck = s.rck := by simp [replied]
@[simp] theorem replied_clk (h : Hdr) (op : Nat) (pl : List Byte) (s : State) : (replied h op pl s).clk = s.clk := by simp [replied]
@[simp] theorem replied_rf (h : Hdr) (op : Nat) (pl : List Byte) (s : State) : (replied h op pl s).rf = s.rf := by simp [replied]
@[simp] theorem replied_links (h : Hdr) (op : Nat) (pl : List Byte) (s : State) : (replied h op pl s).links = s.links := by simp [replied]
@[simp] theorem replied_carriers (h : Hdr) (op : Nat) (pl : List Byte) (s : State) : (replied h op pl s).carriers = s.carriers := by simp [replied]
@[simp] theorem replied_tx (h : Hdr) (op : Nat) (pl : List Byte) (s : State) : (replied h op pl s).tx = s.tx := by simp [replied]
@[simp] theorem replied_cl (h : Hdr) (op : Nat) (pl : List Byte) (s : State) : (replied h op pl s).cl = s.cl := by simp [replied]
@[simp] theorem replied_sessions (h : Hdr) (op : Nat) (pl : List Byte) (s : State) : (replied h op pl s).sessions = s.sessions := by simp [replied]
@[simp] theorem replied_rods (h : Hdr) (op : Nat) (pl : List Byte) (s : State) : (replied h op pl s).rods = s.rods := by simp [replied]
@[simp] theorem replied_audio (h : Hdr) (op : Nat) (pl : List Byte) (s : State) : (replied h op pl s).audio = s.audio := by simp [replied]
@[simp] theorem replied_mem (h : Hdr) (op : Nat) (pl : List Byte) (s : State) : (replied h op pl s).mem = s.mem := by simp [replied]
@[simp] theorem replied_ana (h : Hdr) (op : Nat) (pl : List Byte) (s : State) : (replied h op pl s).ana = s.ana := by simp [replied]
@[simp] theorem replied_inst (h : Hdr) (op : Nat) (pl : List Byte) (s : State) : (replied h op pl s).inst = s.inst := by simp [replied]
@[simp] theorem replied_tw (h : Hdr) (op : Nat) (pl : List Byte) (s : State) : (replied h op pl s).tw = s.tw := by simp [replied]
@[simp] theorem replied_power (h : Hdr) (op : Nat) (pl : List Byte) (s : State) : (replied h op pl s).power = s.power := by simp [replied]
@[simp] theorem replied_supply (h : Hdr) (op : Nat) (pl : List Byte) (s : State) : (replied h op pl s).supply = s.supply := by simp [replied]
@[simp] theorem replied_prot (h : Hdr) (op : Nat) (pl : List Byte) (s : State) : (replied h op pl s).prot = s.prot := by simp [replied]
@[simp] theorem replied_age (h : Hdr) (op : Nat) (pl : List Byte) (s : State) : (replied h op pl s).age = s.age := by simp [replied]
@[simp] theorem replied_rattle (h : Hdr) (op : Nat) (pl : List Byte) (s : State) : (replied h op pl s).rattle = s.rattle := by simp [replied]
@[simp] theorem replied_free (h : Hdr) (op : Nat) (pl : List Byte) (s : State) : (replied h op pl s).free = s.free := by simp [replied]

@[simp] theorem turnedAway_pending (h : Hdr) (op : Nat) (st : Status) (s : State) : (turnedAway h op st s).pending = s.pending := by simp [turnedAway]
@[simp] theorem turnedAway_timebase (h : Hdr) (op : Nat) (st : Status) (s : State) : (turnedAway h op st s).timebase = s.timebase := by simp [turnedAway]
@[simp] theorem turnedAway_par (h : Hdr) (op : Nat) (st : Status) (s : State) : (turnedAway h op st s).par = s.par := by simp [turnedAway]
@[simp] theorem turnedAway_inForce (h : Hdr) (op : Nat) (st : Status) (s : State) : (turnedAway h op st s).inForce = s.inForce := by simp [turnedAway]
@[simp] theorem turnedAway_waiting (h : Hdr) (op : Nat) (st : Status) (s : State) : (turnedAway h op st s).waiting = s.waiting := by simp [turnedAway]
@[simp] theorem turnedAway_running (h : Hdr) (op : Nat) (st : Status) (s : State) : (turnedAway h op st s).running = s.running := by simp [turnedAway]
@[simp] theorem turnedAway_events (h : Hdr) (op : Nat) (st : Status) (s : State) : (turnedAway h op st s).events = s.events := by simp [turnedAway]
@[simp] theorem turnedAway_front (h : Hdr) (op : Nat) (st : Status) (s : State) : (turnedAway h op st s).front = s.front := by simp [turnedAway]
@[simp] theorem turnedAway_seq (h : Hdr) (op : Nat) (st : Status) (s : State) : (turnedAway h op st s).seq = s.seq := by simp [turnedAway]
@[simp] theorem turnedAway_alarm (h : Hdr) (op : Nat) (st : Status) (s : State) : (turnedAway h op st s).alarm = s.alarm := by simp [turnedAway]
@[simp] theorem turnedAway_rck (h : Hdr) (op : Nat) (st : Status) (s : State) : (turnedAway h op st s).rck = s.rck := by simp [turnedAway]
@[simp] theorem turnedAway_clk (h : Hdr) (op : Nat) (st : Status) (s : State) : (turnedAway h op st s).clk = s.clk := by simp [turnedAway]
@[simp] theorem turnedAway_rf (h : Hdr) (op : Nat) (st : Status) (s : State) : (turnedAway h op st s).rf = s.rf := by simp [turnedAway]
@[simp] theorem turnedAway_links (h : Hdr) (op : Nat) (st : Status) (s : State) : (turnedAway h op st s).links = s.links := by simp [turnedAway]
@[simp] theorem turnedAway_carriers (h : Hdr) (op : Nat) (st : Status) (s : State) : (turnedAway h op st s).carriers = s.carriers := by simp [turnedAway]
@[simp] theorem turnedAway_tx (h : Hdr) (op : Nat) (st : Status) (s : State) : (turnedAway h op st s).tx = s.tx := by simp [turnedAway]
@[simp] theorem turnedAway_cl (h : Hdr) (op : Nat) (st : Status) (s : State) : (turnedAway h op st s).cl = s.cl := by simp [turnedAway]
@[simp] theorem turnedAway_sessions (h : Hdr) (op : Nat) (st : Status) (s : State) : (turnedAway h op st s).sessions = s.sessions := by simp [turnedAway]
@[simp] theorem turnedAway_rods (h : Hdr) (op : Nat) (st : Status) (s : State) : (turnedAway h op st s).rods = s.rods := by simp [turnedAway]
@[simp] theorem turnedAway_audio (h : Hdr) (op : Nat) (st : Status) (s : State) : (turnedAway h op st s).audio = s.audio := by simp [turnedAway]
@[simp] theorem turnedAway_mem (h : Hdr) (op : Nat) (st : Status) (s : State) : (turnedAway h op st s).mem = s.mem := by simp [turnedAway]
@[simp] theorem turnedAway_ana (h : Hdr) (op : Nat) (st : Status) (s : State) : (turnedAway h op st s).ana = s.ana := by simp [turnedAway]
@[simp] theorem turnedAway_inst (h : Hdr) (op : Nat) (st : Status) (s : State) : (turnedAway h op st s).inst = s.inst := by simp [turnedAway]
@[simp] theorem turnedAway_tw (h : Hdr) (op : Nat) (st : Status) (s : State) : (turnedAway h op st s).tw = s.tw := by simp [turnedAway]
@[simp] theorem turnedAway_power (h : Hdr) (op : Nat) (st : Status) (s : State) : (turnedAway h op st s).power = s.power := by simp [turnedAway]
@[simp] theorem turnedAway_supply (h : Hdr) (op : Nat) (st : Status) (s : State) : (turnedAway h op st s).supply = s.supply := by simp [turnedAway]
@[simp] theorem turnedAway_prot (h : Hdr) (op : Nat) (st : Status) (s : State) : (turnedAway h op st s).prot = s.prot := by simp [turnedAway]
@[simp] theorem turnedAway_age (h : Hdr) (op : Nat) (st : Status) (s : State) : (turnedAway h op st s).age = s.age := by simp [turnedAway]
@[simp] theorem turnedAway_rattle (h : Hdr) (op : Nat) (st : Status) (s : State) : (turnedAway h op st s).rattle = s.rattle := by simp [turnedAway]
@[simp] theorem turnedAway_free (h : Hdr) (op : Nat) (st : Status) (s : State) : (turnedAway h op st s).free = s.free := by simp [turnedAway]

@[simp] theorem acceptedBy_pending (h : Hdr) (op : Nat) (s : State) : (acceptedBy h op s).pending = s.pending := by simp [acceptedBy]
@[simp] theorem acceptedBy_timebase (h : Hdr) (op : Nat) (s : State) : (acceptedBy h op s).timebase = s.timebase := by simp [acceptedBy]
@[simp] theorem acceptedBy_par (h : Hdr) (op : Nat) (s : State) : (acceptedBy h op s).par = s.par := by simp [acceptedBy]
@[simp] theorem acceptedBy_inForce (h : Hdr) (op : Nat) (s : State) : (acceptedBy h op s).inForce = s.inForce := by simp [acceptedBy]
@[simp] theorem acceptedBy_waiting (h : Hdr) (op : Nat) (s : State) : (acceptedBy h op s).waiting = s.waiting := by simp [acceptedBy]
@[simp] theorem acceptedBy_running (h : Hdr) (op : Nat) (s : State) : (acceptedBy h op s).running = s.running := by simp [acceptedBy]
@[simp] theorem acceptedBy_events (h : Hdr) (op : Nat) (s : State) : (acceptedBy h op s).events = s.events := by simp [acceptedBy]
@[simp] theorem acceptedBy_front (h : Hdr) (op : Nat) (s : State) : (acceptedBy h op s).front = s.front := by simp [acceptedBy]
@[simp] theorem acceptedBy_seq (h : Hdr) (op : Nat) (s : State) : (acceptedBy h op s).seq = s.seq := by simp [acceptedBy]
@[simp] theorem acceptedBy_alarm (h : Hdr) (op : Nat) (s : State) : (acceptedBy h op s).alarm = s.alarm := by simp [acceptedBy]
@[simp] theorem acceptedBy_rck (h : Hdr) (op : Nat) (s : State) : (acceptedBy h op s).rck = s.rck := by simp [acceptedBy]
@[simp] theorem acceptedBy_clk (h : Hdr) (op : Nat) (s : State) : (acceptedBy h op s).clk = s.clk := by simp [acceptedBy]
@[simp] theorem acceptedBy_rf (h : Hdr) (op : Nat) (s : State) : (acceptedBy h op s).rf = s.rf := by simp [acceptedBy]
@[simp] theorem acceptedBy_links (h : Hdr) (op : Nat) (s : State) : (acceptedBy h op s).links = s.links := by simp [acceptedBy]
@[simp] theorem acceptedBy_carriers (h : Hdr) (op : Nat) (s : State) : (acceptedBy h op s).carriers = s.carriers := by simp [acceptedBy]
@[simp] theorem acceptedBy_tx (h : Hdr) (op : Nat) (s : State) : (acceptedBy h op s).tx = s.tx := by simp [acceptedBy]
@[simp] theorem acceptedBy_cl (h : Hdr) (op : Nat) (s : State) : (acceptedBy h op s).cl = s.cl := by simp [acceptedBy]
@[simp] theorem acceptedBy_sessions (h : Hdr) (op : Nat) (s : State) : (acceptedBy h op s).sessions = s.sessions := by simp [acceptedBy]
@[simp] theorem acceptedBy_rods (h : Hdr) (op : Nat) (s : State) : (acceptedBy h op s).rods = s.rods := by simp [acceptedBy]
@[simp] theorem acceptedBy_audio (h : Hdr) (op : Nat) (s : State) : (acceptedBy h op s).audio = s.audio := by simp [acceptedBy]
@[simp] theorem acceptedBy_mem (h : Hdr) (op : Nat) (s : State) : (acceptedBy h op s).mem = s.mem := by simp [acceptedBy]
@[simp] theorem acceptedBy_ana (h : Hdr) (op : Nat) (s : State) : (acceptedBy h op s).ana = s.ana := by simp [acceptedBy]
@[simp] theorem acceptedBy_inst (h : Hdr) (op : Nat) (s : State) : (acceptedBy h op s).inst = s.inst := by simp [acceptedBy]
@[simp] theorem acceptedBy_tw (h : Hdr) (op : Nat) (s : State) : (acceptedBy h op s).tw = s.tw := by simp [acceptedBy]
@[simp] theorem acceptedBy_power (h : Hdr) (op : Nat) (s : State) : (acceptedBy h op s).power = s.power := by simp [acceptedBy]
@[simp] theorem acceptedBy_supply (h : Hdr) (op : Nat) (s : State) : (acceptedBy h op s).supply = s.supply := by simp [acceptedBy]
@[simp] theorem acceptedBy_prot (h : Hdr) (op : Nat) (s : State) : (acceptedBy h op s).prot = s.prot := by simp [acceptedBy]
@[simp] theorem acceptedBy_age (h : Hdr) (op : Nat) (s : State) : (acceptedBy h op s).age = s.age := by simp [acceptedBy]
@[simp] theorem acceptedBy_rattle (h : Hdr) (op : Nat) (s : State) : (acceptedBy h op s).rattle = s.rattle := by simp [acceptedBy]
@[simp] theorem acceptedBy_free (h : Hdr) (op : Nat) (s : State) : (acceptedBy h op s).free = s.free := by simp [acceptedBy]

@[simp] theorem completed_pending (h : Hdr) (op : Nat) (pl : List Byte) (s : State) : (completed h op pl s).pending = s.pending := by unfold completed; split <;> simp
@[simp] theorem completed_timebase (h : Hdr) (op : Nat) (pl : List Byte) (s : State) : (completed h op pl s).timebase = s.timebase := by unfold completed; split <;> simp
@[simp] theorem completed_par (h : Hdr) (op : Nat) (pl : List Byte) (s : State) : (completed h op pl s).par = s.par := by unfold completed; split <;> simp
@[simp] theorem completed_inForce (h : Hdr) (op : Nat) (pl : List Byte) (s : State) : (completed h op pl s).inForce = s.inForce := by unfold completed; split <;> simp
@[simp] theorem completed_waiting (h : Hdr) (op : Nat) (pl : List Byte) (s : State) : (completed h op pl s).waiting = s.waiting := by unfold completed; split <;> simp
@[simp] theorem completed_running (h : Hdr) (op : Nat) (pl : List Byte) (s : State) : (completed h op pl s).running = s.running := by unfold completed; split <;> simp
@[simp] theorem completed_events (h : Hdr) (op : Nat) (pl : List Byte) (s : State) : (completed h op pl s).events = s.events := by unfold completed; split <;> simp
@[simp] theorem completed_front (h : Hdr) (op : Nat) (pl : List Byte) (s : State) : (completed h op pl s).front = s.front := by unfold completed; split <;> simp
@[simp] theorem completed_seq (h : Hdr) (op : Nat) (pl : List Byte) (s : State) : (completed h op pl s).seq = s.seq := by unfold completed; split <;> simp
@[simp] theorem completed_alarm (h : Hdr) (op : Nat) (pl : List Byte) (s : State) : (completed h op pl s).alarm = s.alarm := by unfold completed; split <;> simp
@[simp] theorem completed_rck (h : Hdr) (op : Nat) (pl : List Byte) (s : State) : (completed h op pl s).rck = s.rck := by unfold completed; split <;> simp
@[simp] theorem completed_clk (h : Hdr) (op : Nat) (pl : List Byte) (s : State) : (completed h op pl s).clk = s.clk := by unfold completed; split <;> simp
@[simp] theorem completed_rf (h : Hdr) (op : Nat) (pl : List Byte) (s : State) : (completed h op pl s).rf = s.rf := by unfold completed; split <;> simp
@[simp] theorem completed_links (h : Hdr) (op : Nat) (pl : List Byte) (s : State) : (completed h op pl s).links = s.links := by unfold completed; split <;> simp
@[simp] theorem completed_carriers (h : Hdr) (op : Nat) (pl : List Byte) (s : State) : (completed h op pl s).carriers = s.carriers := by unfold completed; split <;> simp
@[simp] theorem completed_tx (h : Hdr) (op : Nat) (pl : List Byte) (s : State) : (completed h op pl s).tx = s.tx := by unfold completed; split <;> simp
@[simp] theorem completed_cl (h : Hdr) (op : Nat) (pl : List Byte) (s : State) : (completed h op pl s).cl = s.cl := by unfold completed; split <;> simp
@[simp] theorem completed_sessions (h : Hdr) (op : Nat) (pl : List Byte) (s : State) : (completed h op pl s).sessions = s.sessions := by unfold completed; split <;> simp
@[simp] theorem completed_rods (h : Hdr) (op : Nat) (pl : List Byte) (s : State) : (completed h op pl s).rods = s.rods := by unfold completed; split <;> simp
@[simp] theorem completed_audio (h : Hdr) (op : Nat) (pl : List Byte) (s : State) : (completed h op pl s).audio = s.audio := by unfold completed; split <;> simp
@[simp] theorem completed_mem (h : Hdr) (op : Nat) (pl : List Byte) (s : State) : (completed h op pl s).mem = s.mem := by unfold completed; split <;> simp
@[simp] theorem completed_ana (h : Hdr) (op : Nat) (pl : List Byte) (s : State) : (completed h op pl s).ana = s.ana := by unfold completed; split <;> simp
@[simp] theorem completed_inst (h : Hdr) (op : Nat) (pl : List Byte) (s : State) : (completed h op pl s).inst = s.inst := by unfold completed; split <;> simp
@[simp] theorem completed_tw (h : Hdr) (op : Nat) (pl : List Byte) (s : State) : (completed h op pl s).tw = s.tw := by unfold completed; split <;> simp
@[simp] theorem completed_power (h : Hdr) (op : Nat) (pl : List Byte) (s : State) : (completed h op pl s).power = s.power := by unfold completed; split <;> simp
@[simp] theorem completed_supply (h : Hdr) (op : Nat) (pl : List Byte) (s : State) : (completed h op pl s).supply = s.supply := by unfold completed; split <;> simp
@[simp] theorem completed_prot (h : Hdr) (op : Nat) (pl : List Byte) (s : State) : (completed h op pl s).prot = s.prot := by unfold completed; split <;> simp
@[simp] theorem completed_age (h : Hdr) (op : Nat) (pl : List Byte) (s : State) : (completed h op pl s).age = s.age := by unfold completed; split <;> simp
@[simp] theorem completed_rattle (h : Hdr) (op : Nat) (pl : List Byte) (s : State) : (completed h op pl s).rattle = s.rattle := by unfold completed; split <;> simp
@[simp] theorem completed_free (h : Hdr) (op : Nat) (pl : List Byte) (s : State) : (completed h op pl s).free = s.free := by unfold completed; split <;> simp

end Sys2Proof.Machine
end

