-- ==== Sys2Proof/Laws/Fields.lean ====
section
/-! SUPPORT. The fields of the state that each shared operation leaves as they are. -/

namespace Sys2Proof.Machine

/-- A fold of changes that each leave a field alone leaves it alone. -/
theorem each_field {α β : Type} (g : State → α) (l : List β) (f : β → State → State) (s : State)
    (h : ∀ x s, g (f x s) = g s) : g (each l f s) = g s := by
  induction l generalizing s with
  | nil => rfl
  | cons x l ih => exact (ih (f x s)).trans (h x s)

@[simp] theorem raiseAlert_pending (f : Front → Front) (s : State) : (raiseAlert f s).pending = s.pending := by unfold raiseAlert; dsimp only; split <;> rfl
@[simp] theorem raiseAlert_timebase (f : Front → Front) (s : State) : (raiseAlert f s).timebase = s.timebase := by unfold raiseAlert; dsimp only; split <;> rfl
@[simp] theorem raiseAlert_par (f : Front → Front) (s : State) : (raiseAlert f s).par = s.par := by unfold raiseAlert; dsimp only; split <;> rfl
@[simp] theorem raiseAlert_inForce (f : Front → Front) (s : State) : (raiseAlert f s).inForce = s.inForce := by unfold raiseAlert; dsimp only; split <;> rfl
@[simp] theorem raiseAlert_op (f : Front → Front) (s : State) : (raiseAlert f s).op = s.op := by unfold raiseAlert; dsimp only; split <;> rfl
@[simp] theorem raiseAlert_cu (f : Front → Front) (s : State) : (raiseAlert f s).cu = s.cu := by unfold raiseAlert; dsimp only; split <;> rfl
@[simp] theorem raiseAlert_waiting (f : Front → Front) (s : State) : (raiseAlert f s).waiting = s.waiting := by unfold raiseAlert; dsimp only; split <;> rfl
@[simp] theorem raiseAlert_running (f : Front → Front) (s : State) : (raiseAlert f s).running = s.running := by unfold raiseAlert; dsimp only; split <;> rfl
@[simp] theorem raiseAlert_events (f : Front → Front) (s : State) : (raiseAlert f s).events = s.events := by unfold raiseAlert; dsimp only; split <;> rfl
@[simp] theorem raiseAlert_seq (f : Front → Front) (s : State) : (raiseAlert f s).seq = s.seq := by unfold raiseAlert; dsimp only; split <;> rfl
@[simp] theorem raiseAlert_alarm (f : Front → Front) (s : State) : (raiseAlert f s).alarm = s.alarm := by unfold raiseAlert; dsimp only; split <;> rfl
@[simp] theorem raiseAlert_rck (f : Front → Front) (s : State) : (raiseAlert f s).rck = s.rck := by unfold raiseAlert; dsimp only; split <;> rfl
@[simp] theorem raiseAlert_clk (f : Front → Front) (s : State) : (raiseAlert f s).clk = s.clk := by unfold raiseAlert; dsimp only; split <;> rfl
@[simp] theorem raiseAlert_rf (f : Front → Front) (s : State) : (raiseAlert f s).rf = s.rf := by unfold raiseAlert; dsimp only; split <;> rfl
@[simp] theorem raiseAlert_links (f : Front → Front) (s : State) : (raiseAlert f s).links = s.links := by unfold raiseAlert; dsimp only; split <;> rfl
@[simp] theorem raiseAlert_carriers (f : Front → Front) (s : State) : (raiseAlert f s).carriers = s.carriers := by unfold raiseAlert; dsimp only; split <;> rfl
@[simp] theorem raiseAlert_tx (f : Front → Front) (s : State) : (raiseAlert f s).tx = s.tx := by unfold raiseAlert; dsimp only; split <;> rfl
@[simp] theorem raiseAlert_cl (f : Front → Front) (s : State) : (raiseAlert f s).cl = s.cl := by unfold raiseAlert; dsimp only; split <;> rfl
@[simp] theorem raiseAlert_sessions (f : Front → Front) (s : State) : (raiseAlert f s).sessions = s.sessions := by unfold raiseAlert; dsimp only; split <;> rfl
@[simp] theorem raiseAlert_rods (f : Front → Front) (s : State) : (raiseAlert f s).rods = s.rods := by unfold raiseAlert; dsimp only; split <;> rfl
@[simp] theorem raiseAlert_audio (f : Front → Front) (s : State) : (raiseAlert f s).audio = s.audio := by unfold raiseAlert; dsimp only; split <;> rfl
@[simp] theorem raiseAlert_mem (f : Front → Front) (s : State) : (raiseAlert f s).mem = s.mem := by unfold raiseAlert; dsimp only; split <;> rfl
@[simp] theorem raiseAlert_ana (f : Front → Front) (s : State) : (raiseAlert f s).ana = s.ana := by unfold raiseAlert; dsimp only; split <;> rfl
@[simp] theorem raiseAlert_inst (f : Front → Front) (s : State) : (raiseAlert f s).inst = s.inst := by unfold raiseAlert; dsimp only; split <;> rfl
@[simp] theorem raiseAlert_power (f : Front → Front) (s : State) : (raiseAlert f s).power = s.power := by unfold raiseAlert; dsimp only; split <;> rfl
@[simp] theorem raiseAlert_supply (f : Front → Front) (s : State) : (raiseAlert f s).supply = s.supply := by unfold raiseAlert; dsimp only; split <;> rfl
@[simp] theorem raiseAlert_prot (f : Front → Front) (s : State) : (raiseAlert f s).prot = s.prot := by unfold raiseAlert; dsimp only; split <;> rfl
@[simp] theorem raiseAlert_age (f : Front → Front) (s : State) : (raiseAlert f s).age = s.age := by unfold raiseAlert; dsimp only; split <;> rfl
@[simp] theorem raiseAlert_rattle (f : Front → Front) (s : State) : (raiseAlert f s).rattle = s.rattle := by unfold raiseAlert; dsimp only; split <;> rfl
@[simp] theorem raiseAlert_free (f : Front → Front) (s : State) : (raiseAlert f s).free = s.free := by unfold raiseAlert; dsimp only; split <;> rfl

@[simp] theorem queueAt_pending (t : BitVec 64) (c a d : Nat) (s : State) : (queueAt t c a d s).pending = s.pending := by simp only [queueAt]; (repeat' split) <;> simp
@[simp] theorem queueAt_timebase (t : BitVec 64) (c a d : Nat) (s : State) : (queueAt t c a d s).timebase = s.timebase := by simp only [queueAt]; (repeat' split) <;> simp
@[simp] theorem queueAt_inForce (t : BitVec 64) (c a d : Nat) (s : State) : (queueAt t c a d s).inForce = s.inForce := by simp only [queueAt]; (repeat' split) <;> simp
@[simp] theorem queueAt_op (t : BitVec 64) (c a d : Nat) (s : State) : (queueAt t c a d s).op = s.op := by simp only [queueAt]; (repeat' split) <;> simp
@[simp] theorem queueAt_cu (t : BitVec 64) (c a d : Nat) (s : State) : (queueAt t c a d s).cu = s.cu := by simp only [queueAt]; (repeat' split) <;> simp
@[simp] theorem queueAt_waiting (t : BitVec 64) (c a d : Nat) (s : State) : (queueAt t c a d s).waiting = s.waiting := by simp only [queueAt]; (repeat' split) <;> simp
@[simp] theorem queueAt_running (t : BitVec 64) (c a d : Nat) (s : State) : (queueAt t c a d s).running = s.running := by simp only [queueAt]; (repeat' split) <;> simp
@[simp] theorem queueAt_seq (t : BitVec 64) (c a d : Nat) (s : State) : (queueAt t c a d s).seq = s.seq := by simp only [queueAt]; (repeat' split) <;> simp
@[simp] theorem queueAt_alarm (t : BitVec 64) (c a d : Nat) (s : State) : (queueAt t c a d s).alarm = s.alarm := by simp only [queueAt]; (repeat' split) <;> simp
@[simp] theorem queueAt_rck (t : BitVec 64) (c a d : Nat) (s : State) : (queueAt t c a d s).rck = s.rck := by simp only [queueAt]; (repeat' split) <;> simp
@[simp] theorem queueAt_clk (t : BitVec 64) (c a d : Nat) (s : State) : (queueAt t c a d s).clk = s.clk := by simp only [queueAt]; (repeat' split) <;> simp
@[simp] theorem queueAt_rf (t : BitVec 64) (c a d : Nat) (s : State) : (queueAt t c a d s).rf = s.rf := by simp only [queueAt]; (repeat' split) <;> simp
@[simp] theorem queueAt_links (t : BitVec 64) (c a d : Nat) (s : State) : (queueAt t c a d s).links = s.links := by simp only [queueAt]; (repeat' split) <;> simp
@[simp] theorem queueAt_carriers (t : BitVec 64) (c a d : Nat) (s : State) : (queueAt t c a d s).carriers = s.carriers := by simp only [queueAt]; (repeat' split) <;> simp
@[simp] theorem queueAt_tx (t : BitVec 64) (c a d : Nat) (s : State) : (queueAt t c a d s).tx = s.tx := by simp only [queueAt]; (repeat' split) <;> simp
@[simp] theorem queueAt_cl (t : BitVec 64) (c a d : Nat) (s : State) : (queueAt t c a d s).cl = s.cl := by simp only [queueAt]; (repeat' split) <;> simp
@[simp] theorem queueAt_sessions (t : BitVec 64) (c a d : Nat) (s : State) : (queueAt t c a d s).sessions = s.sessions := by simp only [queueAt]; (repeat' split) <;> simp
@[simp] theorem queueAt_rods (t : BitVec 64) (c a d : Nat) (s : State) : (queueAt t c a d s).rods = s.rods := by simp only [queueAt]; (repeat' split) <;> simp
@[simp] theorem queueAt_audio (t : BitVec 64) (c a d : Nat) (s : State) : (queueAt t c a d s).audio = s.audio := by simp only [queueAt]; (repeat' split) <;> simp
@[simp] theorem queueAt_mem (t : BitVec 64) (c a d : Nat) (s : State) : (queueAt t c a d s).mem = s.mem := by simp only [queueAt]; (repeat' split) <;> simp
@[simp] theorem queueAt_ana (t : BitVec 64) (c a d : Nat) (s : State) : (queueAt t c a d s).ana = s.ana := by simp only [queueAt]; (repeat' split) <;> simp
@[simp] theorem queueAt_inst (t : BitVec 64) (c a d : Nat) (s : State) : (queueAt t c a d s).inst = s.inst := by simp only [queueAt]; (repeat' split) <;> simp
@[simp] theorem queueAt_power (t : BitVec 64) (c a d : Nat) (s : State) : (queueAt t c a d s).power = s.power := by simp only [queueAt]; (repeat' split) <;> simp
@[simp] theorem queueAt_supply (t : BitVec 64) (c a d : Nat) (s : State) : (queueAt t c a d s).supply = s.supply := by simp only [queueAt]; (repeat' split) <;> simp
@[simp] theorem queueAt_prot (t : BitVec 64) (c a d : Nat) (s : State) : (queueAt t c a d s).prot = s.prot := by simp only [queueAt]; (repeat' split) <;> simp
@[simp] theorem queueAt_age (t : BitVec 64) (c a d : Nat) (s : State) : (queueAt t c a d s).age = s.age := by simp only [queueAt]; (repeat' split) <;> simp
@[simp] theorem queueAt_rattle (t : BitVec 64) (c a d : Nat) (s : State) : (queueAt t c a d s).rattle = s.rattle := by simp only [queueAt]; (repeat' split) <;> simp
@[simp] theorem queueAt_free (t : BitVec 64) (c a d : Nat) (s : State) : (queueAt t c a d s).free = s.free := by simp only [queueAt]; (repeat' split) <;> simp

@[simp] theorem queueEvent_pending (c a d : Nat) (s : State) : (queueEvent c a d s).pending = s.pending := by simp [queueEvent]
@[simp] theorem queueEvent_timebase (c a d : Nat) (s : State) : (queueEvent c a d s).timebase = s.timebase := by simp [queueEvent]
@[simp] theorem queueEvent_inForce (c a d : Nat) (s : State) : (queueEvent c a d s).inForce = s.inForce := by simp [queueEvent]
@[simp] theorem queueEvent_op (c a d : Nat) (s : State) : (queueEvent c a d s).op = s.op := by simp [queueEvent]
@[simp] theorem queueEvent_cu (c a d : Nat) (s : State) : (queueEvent c a d s).cu = s.cu := by simp [queueEvent]
@[simp] theorem queueEvent_waiting (c a d : Nat) (s : State) : (queueEvent c a d s).waiting = s.waiting := by simp [queueEvent]
@[simp] theorem queueEvent_running (c a d : Nat) (s : State) : (queueEvent c a d s).running = s.running := by simp [queueEvent]
@[simp] theorem queueEvent_seq (c a d : Nat) (s : State) : (queueEvent c a d s).seq = s.seq := by simp [queueEvent]
@[simp] theorem queueEvent_alarm (c a d : Nat) (s : State) : (queueEvent c a d s).alarm = s.alarm := by simp [queueEvent]
@[simp] theorem queueEvent_rck (c a d : Nat) (s : State) : (queueEvent c a d s).rck = s.rck := by simp [queueEvent]
@[simp] theorem queueEvent_clk (c a d : Nat) (s : State) : (queueEvent c a d s).clk = s.clk := by simp [queueEvent]
@[simp] theorem queueEvent_rf (c a d : Nat) (s : State) : (queueEvent c a d s).rf = s.rf := by simp [queueEvent]
@[simp] theorem queueEvent_links (c a d : Nat) (s : State) : (queueEvent c a d s).links = s.links := by simp [queueEvent]
@[simp] theorem queueEvent_carriers (c a d : Nat) (s : State) : (queueEvent c a d s).carriers = s.carriers := by simp [queueEvent]
@[simp] theorem queueEvent_tx (c a d : Nat) (s : State) : (queueEvent c a d s).tx = s.tx := by simp [queueEvent]
@[simp] theorem queueEvent_cl (c a d : Nat) (s : State) : (queueEvent c a d s).cl = s.cl := by simp [queueEvent]
@[simp] theorem queueEvent_sessions (c a d : Nat) (s : State) : (queueEvent c a d s).sessions = s.sessions := by simp [queueEvent]
@[simp] theorem queueEvent_rods (c a d : Nat) (s : State) : (queueEvent c a d s).rods = s.rods := by simp [queueEvent]
@[simp] theorem queueEvent_audio (c a d : Nat) (s : State) : (queueEvent c a d s).audio = s.audio := by simp [queueEvent]
@[simp] theorem queueEvent_mem (c a d : Nat) (s : State) : (queueEvent c a d s).mem = s.mem := by simp [queueEvent]
@[simp] theorem queueEvent_ana (c a d : Nat) (s : State) : (queueEvent c a d s).ana = s.ana := by simp [queueEvent]
@[simp] theorem queueEvent_inst (c a d : Nat) (s : State) : (queueEvent c a d s).inst = s.inst := by simp [queueEvent]
@[simp] theorem queueEvent_power (c a d : Nat) (s : State) : (queueEvent c a d s).power = s.power := by simp [queueEvent]
@[simp] theorem queueEvent_supply (c a d : Nat) (s : State) : (queueEvent c a d s).supply = s.supply := by simp [queueEvent]
@[simp] theorem queueEvent_prot (c a d : Nat) (s : State) : (queueEvent c a d s).prot = s.prot := by simp [queueEvent]
@[simp] theorem queueEvent_age (c a d : Nat) (s : State) : (queueEvent c a d s).age = s.age := by simp [queueEvent]
@[simp] theorem queueEvent_rattle (c a d : Nat) (s : State) : (queueEvent c a d s).rattle = s.rattle := by simp [queueEvent]
@[simp] theorem queueEvent_free (c a d : Nat) (s : State) : (queueEvent c a d s).free = s.free := by simp [queueEvent]

@[simp] theorem alertCosign_pending  (s : State) : (alertCosign s).pending = s.pending := by simp [alertCosign]
@[simp] theorem alertCosign_timebase  (s : State) : (alertCosign s).timebase = s.timebase := by simp [alertCosign]
@[simp] theorem alertCosign_par  (s : State) : (alertCosign s).par = s.par := by simp [alertCosign]
@[simp] theorem alertCosign_inForce  (s : State) : (alertCosign s).inForce = s.inForce := by simp [alertCosign]
@[simp] theorem alertCosign_op  (s : State) : (alertCosign s).op = s.op := by simp [alertCosign]
@[simp] theorem alertCosign_cu  (s : State) : (alertCosign s).cu = s.cu := by simp [alertCosign]
@[simp] theorem alertCosign_waiting  (s : State) : (alertCosign s).waiting = s.waiting := by simp [alertCosign]
@[simp] theorem alertCosign_running  (s : State) : (alertCosign s).running = s.running := by simp [alertCosign]
@[simp] theorem alertCosign_events  (s : State) : (alertCosign s).events = s.events := by simp [alertCosign]
@[simp] theorem alertCosign_seq  (s : State) : (alertCosign s).seq = s.seq := by simp [alertCosign]
@[simp] theorem alertCosign_alarm  (s : State) : (alertCosign s).alarm = s.alarm := by simp [alertCosign]
@[simp] theorem alertCosign_rck  (s : State) : (alertCosign s).rck = s.rck := by simp [alertCosign]
@[simp] theorem alertCosign_clk  (s : State) : (alertCosign s).clk = s.clk := by simp [alertCosign]
@[simp] theorem alertCosign_rf  (s : State) : (alertCosign s).rf = s.rf := by simp [alertCosign]
@[simp] theorem alertCosign_links  (s : State) : (alertCosign s).links = s.links := by simp [alertCosign]
@[simp] theorem alertCosign_carriers  (s : State) : (alertCosign s).carriers = s.carriers := by simp [alertCosign]
@[simp] theorem alertCosign_tx  (s : State) : (alertCosign s).tx = s.tx := by simp [alertCosign]
@[simp] theorem alertCosign_cl  (s : State) : (alertCosign s).cl = s.cl := by simp [alertCosign]
@[simp] theorem alertCosign_sessions  (s : State) : (alertCosign s).sessions = s.sessions := by simp [alertCosign]
@[simp] theorem alertCosign_rods  (s : State) : (alertCosign s).rods = s.rods := by simp [alertCosign]
@[simp] theorem alertCosign_audio  (s : State) : (alertCosign s).audio = s.audio := by simp [alertCosign]
@[simp] theorem alertCosign_mem  (s : State) : (alertCosign s).mem = s.mem := by simp [alertCosign]
@[simp] theorem alertCosign_ana  (s : State) : (alertCosign s).ana = s.ana := by simp [alertCosign]
@[simp] theorem alertCosign_inst  (s : State) : (alertCosign s).inst = s.inst := by simp [alertCosign]
@[simp] theorem alertCosign_power  (s : State) : (alertCosign s).power = s.power := by simp [alertCosign]
@[simp] theorem alertCosign_supply  (s : State) : (alertCosign s).supply = s.supply := by simp [alertCosign]
@[simp] theorem alertCosign_prot  (s : State) : (alertCosign s).prot = s.prot := by simp [alertCosign]
@[simp] theorem alertCosign_age  (s : State) : (alertCosign s).age = s.age := by simp [alertCosign]
@[simp] theorem alertCosign_rattle  (s : State) : (alertCosign s).rattle = s.rattle := by simp [alertCosign]
@[simp] theorem alertCosign_free  (s : State) : (alertCosign s).free = s.free := by simp [alertCosign]

@[simp] theorem putCharge_pending (c : Charge) (s : State) : (putCharge c s).pending = s.pending := by simp [putCharge]
@[simp] theorem putCharge_timebase (c : Charge) (s : State) : (putCharge c s).timebase = s.timebase := by simp [putCharge]
@[simp] theorem putCharge_par (c : Charge) (s : State) : (putCharge c s).par = s.par := by simp [putCharge]
@[simp] theorem putCharge_inForce (c : Charge) (s : State) : (putCharge c s).inForce = s.inForce := by simp [putCharge]
@[simp] theorem putCharge_op (c : Charge) (s : State) : (putCharge c s).op = s.op := by simp [putCharge]
@[simp] theorem putCharge_cu (c : Charge) (s : State) : (putCharge c s).cu = s.cu := by simp [putCharge]
@[simp] theorem putCharge_waiting (c : Charge) (s : State) : (putCharge c s).waiting = s.waiting := by simp [putCharge]
@[simp] theorem putCharge_running (c : Charge) (s : State) : (putCharge c s).running = s.running := by simp [putCharge]
@[simp] theorem putCharge_events (c : Charge) (s : State) : (putCharge c s).events = s.events := by simp [putCharge]
@[simp] theorem putCharge_front (c : Charge) (s : State) : (putCharge c s).front = s.front := by simp [putCharge]
@[simp] theorem putCharge_seq (c : Charge) (s : State) : (putCharge c s).seq = s.seq := by simp [putCharge]
@[simp] theorem putCharge_alarm (c : Charge) (s : State) : (putCharge c s).alarm = s.alarm := by simp [putCharge]
@[simp] theorem putCharge_clk (c : Charge) (s : State) : (putCharge c s).clk = s.clk := by simp [putCharge]
@[simp] theorem putCharge_rf (c : Charge) (s : State) : (putCharge c s).rf = s.rf := by simp [putCharge]
@[simp] theorem putCharge_links (c : Charge) (s : State) : (putCharge c s).links = s.links := by simp [putCharge]
@[simp] theorem putCharge_carriers (c : Charge) (s : State) : (putCharge c s).carriers = s.carriers := by simp [putCharge]
@[simp] theorem putCharge_tx (c : Charge) (s : State) : (putCharge c s).tx = s.tx := by simp [putCharge]
@[simp] theorem putCharge_cl (c : Charge) (s : State) : (putCharge c s).cl = s.cl := by simp [putCharge]
@[simp] theorem putCharge_sessions (c : Charge) (s : State) : (putCharge c s).sessions = s.sessions := by simp [putCharge]
@[simp] theorem putCharge_rods (c : Charge) (s : State) : (putCharge c s).rods = s.rods := by simp [putCharge]
@[simp] theorem putCharge_audio (c : Charge) (s : State) : (putCharge c s).audio = s.audio := by simp [putCharge]
@[simp] theorem putCharge_mem (c : Charge) (s : State) : (putCharge c s).mem = s.mem := by simp [putCharge]
@[simp] theorem putCharge_ana (c : Charge) (s : State) : (putCharge c s).ana = s.ana := by simp [putCharge]
@[simp] theorem putCharge_inst (c : Charge) (s : State) : (putCharge c s).inst = s.inst := by simp [putCharge]
@[simp] theorem putCharge_tw (c : Charge) (s : State) : (putCharge c s).tw = s.tw := by simp [putCharge]
@[simp] theorem putCharge_power (c : Charge) (s : State) : (putCharge c s).power = s.power := by simp [putCharge]
@[simp] theorem putCharge_supply (c : Charge) (s : State) : (putCharge c s).supply = s.supply := by simp [putCharge]
@[simp] theorem putCharge_prot (c : Charge) (s : State) : (putCharge c s).prot = s.prot := by simp [putCharge]
@[simp] theorem putCharge_age (c : Charge) (s : State) : (putCharge c s).age = s.age := by simp [putCharge]
@[simp] theorem putCharge_rattle (c : Charge) (s : State) : (putCharge c s).rattle = s.rattle := by simp [putCharge]
@[simp] theorem putCharge_free (c : Charge) (s : State) : (putCharge c s).free = s.free := by simp [putCharge]

@[simp] theorem reserveRod_pending (r : Nat) (k : RodPhase) (s : State) : (reserveRod r k s).pending = s.pending := by simp [reserveRod]
@[simp] theorem reserveRod_timebase (r : Nat) (k : RodPhase) (s : State) : (reserveRod r k s).timebase = s.timebase := by simp [reserveRod]
@[simp] theorem reserveRod_inForce (r : Nat) (k : RodPhase) (s : State) : (reserveRod r k s).inForce = s.inForce := by simp [reserveRod]
@[simp] theorem reserveRod_op (r : Nat) (k : RodPhase) (s : State) : (reserveRod r k s).op = s.op := by simp [reserveRod]
@[simp] theorem reserveRod_cu (r : Nat) (k : RodPhase) (s : State) : (reserveRod r k s).cu = s.cu := by simp [reserveRod]
@[simp] theorem reserveRod_waiting (r : Nat) (k : RodPhase) (s : State) : (reserveRod r k s).waiting = s.waiting := by simp [reserveRod]
@[simp] theorem reserveRod_running (r : Nat) (k : RodPhase) (s : State) : (reserveRod r k s).running = s.running := by simp [reserveRod]
@[simp] theorem reserveRod_seq (r : Nat) (k : RodPhase) (s : State) : (reserveRod r k s).seq = s.seq := by simp [reserveRod]
@[simp] theorem reserveRod_alarm (r : Nat) (k : RodPhase) (s : State) : (reserveRod r k s).alarm = s.alarm := by simp [reserveRod]
@[simp] theorem reserveRod_rck (r : Nat) (k : RodPhase) (s : State) : (reserveRod r k s).rck = s.rck := by simp [reserveRod]
@[simp] theorem reserveRod_clk (r : Nat) (k : RodPhase) (s : State) : (reserveRod r k s).clk = s.clk := by simp [reserveRod]
@[simp] theorem reserveRod_rf (r : Nat) (k : RodPhase) (s : State) : (reserveRod r k s).rf = s.rf := by simp [reserveRod]
@[simp] theorem reserveRod_links (r : Nat) (k : RodPhase) (s : State) : (reserveRod r k s).links = s.links := by simp [reserveRod]
@[simp] theorem reserveRod_carriers (r : Nat) (k : RodPhase) (s : State) : (reserveRod r k s).carriers = s.carriers := by simp [reserveRod]
@[simp] theorem reserveRod_tx (r : Nat) (k : RodPhase) (s : State) : (reserveRod r k s).tx = s.tx := by simp [reserveRod]
@[simp] theorem reserveRod_cl (r : Nat) (k : RodPhase) (s : State) : (reserveRod r k s).cl = s.cl := by simp [reserveRod]
@[simp] theorem reserveRod_sessions (r : Nat) (k : RodPhase) (s : State) : (reserveRod r k s).sessions = s.sessions := by simp [reserveRod]
@[simp] theorem reserveRod_audio (r : Nat) (k : RodPhase) (s : State) : (reserveRod r k s).audio = s.audio := by simp [reserveRod]
@[simp] theorem reserveRod_mem (r : Nat) (k : RodPhase) (s : State) : (reserveRod r k s).mem = s.mem := by simp [reserveRod]
@[simp] theorem reserveRod_ana (r : Nat) (k : RodPhase) (s : State) : (reserveRod r k s).ana = s.ana := by simp [reserveRod]
@[simp] theorem reserveRod_inst (r : Nat) (k : RodPhase) (s : State) : (reserveRod r k s).inst = s.inst := by simp [reserveRod]
@[simp] theorem reserveRod_power (r : Nat) (k : RodPhase) (s : State) : (reserveRod r k s).power = s.power := by simp [reserveRod]
@[simp] theorem reserveRod_supply (r : Nat) (k : RodPhase) (s : State) : (reserveRod r k s).supply = s.supply := by simp [reserveRod]
@[simp] theorem reserveRod_prot (r : Nat) (k : RodPhase) (s : State) : (reserveRod r k s).prot = s.prot := by simp [reserveRod]
@[simp] theorem reserveRod_age (r : Nat) (k : RodPhase) (s : State) : (reserveRod r k s).age = s.age := by simp [reserveRod]
@[simp] theorem reserveRod_rattle (r : Nat) (k : RodPhase) (s : State) : (reserveRod r k s).rattle = s.rattle := by simp [reserveRod]
@[simp] theorem reserveRod_free (r : Nat) (k : RodPhase) (s : State) : (reserveRod r k s).free = s.free := by simp [reserveRod]

@[simp] theorem refuse_pending (a b : Nat) (s : State) : (refuse a b s).pending = s.pending := by simp [refuse]
@[simp] theorem refuse_timebase (a b : Nat) (s : State) : (refuse a b s).timebase = s.timebase := by simp [refuse]
@[simp] theorem refuse_inForce (a b : Nat) (s : State) : (refuse a b s).inForce = s.inForce := by simp [refuse]
@[simp] theorem refuse_op (a b : Nat) (s : State) : (refuse a b s).op = s.op := by simp [refuse]
@[simp] theorem refuse_cu (a b : Nat) (s : State) : (refuse a b s).cu = s.cu := by simp [refuse]
@[simp] theorem refuse_waiting (a b : Nat) (s : State) : (refuse a b s).waiting = s.waiting := by simp [refuse]
@[simp] theorem refuse_running (a b : Nat) (s : State) : (refuse a b s).running = s.running := by simp [refuse]
@[simp] theorem refuse_events (a b : Nat) (s : State) : (refuse a b s).events = s.events := by simp [refuse]
@[simp] theorem refuse_front (a b : Nat) (s : State) : (refuse a b s).front = s.front := by simp [refuse]
@[simp] theorem refuse_seq (a b : Nat) (s : State) : (refuse a b s).seq = s.seq := by simp [refuse]
@[simp] theorem refuse_alarm (a b : Nat) (s : State) : (refuse a b s).alarm = s.alarm := by simp [refuse]
@[simp] theorem refuse_rck (a b : Nat) (s : State) : (refuse a b s).rck = s.rck := by simp [refuse]
@[simp] theorem refuse_clk (a b : Nat) (s : State) : (refuse a b s).clk = s.clk := by simp [refuse]
@[simp] theorem refuse_rf (a b : Nat) (s : State) : (refuse a b s).rf = s.rf := by simp [refuse]
@[simp] theorem refuse_links (a b : Nat) (s : State) : (refuse a b s).links = s.links := by simp [refuse]
@[simp] theorem refuse_carriers (a b : Nat) (s : State) : (refuse a b s).carriers = s.carriers := by simp [refuse]
@[simp] theorem refuse_tx (a b : Nat) (s : State) : (refuse a b s).tx = s.tx := by simp [refuse]
@[simp] theorem refuse_cl (a b : Nat) (s : State) : (refuse a b s).cl = s.cl := by simp [refuse]
@[simp] theorem refuse_sessions (a b : Nat) (s : State) : (refuse a b s).sessions = s.sessions := by simp [refuse]
@[simp] theorem refuse_rods (a b : Nat) (s : State) : (refuse a b s).rods = s.rods := by simp [refuse]
@[simp] theorem refuse_audio (a b : Nat) (s : State) : (refuse a b s).audio = s.audio := by simp [refuse]
@[simp] theorem refuse_mem (a b : Nat) (s : State) : (refuse a b s).mem = s.mem := by simp [refuse]
@[simp] theorem refuse_ana (a b : Nat) (s : State) : (refuse a b s).ana = s.ana := by simp [refuse]
@[simp] theorem refuse_inst (a b : Nat) (s : State) : (refuse a b s).inst = s.inst := by simp [refuse]
@[simp] theorem refuse_tw (a b : Nat) (s : State) : (refuse a b s).tw = s.tw := by simp [refuse]
@[simp] theorem refuse_power (a b : Nat) (s : State) : (refuse a b s).power = s.power := by simp [refuse]
@[simp] theorem refuse_supply (a b : Nat) (s : State) : (refuse a b s).supply = s.supply := by simp [refuse]
@[simp] theorem refuse_prot (a b : Nat) (s : State) : (refuse a b s).prot = s.prot := by simp [refuse]
@[simp] theorem refuse_age (a b : Nat) (s : State) : (refuse a b s).age = s.age := by simp [refuse]
@[simp] theorem refuse_rattle (a b : Nat) (s : State) : (refuse a b s).rattle = s.rattle := by simp [refuse]
@[simp] theorem refuse_free (a b : Nat) (s : State) : (refuse a b s).free = s.free := by simp [refuse]

@[simp] theorem askRod_pending (a : Ask) (s : State) : ((askRod a s).2.2).pending = s.pending := by unfold askRod; (repeat' split) <;> simp
@[simp] theorem askRod_timebase (a : Ask) (s : State) : ((askRod a s).2.2).timebase = s.timebase := by unfold askRod; (repeat' split) <;> simp
@[simp] theorem askRod_inForce (a : Ask) (s : State) : ((askRod a s).2.2).inForce = s.inForce := by unfold askRod; (repeat' split) <;> simp
@[simp] theorem askRod_op (a : Ask) (s : State) : ((askRod a s).2.2).op = s.op := by unfold askRod; (repeat' split) <;> simp
@[simp] theorem askRod_cu (a : Ask) (s : State) : ((askRod a s).2.2).cu = s.cu := by unfold askRod; (repeat' split) <;> simp
@[simp] theorem askRod_waiting (a : Ask) (s : State) : ((askRod a s).2.2).waiting = s.waiting := by unfold askRod; (repeat' split) <;> simp
@[simp] theorem askRod_running (a : Ask) (s : State) : ((askRod a s).2.2).running = s.running := by unfold askRod; (repeat' split) <;> simp
@[simp] theorem askRod_seq (a : Ask) (s : State) : ((askRod a s).2.2).seq = s.seq := by unfold askRod; (repeat' split) <;> simp
@[simp] theorem askRod_alarm (a : Ask) (s : State) : ((askRod a s).2.2).alarm = s.alarm := by unfold askRod; (repeat' split) <;> simp
@[simp] theorem askRod_rck (a : Ask) (s : State) : ((askRod a s).2.2).rck = s.rck := by unfold askRod; (repeat' split) <;> simp
@[simp] theorem askRod_clk (a : Ask) (s : State) : ((askRod a s).2.2).clk = s.clk := by unfold askRod; (repeat' split) <;> simp
@[simp] theorem askRod_rf (a : Ask) (s : State) : ((askRod a s).2.2).rf = s.rf := by unfold askRod; (repeat' split) <;> simp
@[simp] theorem askRod_links (a : Ask) (s : State) : ((askRod a s).2.2).links = s.links := by unfold askRod; (repeat' split) <;> simp
@[simp] theorem askRod_carriers (a : Ask) (s : State) : ((askRod a s).2.2).carriers = s.carriers := by unfold askRod; (repeat' split) <;> simp
@[simp] theorem askRod_tx (a : Ask) (s : State) : ((askRod a s).2.2).tx = s.tx := by unfold askRod; (repeat' split) <;> simp
@[simp] theorem askRod_cl (a : Ask) (s : State) : ((askRod a s).2.2).cl = s.cl := by unfold askRod; (repeat' split) <;> simp
@[simp] theorem askRod_sessions (a : Ask) (s : State) : ((askRod a s).2.2).sessions = s.sessions := by unfold askRod; (repeat' split) <;> simp
@[simp] theorem askRod_audio (a : Ask) (s : State) : ((askRod a s).2.2).audio = s.audio := by unfold askRod; (repeat' split) <;> simp
@[simp] theorem askRod_mem (a : Ask) (s : State) : ((askRod a s).2.2).mem = s.mem := by unfold askRod; (repeat' split) <;> simp
@[simp] theorem askRod_ana (a : Ask) (s : State) : ((askRod a s).2.2).ana = s.ana := by unfold askRod; (repeat' split) <;> simp
@[simp] theorem askRod_inst (a : Ask) (s : State) : ((askRod a s).2.2).inst = s.inst := by unfold askRod; (repeat' split) <;> simp
@[simp] theorem askRod_power (a : Ask) (s : State) : ((askRod a s).2.2).power = s.power := by unfold askRod; (repeat' split) <;> simp
@[simp] theorem askRod_supply (a : Ask) (s : State) : ((askRod a s).2.2).supply = s.supply := by unfold askRod; (repeat' split) <;> simp
@[simp] theorem askRod_prot (a : Ask) (s : State) : ((askRod a s).2.2).prot = s.prot := by unfold askRod; (repeat' split) <;> simp
@[simp] theorem askRod_age (a : Ask) (s : State) : ((askRod a s).2.2).age = s.age := by unfold askRod; (repeat' split) <;> simp
@[simp] theorem askRod_rattle (a : Ask) (s : State) : ((askRod a s).2.2).rattle = s.rattle := by unfold askRod; (repeat' split) <;> simp
@[simp] theorem askRod_free (a : Ask) (s : State) : ((askRod a s).2.2).free = s.free := by unfold askRod; (repeat' split) <;> simp

@[simp] theorem enterAsk_pending (key : Nat) (a : Ask) (b : Bool) (s : State) : ((enterAsk key (s, b) a).1).pending = s.pending := by simp only [enterAsk, putCharge_pending]; split <;> simp
@[simp] theorem enterAsk_timebase (key : Nat) (a : Ask) (b : Bool) (s : State) : ((enterAsk key (s, b) a).1).timebase = s.timebase := by simp only [enterAsk, putCharge_timebase]; split <;> simp
@[simp] theorem enterAsk_inForce (key : Nat) (a : Ask) (b : Bool) (s : State) : ((enterAsk key (s, b) a).1).inForce = s.inForce := by simp only [enterAsk, putCharge_inForce]; split <;> simp
@[simp] theorem enterAsk_op (key : Nat) (a : Ask) (b : Bool) (s : State) : ((enterAsk key (s, b) a).1).op = s.op := by simp only [enterAsk, putCharge_op]; split <;> simp
@[simp] theorem enterAsk_cu (key : Nat) (a : Ask) (b : Bool) (s : State) : ((enterAsk key (s, b) a).1).cu = s.cu := by simp only [enterAsk, putCharge_cu]; split <;> simp
@[simp] theorem enterAsk_waiting (key : Nat) (a : Ask) (b : Bool) (s : State) : ((enterAsk key (s, b) a).1).waiting = s.waiting := by simp only [enterAsk, putCharge_waiting]; split <;> simp
@[simp] theorem enterAsk_running (key : Nat) (a : Ask) (b : Bool) (s : State) : ((enterAsk key (s, b) a).1).running = s.running := by simp only [enterAsk, putCharge_running]; split <;> simp
@[simp] theorem enterAsk_seq (key : Nat) (a : Ask) (b : Bool) (s : State) : ((enterAsk key (s, b) a).1).seq = s.seq := by simp only [enterAsk, putCharge_seq]; split <;> simp
@[simp] theorem enterAsk_alarm (key : Nat) (a : Ask) (b : Bool) (s : State) : ((enterAsk key (s, b) a).1).alarm = s.alarm := by simp only [enterAsk, putCharge_alarm]; split <;> simp
@[simp] theorem enterAsk_clk (key : Nat) (a : Ask) (b : Bool) (s : State) : ((enterAsk key (s, b) a).1).clk = s.clk := by simp only [enterAsk, putCharge_clk]; split <;> simp
@[simp] theorem enterAsk_rf (key : Nat) (a : Ask) (b : Bool) (s : State) : ((enterAsk key (s, b) a).1).rf = s.rf := by simp only [enterAsk, putCharge_rf]; split <;> simp
@[simp] theorem enterAsk_links (key : Nat) (a : Ask) (b : Bool) (s : State) : ((enterAsk key (s, b) a).1).links = s.links := by simp only [enterAsk, putCharge_links]; split <;> simp
@[simp] theorem enterAsk_carriers (key : Nat) (a : Ask) (b : Bool) (s : State) : ((enterAsk key (s, b) a).1).carriers = s.carriers := by simp only [enterAsk, putCharge_carriers]; split <;> simp
@[simp] theorem enterAsk_tx (key : Nat) (a : Ask) (b : Bool) (s : State) : ((enterAsk key (s, b) a).1).tx = s.tx := by simp only [enterAsk, putCharge_tx]; split <;> simp
@[simp] theorem enterAsk_cl (key : Nat) (a : Ask) (b : Bool) (s : State) : ((enterAsk key (s, b) a).1).cl = s.cl := by simp only [enterAsk, putCharge_cl]; split <;> simp
@[simp] theorem enterAsk_sessions (key : Nat) (a : Ask) (b : Bool) (s : State) : ((enterAsk key (s, b) a).1).sessions = s.sessions := by simp only [enterAsk, putCharge_sessions]; split <;> simp
@[simp] theorem enterAsk_audio (key : Nat) (a : Ask) (b : Bool) (s : State) : ((enterAsk key (s, b) a).1).audio = s.audio := by simp only [enterAsk, putCharge_audio]; split <;> simp
@[simp] theorem enterAsk_mem (key : Nat) (a : Ask) (b : Bool) (s : State) : ((enterAsk key (s, b) a).1).mem = s.mem := by simp only [enterAsk, putCharge_mem]; split <;> simp
@[simp] theorem enterAsk_ana (key : Nat) (a : Ask) (b : Bool) (s : State) : ((enterAsk key (s, b) a).1).ana = s.ana := by simp only [enterAsk, putCharge_ana]; split <;> simp
@[simp] theorem enterAsk_inst (key : Nat) (a : Ask) (b : Bool) (s : State) : ((enterAsk key (s, b) a).1).inst = s.inst := by simp only [enterAsk, putCharge_inst]; split <;> simp
@[simp] theorem enterAsk_power (key : Nat) (a : Ask) (b : Bool) (s : State) : ((enterAsk key (s, b) a).1).power = s.power := by simp only [enterAsk, putCharge_power]; split <;> simp
@[simp] theorem enterAsk_supply (key : Nat) (a : Ask) (b : Bool) (s : State) : ((enterAsk key (s, b) a).1).supply = s.supply := by simp only [enterAsk, putCharge_supply]; split <;> simp
@[simp] theorem enterAsk_prot (key : Nat) (a : Ask) (b : Bool) (s : State) : ((enterAsk key (s, b) a).1).prot = s.prot := by simp only [enterAsk, putCharge_prot]; split <;> simp
@[simp] theorem enterAsk_age (key : Nat) (a : Ask) (b : Bool) (s : State) : ((enterAsk key (s, b) a).1).age = s.age := by simp only [enterAsk, putCharge_age]; split <;> simp
@[simp] theorem enterAsk_rattle (key : Nat) (a : Ask) (b : Bool) (s : State) : ((enterAsk key (s, b) a).1).rattle = s.rattle := by simp only [enterAsk, putCharge_rattle]; split <;> simp
@[simp] theorem enterAsk_free (key : Nat) (a : Ask) (b : Bool) (s : State) : ((enterAsk key (s, b) a).1).free = s.free := by simp only [enterAsk, putCharge_free]; split <;> simp

@[simp] theorem enterAsks_pending (key : Nat) (l : List Ask) (b : Bool) (s : State) : ((l.foldl (enterAsk key) (s, b)).1).pending = s.pending := by
  induction l generalizing s b with
  | nil => rfl
  | cons a l ih => exact (ih _ _).trans (enterAsk_pending key a b s)
@[simp] theorem enterAsks_timebase (key : Nat) (l : List Ask) (b : Bool) (s : State) : ((l.foldl (enterAsk key) (s, b)).1).timebase = s.timebase := by
  induction l generalizing s b with
  | nil => rfl
  | cons a l ih => exact (ih _ _).trans (enterAsk_timebase key a b s)
@[simp] theorem enterAsks_inForce (key : Nat) (l : List Ask) (b : Bool) (s : State) : ((l.foldl (enterAsk key) (s, b)).1).inForce = s.inForce := by
  induction l generalizing s b with
  | nil => rfl
  | cons a l ih => exact (ih _ _).trans (enterAsk_inForce key a b s)
@[simp] theorem enterAsks_op (key : Nat) (l : List Ask) (b : Bool) (s : State) : ((l.foldl (enterAsk key) (s, b)).1).op = s.op := by
  induction l generalizing s b with
  | nil => rfl
  | cons a l ih => exact (ih _ _).trans (enterAsk_op key a b s)
@[simp] theorem enterAsks_cu (key : Nat) (l : List Ask) (b : Bool) (s : State) : ((l.foldl (enterAsk key) (s, b)).1).cu = s.cu := by
  induction l generalizing s b with
  | nil => rfl
  | cons a l ih => exact (ih _ _).trans (enterAsk_cu key a b s)
@[simp] theorem enterAsks_waiting (key : Nat) (l : List Ask) (b : Bool) (s : State) : ((l.foldl (enterAsk key) (s, b)).1).waiting = s.waiting := by
  induction l generalizing s b with
  | nil => rfl
  | cons a l ih => exact (ih _ _).trans (enterAsk_waiting key a b s)
@[simp] theorem enterAsks_running (key : Nat) (l : List Ask) (b : Bool) (s : State) : ((l.foldl (enterAsk key) (s, b)).1).running = s.running := by
  induction l generalizing s b with
  | nil => rfl
  | cons a l ih => exact (ih _ _).trans (enterAsk_running key a b s)
@[simp] theorem enterAsks_seq (key : Nat) (l : List Ask) (b : Bool) (s : State) : ((l.foldl (enterAsk key) (s, b)).1).seq = s.seq := by
  induction l generalizing s b with
  | nil => rfl
  | cons a l ih => exact (ih _ _).trans (enterAsk_seq key a b s)
@[simp] theorem enterAsks_alarm (key : Nat) (l : List Ask) (b : Bool) (s : State) : ((l.foldl (enterAsk key) (s, b)).1).alarm = s.alarm := by
  induction l generalizing s b with
  | nil => rfl
  | cons a l ih => exact (ih _ _).trans (enterAsk_alarm key a b s)
@[simp] theorem enterAsks_clk (key : Nat) (l : List Ask) (b : Bool) (s : State) : ((l.foldl (enterAsk key) (s, b)).1).clk = s.clk := by
  induction l generalizing s b with
  | nil => rfl
  | cons a l ih => exact (ih _ _).trans (enterAsk_clk key a b s)
@[simp] theorem enterAsks_rf (key : Nat) (l : List Ask) (b : Bool) (s : State) : ((l.foldl (enterAsk key) (s, b)).1).rf = s.rf := by
  induction l generalizing s b with
  | nil => rfl
  | cons a l ih => exact (ih _ _).trans (enterAsk_rf key a b s)
@[simp] theorem enterAsks_links (key : Nat) (l : List Ask) (b : Bool) (s : State) : ((l.foldl (enterAsk key) (s, b)).1).links = s.links := by
  induction l generalizing s b with
  | nil => rfl
  | cons a l ih => exact (ih _ _).trans (enterAsk_links key a b s)
@[simp] theorem enterAsks_carriers (key : Nat) (l : List Ask) (b : Bool) (s : State) : ((l.foldl (enterAsk key) (s, b)).1).carriers = s.carriers := by
  induction l generalizing s b with
  | nil => rfl
  | cons a l ih => exact (ih _ _).trans (enterAsk_carriers key a b s)
@[simp] theorem enterAsks_tx (key : Nat) (l : List Ask) (b : Bool) (s : State) : ((l.foldl (enterAsk key) (s, b)).1).tx = s.tx := by
  induction l generalizing s b with
  | nil => rfl
  | cons a l ih => exact (ih _ _).trans (enterAsk_tx key a b s)
@[simp] theorem enterAsks_cl (key : Nat) (l : List Ask) (b : Bool) (s : State) : ((l.foldl (enterAsk key) (s, b)).1).cl = s.cl := by
  induction l generalizing s b with
  | nil => rfl
  | cons a l ih => exact (ih _ _).trans (enterAsk_cl key a b s)
@[simp] theorem enterAsks_sessions (key : Nat) (l : List Ask) (b : Bool) (s : State) : ((l.foldl (enterAsk key) (s, b)).1).sessions = s.sessions := by
  induction l generalizing s b with
  | nil => rfl
  | cons a l ih => exact (ih _ _).trans (enterAsk_sessions key a b s)
@[simp] theorem enterAsks_audio (key : Nat) (l : List Ask) (b : Bool) (s : State) : ((l.foldl (enterAsk key) (s, b)).1).audio = s.audio := by
  induction l generalizing s b with
  | nil => rfl
  | cons a l ih => exact (ih _ _).trans (enterAsk_audio key a b s)
@[simp] theorem enterAsks_mem (key : Nat) (l : List Ask) (b : Bool) (s : State) : ((l.foldl (enterAsk key) (s, b)).1).mem = s.mem := by
  induction l generalizing s b with
  | nil => rfl
  | cons a l ih => exact (ih _ _).trans (enterAsk_mem key a b s)
@[simp] theorem enterAsks_ana (key : Nat) (l : List Ask) (b : Bool) (s : State) : ((l.foldl (enterAsk key) (s, b)).1).ana = s.ana := by
  induction l generalizing s b with
  | nil => rfl
  | cons a l ih => exact (ih _ _).trans (enterAsk_ana key a b s)
@[simp] theorem enterAsks_inst (key : Nat) (l : List Ask) (b : Bool) (s : State) : ((l.foldl (enterAsk key) (s, b)).1).inst = s.inst := by
  induction l generalizing s b with
  | nil => rfl
  | cons a l ih => exact (ih _ _).trans (enterAsk_inst key a b s)
@[simp] theorem enterAsks_power (key : Nat) (l : List Ask) (b : Bool) (s : State) : ((l.foldl (enterAsk key) (s, b)).1).power = s.power := by
  induction l generalizing s b with
  | nil => rfl
  | cons a l ih => exact (ih _ _).trans (enterAsk_power key a b s)
@[simp] theorem enterAsks_supply (key : Nat) (l : List Ask) (b : Bool) (s : State) : ((l.foldl (enterAsk key) (s, b)).1).supply = s.supply := by
  induction l generalizing s b with
  | nil => rfl
  | cons a l ih => exact (ih _ _).trans (enterAsk_supply key a b s)
@[simp] theorem enterAsks_prot (key : Nat) (l : List Ask) (b : Bool) (s : State) : ((l.foldl (enterAsk key) (s, b)).1).prot = s.prot := by
  induction l generalizing s b with
  | nil => rfl
  | cons a l ih => exact (ih _ _).trans (enterAsk_prot key a b s)
@[simp] theorem enterAsks_age (key : Nat) (l : List Ask) (b : Bool) (s : State) : ((l.foldl (enterAsk key) (s, b)).1).age = s.age := by
  induction l generalizing s b with
  | nil => rfl
  | cons a l ih => exact (ih _ _).trans (enterAsk_age key a b s)
@[simp] theorem enterAsks_rattle (key : Nat) (l : List Ask) (b : Bool) (s : State) : ((l.foldl (enterAsk key) (s, b)).1).rattle = s.rattle := by
  induction l generalizing s b with
  | nil => rfl
  | cons a l ih => exact (ih _ _).trans (enterAsk_rattle key a b s)
@[simp] theorem enterAsks_free (key : Nat) (l : List Ask) (b : Bool) (s : State) : ((l.foldl (enterAsk key) (s, b)).1).free = s.free := by
  induction l generalizing s b with
  | nil => rfl
  | cons a l ih => exact (ih _ _).trans (enterAsk_free key a b s)

@[simp] theorem admitFor_pending (key : Nat) (l : List Ask) (s : State) : ((admitFor key l s).2).pending = s.pending := by
  have h := enterAsks_pending key l true s
  simp only [admitFor]
  split
  · simp
  · split
    · exact h
    · simp
@[simp] theorem admitFor_timebase (key : Nat) (l : List Ask) (s : State) : ((admitFor key l s).2).timebase = s.timebase := by
  have h := enterAsks_timebase key l true s
  simp only [admitFor]
  split
  · simp
  · split
    · exact h
    · simp
@[simp] theorem admitFor_inForce (key : Nat) (l : List Ask) (s : State) : ((admitFor key l s).2).inForce = s.inForce := by
  have h := enterAsks_inForce key l true s
  simp only [admitFor]
  split
  · simp
  · split
    · exact h
    · simp
@[simp] theorem admitFor_op (key : Nat) (l : List Ask) (s : State) : ((admitFor key l s).2).op = s.op := by
  have h := enterAsks_op key l true s
  simp only [admitFor]
  split
  · simp
  · split
    · exact h
    · simp
@[simp] theorem admitFor_cu (key : Nat) (l : List Ask) (s : State) : ((admitFor key l s).2).cu = s.cu := by
  have h := enterAsks_cu key l true s
  simp only [admitFor]
  split
  · simp
  · split
    · exact h
    · simp
@[simp] theorem admitFor_waiting (key : Nat) (l : List Ask) (s : State) : ((admitFor key l s).2).waiting = s.waiting := by
  have h := enterAsks_waiting key l true s
  simp only [admitFor]
  split
  · simp
  · split
    · exact h
    · simp
@[simp] theorem admitFor_running (key : Nat) (l : List Ask) (s : State) : ((admitFor key l s).2).running = s.running := by
  have h := enterAsks_running key l true s
  simp only [admitFor]
  split
  · simp
  · split
    · exact h
    · simp
@[simp] theorem admitFor_seq (key : Nat) (l : List Ask) (s : State) : ((admitFor key l s).2).seq = s.seq := by
  have h := enterAsks_seq key l true s
  simp only [admitFor]
  split
  · simp
  · split
    · exact h
    · simp
@[simp] theorem admitFor_alarm (key : Nat) (l : List Ask) (s : State) : ((admitFor key l s).2).alarm = s.alarm := by
  have h := enterAsks_alarm key l true s
  simp only [admitFor]
  split
  · simp
  · split
    · exact h
    · simp
@[simp] theorem admitFor_clk (key : Nat) (l : List Ask) (s : State) : ((admitFor key l s).2).clk = s.clk := by
  have h := enterAsks_clk key l true s
  simp only [admitFor]
  split
  · simp
  · split
    · exact h
    · simp
@[simp] theorem admitFor_rf (key : Nat) (l : List Ask) (s : State) : ((admitFor key l s).2).rf = s.rf := by
  have h := enterAsks_rf key l true s
  simp only [admitFor]
  split
  · simp
  · split
    · exact h
    · simp
@[simp] theorem admitFor_links (key : Nat) (l : List Ask) (s : State) : ((admitFor key l s).2).links = s.links := by
  have h := enterAsks_links key l true s
  simp only [admitFor]
  split
  · simp
  · split
    · exact h
    · simp
@[simp] theorem admitFor_carriers (key : Nat) (l : List Ask) (s : State) : ((admitFor key l s).2).carriers = s.carriers := by
  have h := enterAsks_carriers key l true s
  simp only [admitFor]
  split
  · simp
  · split
    · exact h
    · simp
@[simp] theorem admitFor_tx (key : Nat) (l : List Ask) (s : State) : ((admitFor key l s).2).tx = s.tx := by
  have h := enterAsks_tx key l true s
  simp only [admitFor]
  split
  · simp
  · split
    · exact h
    · simp
@[simp] theorem admitFor_cl (key : Nat) (l : List Ask) (s : State) : ((admitFor key l s).2).cl = s.cl := by
  have h := enterAsks_cl key l true s
  simp only [admitFor]
  split
  · simp
  · split
    · exact h
    · simp
@[simp] theorem admitFor_sessions (key : Nat) (l : List Ask) (s : State) : ((admitFor key l s).2).sessions = s.sessions := by
  have h := enterAsks_sessions key l true s
  simp only [admitFor]
  split
  · simp
  · split
    · exact h
    · simp
@[simp] theorem admitFor_audio (key : Nat) (l : List Ask) (s : State) : ((admitFor key l s).2).audio = s.audio := by
  have h := enterAsks_audio key l true s
  simp only [admitFor]
  split
  · simp
  · split
    · exact h
    · simp
@[simp] theorem admitFor_mem (key : Nat) (l : List Ask) (s : State) : ((admitFor key l s).2).mem = s.mem := by
  have h := enterAsks_mem key l true s
  simp only [admitFor]
  split
  · simp
  · split
    · exact h
    · simp
@[simp] theorem admitFor_ana (key : Nat) (l : List Ask) (s : State) : ((admitFor key l s).2).ana = s.ana := by
  have h := enterAsks_ana key l true s
  simp only [admitFor]
  split
  · simp
  · split
    · exact h
    · simp
@[simp] theorem admitFor_inst (key : Nat) (l : List Ask) (s : State) : ((admitFor key l s).2).inst = s.inst := by
  have h := enterAsks_inst key l true s
  simp only [admitFor]
  split
  · simp
  · split
    · exact h
    · simp
@[simp] theorem admitFor_power (key : Nat) (l : List Ask) (s : State) : ((admitFor key l s).2).power = s.power := by
  have h := enterAsks_power key l true s
  simp only [admitFor]
  split
  · simp
  · split
    · exact h
    · simp
@[simp] theorem admitFor_supply (key : Nat) (l : List Ask) (s : State) : ((admitFor key l s).2).supply = s.supply := by
  have h := enterAsks_supply key l true s
  simp only [admitFor]
  split
  · simp
  · split
    · exact h
    · simp
@[simp] theorem admitFor_prot (key : Nat) (l : List Ask) (s : State) : ((admitFor key l s).2).prot = s.prot := by
  have h := enterAsks_prot key l true s
  simp only [admitFor]
  split
  · simp
  · split
    · exact h
    · simp
@[simp] theorem admitFor_age (key : Nat) (l : List Ask) (s : State) : ((admitFor key l s).2).age = s.age := by
  have h := enterAsks_age key l true s
  simp only [admitFor]
  split
  · simp
  · split
    · exact h
    · simp
@[simp] theorem admitFor_rattle (key : Nat) (l : List Ask) (s : State) : ((admitFor key l s).2).rattle = s.rattle := by
  have h := enterAsks_rattle key l true s
  simp only [admitFor]
  split
  · simp
  · split
    · exact h
    · simp
@[simp] theorem admitFor_free (key : Nat) (l : List Ask) (s : State) : ((admitFor key l s).2).free = s.free := by
  have h := enterAsks_free key l true s
  simp only [admitFor]
  split
  · simp
  · split
    · exact h
    · simp

@[simp] theorem commitFor_pending (key : Nat) (mine : WorkRef → Bool) (s : State) : (commitFor key mine s).pending = s.pending := by
  unfold commitFor
  refine (each_field State.pending _ _ _ (fun x s => ?_)).trans (by simp)
  split
  · split <;> simp
  · rfl
@[simp] theorem commitFor_timebase (key : Nat) (mine : WorkRef → Bool) (s : State) : (commitFor key mine s).timebase = s.timebase := by
  unfold commitFor
  refine (each_field State.timebase _ _ _ (fun x s => ?_)).trans (by simp)
  split
  · split <;> simp
  · rfl
@[simp] theorem commitFor_par (key : Nat) (mine : WorkRef → Bool) (s : State) : (commitFor key mine s).par = s.par := by
  unfold commitFor
  refine (each_field State.par _ _ _ (fun x s => ?_)).trans (by simp)
  split
  · split <;> simp
  · rfl
@[simp] theorem commitFor_inForce (key : Nat) (mine : WorkRef → Bool) (s : State) : (commitFor key mine s).inForce = s.inForce := by
  unfold commitFor
  refine (each_field State.inForce _ _ _ (fun x s => ?_)).trans (by simp)
  split
  · split <;> simp
  · rfl
@[simp] theorem commitFor_op (key : Nat) (mine : WorkRef → Bool) (s : State) : (commitFor key mine s).op = s.op := by
  unfold commitFor
  refine (each_field State.op _ _ _ (fun x s => ?_)).trans (by simp)
  split
  · split <;> simp
  · rfl
@[simp] theorem commitFor_cu (key : Nat) (mine : WorkRef → Bool) (s : State) : (commitFor key mine s).cu = s.cu := by
  unfold commitFor
  refine (each_field State.cu _ _ _ (fun x s => ?_)).trans (by simp)
  split
  · split <;> simp
  · rfl
@[simp] theorem commitFor_waiting (key : Nat) (mine : WorkRef → Bool) (s : State) : (commitFor key mine s).waiting = s.waiting := by
  unfold commitFor
  refine (each_field State.waiting _ _ _ (fun x s => ?_)).trans (by simp)
  split
  · split <;> simp
  · rfl
@[simp] theorem commitFor_running (key : Nat) (mine : WorkRef → Bool) (s : State) : (commitFor key mine s).running = s.running := by
  unfold commitFor
  refine (each_field State.running _ _ _ (fun x s => ?_)).trans (by simp)
  split
  · split <;> simp
  · rfl
@[simp] theorem commitFor_events (key : Nat) (mine : WorkRef → Bool) (s : State) : (commitFor key mine s).events = s.events := by
  unfold commitFor
  refine (each_field State.events _ _ _ (fun x s => ?_)).trans (by simp)
  split
  · split <;> simp
  · rfl
@[simp] theorem commitFor_front (key : Nat) (mine : WorkRef → Bool) (s : State) : (commitFor key mine s).front = s.front := by
  unfold commitFor
  refine (each_field State.front _ _ _ (fun x s => ?_)).trans (by simp)
  split
  · split <;> simp
  · rfl
@[simp] theorem commitFor_seq (key : Nat) (mine : WorkRef → Bool) (s : State) : (commitFor key mine s).seq = s.seq := by
  unfold commitFor
  refine (each_field State.seq _ _ _ (fun x s => ?_)).trans (by simp)
  split
  · split <;> simp
  · rfl
@[simp] theorem commitFor_alarm (key : Nat) (mine : WorkRef → Bool) (s : State) : (commitFor key mine s).alarm = s.alarm := by
  unfold commitFor
  refine (each_field State.alarm _ _ _ (fun x s => ?_)).trans (by simp)
  split
  · split <;> simp
  · rfl
@[simp] theorem commitFor_clk (key : Nat) (mine : WorkRef → Bool) (s : State) : (commitFor key mine s).clk = s.clk := by
  unfold commitFor
  refine (each_field State.clk _ _ _ (fun x s => ?_)).trans (by simp)
  split
  · split <;> simp
  · rfl
@[simp] theorem commitFor_rf (key : Nat) (mine : WorkRef → Bool) (s : State) : (commitFor key mine s).rf = s.rf := by
  unfold commitFor
  refine (each_field State.rf _ _ _ (fun x s => ?_)).trans (by simp)
  split
  · split <;> simp
  · rfl
@[simp] theorem commitFor_links (key : Nat) (mine : WorkRef → Bool) (s : State) : (commitFor key mine s).links = s.links := by
  unfold commitFor
  refine (each_field State.links _ _ _ (fun x s => ?_)).trans (by simp)
  split
  · split <;> simp
  · rfl
@[simp] theorem commitFor_carriers (key : Nat) (mine : WorkRef → Bool) (s : State) : (commitFor key mine s).carriers = s.carriers := by
  unfold commitFor
  refine (each_field State.carriers _ _ _ (fun x s => ?_)).trans (by simp)
  split
  · split <;> simp
  · rfl
@[simp] theorem commitFor_tx (key : Nat) (mine : WorkRef → Bool) (s : State) : (commitFor key mine s).tx = s.tx := by
  unfold commitFor
  refine (each_field State.tx _ _ _ (fun x s => ?_)).trans (by simp)
  split
  · split <;> simp
  · rfl
@[simp] theorem commitFor_cl (key : Nat) (mine : WorkRef → Bool) (s : State) : (commitFor key mine s).cl = s.cl := by
  unfold commitFor
  refine (each_field State.cl _ _ _ (fun x s => ?_)).trans (by simp)
  split
  · split <;> simp
  · rfl
@[simp] theorem commitFor_sessions (key : Nat) (mine : WorkRef → Bool) (s : State) : (commitFor key mine s).sessions = s.sessions := by
  unfold commitFor
  refine (each_field State.sessions _ _ _ (fun x s => ?_)).trans (by simp)
  split
  · split <;> simp
  · rfl
@[simp] theorem commitFor_audio (key : Nat) (mine : WorkRef → Bool) (s : State) : (commitFor key mine s).audio = s.audio := by
  unfold commitFor
  refine (each_field State.audio _ _ _ (fun x s => ?_)).trans (by simp)
  split
  · split <;> simp
  · rfl
@[simp] theorem commitFor_mem (key : Nat) (mine : WorkRef → Bool) (s : State) : (commitFor key mine s).mem = s.mem := by
  unfold commitFor
  refine (each_field State.mem _ _ _ (fun x s => ?_)).trans (by simp)
  split
  · split <;> simp
  · rfl
@[simp] theorem commitFor_ana (key : Nat) (mine : WorkRef → Bool) (s : State) : (commitFor key mine s).ana = s.ana := by
  unfold commitFor
  refine (each_field State.ana _ _ _ (fun x s => ?_)).trans (by simp)
  split
  · split <;> simp
  · rfl
@[simp] theorem commitFor_inst (key : Nat) (mine : WorkRef → Bool) (s : State) : (commitFor key mine s).inst = s.inst := by
  unfold commitFor
  refine (each_field State.inst _ _ _ (fun x s => ?_)).trans (by simp)
  split
  · split <;> simp
  · rfl
@[simp] theorem commitFor_tw (key : Nat) (mine : WorkRef → Bool) (s : State) : (commitFor key mine s).tw = s.tw := by
  unfold commitFor
  refine (each_field State.tw _ _ _ (fun x s => ?_)).trans (by simp)
  split
  · split <;> simp
  · rfl
@[simp] theorem commitFor_power (key : Nat) (mine : WorkRef → Bool) (s : State) : (commitFor key mine s).power = s.power := by
  unfold commitFor
  refine (each_field State.power _ _ _ (fun x s => ?_)).trans (by simp)
  split
  · split <;> simp
  · rfl
@[simp] theorem commitFor_supply (key : Nat) (mine : WorkRef → Bool) (s : State) : (commitFor key mine s).supply = s.supply := by
  unfold commitFor
  refine (each_field State.supply _ _ _ (fun x s => ?_)).trans (by simp)
  split
  · split <;> simp
  · rfl
@[simp] theorem commitFor_prot (key : Nat) (mine : WorkRef → Bool) (s : State) : (commitFor key mine s).prot = s.prot := by
  unfold commitFor
  refine (each_field State.prot _ _ _ (fun x s => ?_)).trans (by simp)
  split
  · split <;> simp
  · rfl
@[simp] theorem commitFor_age (key : Nat) (mine : WorkRef → Bool) (s : State) : (commitFor key mine s).age = s.age := by
  unfold commitFor
  refine (each_field State.age _ _ _ (fun x s => ?_)).trans (by simp)
  split
  · split <;> simp
  · rfl
@[simp] theorem commitFor_rattle (key : Nat) (mine : WorkRef → Bool) (s : State) : (commitFor key mine s).rattle = s.rattle := by
  unfold commitFor
  refine (each_field State.rattle _ _ _ (fun x s => ?_)).trans (by simp)
  split
  · split <;> simp
  · rfl
@[simp] theorem commitFor_free (key : Nat) (mine : WorkRef → Bool) (s : State) : (commitFor key mine s).free = s.free := by
  unfold commitFor
  refine (each_field State.free _ _ _ (fun x s => ?_)).trans (by simp)
  split
  · split <;> simp
  · rfl

@[simp] theorem dropFor_pending (key : Nat) (mine : WorkRef → Bool) (s : State) : (dropFor key mine s).pending = s.pending := by
  unfold dropFor
  refine (each_field State.pending _ _ _ (fun x s => ?_)).trans (by simp)
  split <;> simp
@[simp] theorem dropFor_timebase (key : Nat) (mine : WorkRef → Bool) (s : State) : (dropFor key mine s).timebase = s.timebase := by
  unfold dropFor
  refine (each_field State.timebase _ _ _ (fun x s => ?_)).trans (by simp)
  split <;> simp
@[simp] theorem dropFor_inForce (key : Nat) (mine : WorkRef → Bool) (s : State) : (dropFor key mine s).inForce = s.inForce := by
  unfold dropFor
  refine (each_field State.inForce _ _ _ (fun x s => ?_)).trans (by simp)
  split <;> simp
@[simp] theorem dropFor_op (key : Nat) (mine : WorkRef → Bool) (s : State) : (dropFor key mine s).op = s.op := by
  unfold dropFor
  refine (each_field State.op _ _ _ (fun x s => ?_)).trans (by simp)
  split <;> simp
@[simp] theorem dropFor_cu (key : Nat) (mine : WorkRef → Bool) (s : State) : (dropFor key mine s).cu = s.cu := by
  unfold dropFor
  refine (each_field State.cu _ _ _ (fun x s => ?_)).trans (by simp)
  split <;> simp
@[simp] theorem dropFor_waiting (key : Nat) (mine : WorkRef → Bool) (s : State) : (dropFor key mine s).waiting = s.waiting := by
  unfold dropFor
  refine (each_field State.waiting _ _ _ (fun x s => ?_)).trans (by simp)
  split <;> simp
@[simp] theorem dropFor_running (key : Nat) (mine : WorkRef → Bool) (s : State) : (dropFor key mine s).running = s.running := by
  unfold dropFor
  refine (each_field State.running _ _ _ (fun x s => ?_)).trans (by simp)
  split <;> simp
@[simp] theorem dropFor_seq (key : Nat) (mine : WorkRef → Bool) (s : State) : (dropFor key mine s).seq = s.seq := by
  unfold dropFor
  refine (each_field State.seq _ _ _ (fun x s => ?_)).trans (by simp)
  split <;> simp
@[simp] theorem dropFor_alarm (key : Nat) (mine : WorkRef → Bool) (s : State) : (dropFor key mine s).alarm = s.alarm := by
  unfold dropFor
  refine (each_field State.alarm _ _ _ (fun x s => ?_)).trans (by simp)
  split <;> simp
@[simp] theorem dropFor_clk (key : Nat) (mine : WorkRef → Bool) (s : State) : (dropFor key mine s).clk = s.clk := by
  unfold dropFor
  refine (each_field State.clk _ _ _ (fun x s => ?_)).trans (by simp)
  split <;> simp
@[simp] theorem dropFor_rf (key : Nat) (mine : WorkRef → Bool) (s : State) : (dropFor key mine s).rf = s.rf := by
  unfold dropFor
  refine (each_field State.rf _ _ _ (fun x s => ?_)).trans (by simp)
  split <;> simp
@[simp] theorem dropFor_links (key : Nat) (mine : WorkRef → Bool) (s : State) : (dropFor key mine s).links = s.links := by
  unfold dropFor
  refine (each_field State.links _ _ _ (fun x s => ?_)).trans (by simp)
  split <;> simp
@[simp] theorem dropFor_carriers (key : Nat) (mine : WorkRef → Bool) (s : State) : (dropFor key mine s).carriers = s.carriers := by
  unfold dropFor
  refine (each_field State.carriers _ _ _ (fun x s => ?_)).trans (by simp)
  split <;> simp
@[simp] theorem dropFor_tx (key : Nat) (mine : WorkRef → Bool) (s : State) : (dropFor key mine s).tx = s.tx := by
  unfold dropFor
  refine (each_field State.tx _ _ _ (fun x s => ?_)).trans (by simp)
  split <;> simp
@[simp] theorem dropFor_cl (key : Nat) (mine : WorkRef → Bool) (s : State) : (dropFor key mine s).cl = s.cl := by
  unfold dropFor
  refine (each_field State.cl _ _ _ (fun x s => ?_)).trans (by simp)
  split <;> simp
@[simp] theorem dropFor_sessions (key : Nat) (mine : WorkRef → Bool) (s : State) : (dropFor key mine s).sessions = s.sessions := by
  unfold dropFor
  refine (each_field State.sessions _ _ _ (fun x s => ?_)).trans (by simp)
  split <;> simp
@[simp] theorem dropFor_audio (key : Nat) (mine : WorkRef → Bool) (s : State) : (dropFor key mine s).audio = s.audio := by
  unfold dropFor
  refine (each_field State.audio _ _ _ (fun x s => ?_)).trans (by simp)
  split <;> simp
@[simp] theorem dropFor_mem (key : Nat) (mine : WorkRef → Bool) (s : State) : (dropFor key mine s).mem = s.mem := by
  unfold dropFor
  refine (each_field State.mem _ _ _ (fun x s => ?_)).trans (by simp)
  split <;> simp
@[simp] theorem dropFor_ana (key : Nat) (mine : WorkRef → Bool) (s : State) : (dropFor key mine s).ana = s.ana := by
  unfold dropFor
  refine (each_field State.ana _ _ _ (fun x s => ?_)).trans (by simp)
  split <;> simp
@[simp] theorem dropFor_inst (key : Nat) (mine : WorkRef → Bool) (s : State) : (dropFor key mine s).inst = s.inst := by
  unfold dropFor
  refine (each_field State.inst _ _ _ (fun x s => ?_)).trans (by simp)
  split <;> simp
@[simp] theorem dropFor_power (key : Nat) (mine : WorkRef → Bool) (s : State) : (dropFor key mine s).power = s.power := by
  unfold dropFor
  refine (each_field State.power _ _ _ (fun x s => ?_)).trans (by simp)
  split <;> simp
@[simp] theorem dropFor_supply (key : Nat) (mine : WorkRef → Bool) (s : State) : (dropFor key mine s).supply = s.supply := by
  unfold dropFor
  refine (each_field State.supply _ _ _ (fun x s => ?_)).trans (by simp)
  split <;> simp
@[simp] theorem dropFor_prot (key : Nat) (mine : WorkRef → Bool) (s : State) : (dropFor key mine s).prot = s.prot := by
  unfold dropFor
  refine (each_field State.prot _ _ _ (fun x s => ?_)).trans (by simp)
  split <;> simp
@[simp] theorem dropFor_age (key : Nat) (mine : WorkRef → Bool) (s : State) : (dropFor key mine s).age = s.age := by
  unfold dropFor
  refine (each_field State.age _ _ _ (fun x s => ?_)).trans (by simp)
  split <;> simp
@[simp] theorem dropFor_rattle (key : Nat) (mine : WorkRef → Bool) (s : State) : (dropFor key mine s).rattle = s.rattle := by
  unfold dropFor
  refine (each_field State.rattle _ _ _ (fun x s => ?_)).trans (by simp)
  split <;> simp
@[simp] theorem dropFor_free (key : Nat) (mine : WorkRef → Bool) (s : State) : (dropFor key mine s).free = s.free := by
  unfold dropFor
  refine (each_field State.free _ _ _ (fun x s => ?_)).trans (by simp)
  split <;> simp

@[simp] theorem endWork_pending (w : WorkRef) (s : State) : (endWork w s).pending = s.pending := by unfold endWork; split <;> simp
@[simp] theorem endWork_timebase (w : WorkRef) (s : State) : (endWork w s).timebase = s.timebase := by unfold endWork; split <;> simp
@[simp] theorem endWork_par (w : WorkRef) (s : State) : (endWork w s).par = s.par := by unfold endWork; split <;> simp
@[simp] theorem endWork_inForce (w : WorkRef) (s : State) : (endWork w s).inForce = s.inForce := by unfold endWork; split <;> simp
@[simp] theorem endWork_op (w : WorkRef) (s : State) : (endWork w s).op = s.op := by unfold endWork; split <;> simp
@[simp] theorem endWork_cu (w : WorkRef) (s : State) : (endWork w s).cu = s.cu := by unfold endWork; split <;> simp
@[simp] theorem endWork_waiting (w : WorkRef) (s : State) : (endWork w s).waiting = s.waiting := by unfold endWork; split <;> simp
@[simp] theorem endWork_running (w : WorkRef) (s : State) : (endWork w s).running = s.running := by unfold endWork; split <;> simp
@[simp] theorem endWork_events (w : WorkRef) (s : State) : (endWork w s).events = s.events := by unfold endWork; split <;> simp
@[simp] theorem endWork_front (w : WorkRef) (s : State) : (endWork w s).front = s.front := by unfold endWork; split <;> simp
@[simp] theorem endWork_seq (w : WorkRef) (s : State) : (endWork w s).seq = s.seq := by unfold endWork; split <;> simp
@[simp] theorem endWork_alarm (w : WorkRef) (s : State) : (endWork w s).alarm = s.alarm := by unfold endWork; split <;> simp
@[simp] theorem endWork_clk (w : WorkRef) (s : State) : (endWork w s).clk = s.clk := by unfold endWork; split <;> simp
@[simp] theorem endWork_rf (w : WorkRef) (s : State) : (endWork w s).rf = s.rf := by unfold endWork; split <;> simp
@[simp] theorem endWork_links (w : WorkRef) (s : State) : (endWork w s).links = s.links := by unfold endWork; split <;> simp
@[simp] theorem endWork_carriers (w : WorkRef) (s : State) : (endWork w s).carriers = s.carriers := by unfold endWork; split <;> simp
@[simp] theorem endWork_tx (w : WorkRef) (s : State) : (endWork w s).tx = s.tx := by unfold endWork; split <;> simp
@[simp] theorem endWork_cl (w : WorkRef) (s : State) : (endWork w s).cl = s.cl := by unfold endWork; split <;> simp
@[simp] theorem endWork_sessions (w : WorkRef) (s : State) : (endWork w s).sessions = s.sessions := by unfold endWork; split <;> simp
@[simp] theorem endWork_rods (w : WorkRef) (s : State) : (endWork w s).rods = s.rods := by unfold endWork; split <;> simp
@[simp] theorem endWork_audio (w : WorkRef) (s : State) : (endWork w s).audio = s.audio := by unfold endWork; split <;> simp
@[simp] theorem endWork_mem (w : WorkRef) (s : State) : (endWork w s).mem = s.mem := by unfold endWork; split <;> simp
@[simp] theorem endWork_ana (w : WorkRef) (s : State) : (endWork w s).ana = s.ana := by unfold endWork; split <;> simp
@[simp] theorem endWork_inst (w : WorkRef) (s : State) : (endWork w s).inst = s.inst := by unfold endWork; split <;> simp
@[simp] theorem endWork_tw (w : WorkRef) (s : State) : (endWork w s).tw = s.tw := by unfold endWork; split <;> simp
@[simp] theorem endWork_power (w : WorkRef) (s : State) : (endWork w s).power = s.power := by unfold endWork; split <;> simp
@[simp] theorem endWork_supply (w : WorkRef) (s : State) : (endWork w s).supply = s.supply := by unfold endWork; split <;> simp
@[simp] theorem endWork_prot (w : WorkRef) (s : State) : (endWork w s).prot = s.prot := by unfold endWork; split <;> simp
@[simp] theorem endWork_age (w : WorkRef) (s : State) : (endWork w s).age = s.age := by unfold endWork; split <;> simp
@[simp] theorem endWork_rattle (w : WorkRef) (s : State) : (endWork w s).rattle = s.rattle := by unfold endWork; split <;> simp
@[simp] theorem endWork_free (w : WorkRef) (s : State) : (endWork w s).free = s.free := by unfold endWork; split <;> simp

@[simp] theorem startLock_pending (id f : Nat) (s : State) : (startLock id f s).pending = s.pending := by
  unfold startLock
  by_cases h1 : id = 1
  · rw [if_pos h1, parSet_pending, parSet_pending, onSynth_pending]
  · rw [if_neg h1]
    by_cases h2 : id = 2
    · rw [if_pos h2, parSet_pending, parSet_pending, onSynth_pending]
    · rw [if_neg h2, onSynth_pending]
@[simp] theorem startLock_timebase (id f : Nat) (s : State) : (startLock id f s).timebase = s.timebase := by
  unfold startLock
  by_cases h1 : id = 1
  · rw [if_pos h1, parSet_timebase, parSet_timebase, onSynth_timebase]
  · rw [if_neg h1]
    by_cases h2 : id = 2
    · rw [if_pos h2, parSet_timebase, parSet_timebase, onSynth_timebase]
    · rw [if_neg h2, onSynth_timebase]
@[simp] theorem startLock_inForce (id f : Nat) (s : State) : (startLock id f s).inForce = s.inForce := by
  unfold startLock
  by_cases h1 : id = 1
  · rw [if_pos h1, parSet_inForce, parSet_inForce, onSynth_inForce]
  · rw [if_neg h1]
    by_cases h2 : id = 2
    · rw [if_pos h2, parSet_inForce, parSet_inForce, onSynth_inForce]
    · rw [if_neg h2, onSynth_inForce]
@[simp] theorem startLock_op (id f : Nat) (s : State) : (startLock id f s).op = s.op := by
  unfold startLock
  by_cases h1 : id = 1
  · rw [if_pos h1, parSet_op, parSet_op, onSynth_op]
  · rw [if_neg h1]
    by_cases h2 : id = 2
    · rw [if_pos h2, parSet_op, parSet_op, onSynth_op]
    · rw [if_neg h2, onSynth_op]
@[simp] theorem startLock_cu (id f : Nat) (s : State) : (startLock id f s).cu = s.cu := by
  unfold startLock
  by_cases h1 : id = 1
  · rw [if_pos h1, parSet_cu, parSet_cu, onSynth_cu]
  · rw [if_neg h1]
    by_cases h2 : id = 2
    · rw [if_pos h2, parSet_cu, parSet_cu, onSynth_cu]
    · rw [if_neg h2, onSynth_cu]
@[simp] theorem startLock_waiting (id f : Nat) (s : State) : (startLock id f s).waiting = s.waiting := by
  unfold startLock
  by_cases h1 : id = 1
  · rw [if_pos h1, parSet_waiting, parSet_waiting, onSynth_waiting]
  · rw [if_neg h1]
    by_cases h2 : id = 2
    · rw [if_pos h2, parSet_waiting, parSet_waiting, onSynth_waiting]
    · rw [if_neg h2, onSynth_waiting]
@[simp] theorem startLock_running (id f : Nat) (s : State) : (startLock id f s).running = s.running := by
  unfold startLock
  by_cases h1 : id = 1
  · rw [if_pos h1, parSet_running, parSet_running, onSynth_running]
  · rw [if_neg h1]
    by_cases h2 : id = 2
    · rw [if_pos h2, parSet_running, parSet_running, onSynth_running]
    · rw [if_neg h2, onSynth_running]
@[simp] theorem startLock_events (id f : Nat) (s : State) : (startLock id f s).events = s.events := by
  unfold startLock
  by_cases h1 : id = 1
  · rw [if_pos h1, parSet_events, parSet_events, onSynth_events]
  · rw [if_neg h1]
    by_cases h2 : id = 2
    · rw [if_pos h2, parSet_events, parSet_events, onSynth_events]
    · rw [if_neg h2, onSynth_events]
@[simp] theorem startLock_front (id f : Nat) (s : State) : (startLock id f s).front = s.front := by
  unfold startLock
  by_cases h1 : id = 1
  · rw [if_pos h1, parSet_front, parSet_front, onSynth_front]
  · rw [if_neg h1]
    by_cases h2 : id = 2
    · rw [if_pos h2, parSet_front, parSet_front, onSynth_front]
    · rw [if_neg h2, onSynth_front]
@[simp] theorem startLock_seq (id f : Nat) (s : State) : (startLock id f s).seq = s.seq := by
  unfold startLock
  by_cases h1 : id = 1
  · rw [if_pos h1, parSet_seq, parSet_seq, onSynth_seq]
  · rw [if_neg h1]
    by_cases h2 : id = 2
    · rw [if_pos h2, parSet_seq, parSet_seq, onSynth_seq]
    · rw [if_neg h2, onSynth_seq]
@[simp] theorem startLock_alarm (id f : Nat) (s : State) : (startLock id f s).alarm = s.alarm := by
  unfold startLock
  by_cases h1 : id = 1
  · rw [if_pos h1, parSet_alarm, parSet_alarm, onSynth_alarm]
  · rw [if_neg h1]
    by_cases h2 : id = 2
    · rw [if_pos h2, parSet_alarm, parSet_alarm, onSynth_alarm]
    · rw [if_neg h2, onSynth_alarm]
@[simp] theorem startLock_rck (id f : Nat) (s : State) : (startLock id f s).rck = s.rck := by
  unfold startLock
  by_cases h1 : id = 1
  · rw [if_pos h1, parSet_rck, parSet_rck, onSynth_rck]
  · rw [if_neg h1]
    by_cases h2 : id = 2
    · rw [if_pos h2, parSet_rck, parSet_rck, onSynth_rck]
    · rw [if_neg h2, onSynth_rck]
@[simp] theorem startLock_rf (id f : Nat) (s : State) : (startLock id f s).rf = s.rf := by
  unfold startLock
  by_cases h1 : id = 1
  · rw [if_pos h1, parSet_rf, parSet_rf, onSynth_rf]
  · rw [if_neg h1]
    by_cases h2 : id = 2
    · rw [if_pos h2, parSet_rf, parSet_rf, onSynth_rf]
    · rw [if_neg h2, onSynth_rf]
@[simp] theorem startLock_links (id f : Nat) (s : State) : (startLock id f s).links = s.links := by
  unfold startLock
  by_cases h1 : id = 1
  · rw [if_pos h1, parSet_links, parSet_links, onSynth_links]
  · rw [if_neg h1]
    by_cases h2 : id = 2
    · rw [if_pos h2, parSet_links, parSet_links, onSynth_links]
    · rw [if_neg h2, onSynth_links]
@[simp] theorem startLock_carriers (id f : Nat) (s : State) : (startLock id f s).carriers = s.carriers := by
  unfold startLock
  by_cases h1 : id = 1
  · rw [if_pos h1, parSet_carriers, parSet_carriers, onSynth_carriers]
  · rw [if_neg h1]
    by_cases h2 : id = 2
    · rw [if_pos h2, parSet_carriers, parSet_carriers, onSynth_carriers]
    · rw [if_neg h2, onSynth_carriers]
@[simp] theorem startLock_tx (id f : Nat) (s : State) : (startLock id f s).tx = s.tx := by
  unfold startLock
  by_cases h1 : id = 1
  · rw [if_pos h1, parSet_tx, parSet_tx, onSynth_tx]
  · rw [if_neg h1]
    by_cases h2 : id = 2
    · rw [if_pos h2, parSet_tx, parSet_tx, onSynth_tx]
    · rw [if_neg h2, onSynth_tx]
@[simp] theorem startLock_cl (id f : Nat) (s : State) : (startLock id f s).cl = s.cl := by
  unfold startLock
  by_cases h1 : id = 1
  · rw [if_pos h1, parSet_cl, parSet_cl, onSynth_cl]
  · rw [if_neg h1]
    by_cases h2 : id = 2
    · rw [if_pos h2, parSet_cl, parSet_cl, onSynth_cl]
    · rw [if_neg h2, onSynth_cl]
@[simp] theorem startLock_sessions (id f : Nat) (s : State) : (startLock id f s).sessions = s.sessions := by
  unfold startLock
  by_cases h1 : id = 1
  · rw [if_pos h1, parSet_sessions, parSet_sessions, onSynth_sessions]
  · rw [if_neg h1]
    by_cases h2 : id = 2
    · rw [if_pos h2, parSet_sessions, parSet_sessions, onSynth_sessions]
    · rw [if_neg h2, onSynth_sessions]
@[simp] theorem startLock_rods (id f : Nat) (s : State) : (startLock id f s).rods = s.rods := by
  unfold startLock
  by_cases h1 : id = 1
  · rw [if_pos h1, parSet_rods, parSet_rods, onSynth_rods]
  · rw [if_neg h1]
    by_cases h2 : id = 2
    · rw [if_pos h2, parSet_rods, parSet_rods, onSynth_rods]
    · rw [if_neg h2, onSynth_rods]
@[simp] theorem startLock_audio (id f : Nat) (s : State) : (startLock id f s).audio = s.audio := by
  unfold startLock
  by_cases h1 : id = 1
  · rw [if_pos h1, parSet_audio, parSet_audio, onSynth_audio]
  · rw [if_neg h1]
    by_cases h2 : id = 2
    · rw [if_pos h2, parSet_audio, parSet_audio, onSynth_audio]
    · rw [if_neg h2, onSynth_audio]
@[simp] theorem startLock_mem (id f : Nat) (s : State) : (startLock id f s).mem = s.mem := by
  unfold startLock
  by_cases h1 : id = 1
  · rw [if_pos h1, parSet_mem, parSet_mem, onSynth_mem]
  · rw [if_neg h1]
    by_cases h2 : id = 2
    · rw [if_pos h2, parSet_mem, parSet_mem, onSynth_mem]
    · rw [if_neg h2, onSynth_mem]
@[simp] theorem startLock_ana (id f : Nat) (s : State) : (startLock id f s).ana = s.ana := by
  unfold startLock
  by_cases h1 : id = 1
  · rw [if_pos h1, parSet_ana, parSet_ana, onSynth_ana]
  · rw [if_neg h1]
    by_cases h2 : id = 2
    · rw [if_pos h2, parSet_ana, parSet_ana, onSynth_ana]
    · rw [if_neg h2, onSynth_ana]
@[simp] theorem startLock_inst (id f : Nat) (s : State) : (startLock id f s).inst = s.inst := by
  unfold startLock
  by_cases h1 : id = 1
  · rw [if_pos h1, parSet_inst, parSet_inst, onSynth_inst]
  · rw [if_neg h1]
    by_cases h2 : id = 2
    · rw [if_pos h2, parSet_inst, parSet_inst, onSynth_inst]
    · rw [if_neg h2, onSynth_inst]
@[simp] theorem startLock_tw (id f : Nat) (s : State) : (startLock id f s).tw = s.tw := by
  unfold startLock
  by_cases h1 : id = 1
  · rw [if_pos h1, parSet_tw, parSet_tw, onSynth_tw]
  · rw [if_neg h1]
    by_cases h2 : id = 2
    · rw [if_pos h2, parSet_tw, parSet_tw, onSynth_tw]
    · rw [if_neg h2, onSynth_tw]
@[simp] theorem startLock_power (id f : Nat) (s : State) : (startLock id f s).power = s.power := by
  unfold startLock
  by_cases h1 : id = 1
  · rw [if_pos h1, parSet_power, parSet_power, onSynth_power]
  · rw [if_neg h1]
    by_cases h2 : id = 2
    · rw [if_pos h2, parSet_power, parSet_power, onSynth_power]
    · rw [if_neg h2, onSynth_power]
@[simp] theorem startLock_supply (id f : Nat) (s : State) : (startLock id f s).supply = s.supply := by
  unfold startLock
  by_cases h1 : id = 1
  · rw [if_pos h1, parSet_supply, parSet_supply, onSynth_supply]
  · rw [if_neg h1]
    by_cases h2 : id = 2
    · rw [if_pos h2, parSet_supply, parSet_supply, onSynth_supply]
    · rw [if_neg h2, onSynth_supply]
@[simp] theorem startLock_prot (id f : Nat) (s : State) : (startLock id f s).prot = s.prot := by
  unfold startLock
  by_cases h1 : id = 1
  · rw [if_pos h1, parSet_prot, parSet_prot, onSynth_prot]
  · rw [if_neg h1]
    by_cases h2 : id = 2
    · rw [if_pos h2, parSet_prot, parSet_prot, onSynth_prot]
    · rw [if_neg h2, onSynth_prot]
@[simp] theorem startLock_age (id f : Nat) (s : State) : (startLock id f s).age = s.age := by
  unfold startLock
  by_cases h1 : id = 1
  · rw [if_pos h1, parSet_age, parSet_age, onSynth_age]
  · rw [if_neg h1]
    by_cases h2 : id = 2
    · rw [if_pos h2, parSet_age, parSet_age, onSynth_age]
    · rw [if_neg h2, onSynth_age]
@[simp] theorem startLock_rattle (id f : Nat) (s : State) : (startLock id f s).rattle = s.rattle := by
  unfold startLock
  by_cases h1 : id = 1
  · rw [if_pos h1, parSet_rattle, parSet_rattle, onSynth_rattle]
  · rw [if_neg h1]
    by_cases h2 : id = 2
    · rw [if_pos h2, parSet_rattle, parSet_rattle, onSynth_rattle]
    · rw [if_neg h2, onSynth_rattle]
@[simp] theorem startLock_free (id f : Nat) (s : State) : (startLock id f s).free = s.free := by
  unfold startLock
  by_cases h1 : id = 1
  · rw [if_pos h1, parSet_free, parSet_free, onSynth_free]
  · rw [if_neg h1]
    by_cases h2 : id = 2
    · rw [if_pos h2, parSet_free, parSet_free, onSynth_free]
    · rw [if_neg h2, onSynth_free]

@[simp] theorem stopSynth_pending (id : Nat) (s : State) : (stopSynth id s).pending = s.pending := by simp [stopSynth]
@[simp] theorem stopSynth_timebase (id : Nat) (s : State) : (stopSynth id s).timebase = s.timebase := by simp [stopSynth]
@[simp] theorem stopSynth_par (id : Nat) (s : State) : (stopSynth id s).par = s.par := by simp [stopSynth]
@[simp] theorem stopSynth_inForce (id : Nat) (s : State) : (stopSynth id s).inForce = s.inForce := by simp [stopSynth]
@[simp] theorem stopSynth_op (id : Nat) (s : State) : (stopSynth id s).op = s.op := by simp [stopSynth]
@[simp] theorem stopSynth_cu (id : Nat) (s : State) : (stopSynth id s).cu = s.cu := by simp [stopSynth]
@[simp] theorem stopSynth_waiting (id : Nat) (s : State) : (stopSynth id s).waiting = s.waiting := by simp [stopSynth]
@[simp] theorem stopSynth_running (id : Nat) (s : State) : (stopSynth id s).running = s.running := by simp [stopSynth]
@[simp] theorem stopSynth_events (id : Nat) (s : State) : (stopSynth id s).events = s.events := by simp [stopSynth]
@[simp] theorem stopSynth_front (id : Nat) (s : State) : (stopSynth id s).front = s.front := by simp [stopSynth]
@[simp] theorem stopSynth_seq (id : Nat) (s : State) : (stopSynth id s).seq = s.seq := by simp [stopSynth]
@[simp] theorem stopSynth_alarm (id : Nat) (s : State) : (stopSynth id s).alarm = s.alarm := by simp [stopSynth]
@[simp] theorem stopSynth_rck (id : Nat) (s : State) : (stopSynth id s).rck = s.rck := by simp [stopSynth]
@[simp] theorem stopSynth_rf (id : Nat) (s : State) : (stopSynth id s).rf = s.rf := by simp [stopSynth]
@[simp] theorem stopSynth_links (id : Nat) (s : State) : (stopSynth id s).links = s.links := by simp [stopSynth]
@[simp] theorem stopSynth_carriers (id : Nat) (s : State) : (stopSynth id s).carriers = s.carriers := by simp [stopSynth]
@[simp] theorem stopSynth_tx (id : Nat) (s : State) : (stopSynth id s).tx = s.tx := by simp [stopSynth]
@[simp] theorem stopSynth_cl (id : Nat) (s : State) : (stopSynth id s).cl = s.cl := by simp [stopSynth]
@[simp] theorem stopSynth_sessions (id : Nat) (s : State) : (stopSynth id s).sessions = s.sessions := by simp [stopSynth]
@[simp] theorem stopSynth_rods (id : Nat) (s : State) : (stopSynth id s).rods = s.rods := by simp [stopSynth]
@[simp] theorem stopSynth_audio (id : Nat) (s : State) : (stopSynth id s).audio = s.audio := by simp [stopSynth]
@[simp] theorem stopSynth_mem (id : Nat) (s : State) : (stopSynth id s).mem = s.mem := by simp [stopSynth]
@[simp] theorem stopSynth_ana (id : Nat) (s : State) : (stopSynth id s).ana = s.ana := by simp [stopSynth]
@[simp] theorem stopSynth_inst (id : Nat) (s : State) : (stopSynth id s).inst = s.inst := by simp [stopSynth]
@[simp] theorem stopSynth_tw (id : Nat) (s : State) : (stopSynth id s).tw = s.tw := by simp [stopSynth]
@[simp] theorem stopSynth_power (id : Nat) (s : State) : (stopSynth id s).power = s.power := by simp [stopSynth]
@[simp] theorem stopSynth_supply (id : Nat) (s : State) : (stopSynth id s).supply = s.supply := by simp [stopSynth]
@[simp] theorem stopSynth_prot (id : Nat) (s : State) : (stopSynth id s).prot = s.prot := by simp [stopSynth]
@[simp] theorem stopSynth_age (id : Nat) (s : State) : (stopSynth id s).age = s.age := by simp [stopSynth]
@[simp] theorem stopSynth_rattle (id : Nat) (s : State) : (stopSynth id s).rattle = s.rattle := by simp [stopSynth]
@[simp] theorem stopSynth_free (id : Nat) (s : State) : (stopSynth id s).free = s.free := by simp [stopSynth]

@[simp] theorem dropLo_pending (id : Nat) (s : State) : (dropLo id s).pending = s.pending := by
  unfold dropLo
  by_cases h1 : id = 1
  · rw [if_pos h1, parSet_pending, parSet_pending, onSynth_pending]
  · rw [if_neg h1]
    by_cases h2 : id = 2
    · rw [if_pos h2, parSet_pending, parSet_pending, onSynth_pending]
    · rw [if_neg h2, onSynth_pending]
@[simp] theorem dropLo_timebase (id : Nat) (s : State) : (dropLo id s).timebase = s.timebase := by
  unfold dropLo
  by_cases h1 : id = 1
  · rw [if_pos h1, parSet_timebase, parSet_timebase, onSynth_timebase]
  · rw [if_neg h1]
    by_cases h2 : id = 2
    · rw [if_pos h2, parSet_timebase, parSet_timebase, onSynth_timebase]
    · rw [if_neg h2, onSynth_timebase]
@[simp] theorem dropLo_inForce (id : Nat) (s : State) : (dropLo id s).inForce = s.inForce := by
  unfold dropLo
  by_cases h1 : id = 1
  · rw [if_pos h1, parSet_inForce, parSet_inForce, onSynth_inForce]
  · rw [if_neg h1]
    by_cases h2 : id = 2
    · rw [if_pos h2, parSet_inForce, parSet_inForce, onSynth_inForce]
    · rw [if_neg h2, onSynth_inForce]
@[simp] theorem dropLo_op (id : Nat) (s : State) : (dropLo id s).op = s.op := by
  unfold dropLo
  by_cases h1 : id = 1
  · rw [if_pos h1, parSet_op, parSet_op, onSynth_op]
  · rw [if_neg h1]
    by_cases h2 : id = 2
    · rw [if_pos h2, parSet_op, parSet_op, onSynth_op]
    · rw [if_neg h2, onSynth_op]
@[simp] theorem dropLo_cu (id : Nat) (s : State) : (dropLo id s).cu = s.cu := by
  unfold dropLo
  by_cases h1 : id = 1
  · rw [if_pos h1, parSet_cu, parSet_cu, onSynth_cu]
  · rw [if_neg h1]
    by_cases h2 : id = 2
    · rw [if_pos h2, parSet_cu, parSet_cu, onSynth_cu]
    · rw [if_neg h2, onSynth_cu]
@[simp] theorem dropLo_waiting (id : Nat) (s : State) : (dropLo id s).waiting = s.waiting := by
  unfold dropLo
  by_cases h1 : id = 1
  · rw [if_pos h1, parSet_waiting, parSet_waiting, onSynth_waiting]
  · rw [if_neg h1]
    by_cases h2 : id = 2
    · rw [if_pos h2, parSet_waiting, parSet_waiting, onSynth_waiting]
    · rw [if_neg h2, onSynth_waiting]
@[simp] theorem dropLo_running (id : Nat) (s : State) : (dropLo id s).running = s.running := by
  unfold dropLo
  by_cases h1 : id = 1
  · rw [if_pos h1, parSet_running, parSet_running, onSynth_running]
  · rw [if_neg h1]
    by_cases h2 : id = 2
    · rw [if_pos h2, parSet_running, parSet_running, onSynth_running]
    · rw [if_neg h2, onSynth_running]
@[simp] theorem dropLo_events (id : Nat) (s : State) : (dropLo id s).events = s.events := by
  unfold dropLo
  by_cases h1 : id = 1
  · rw [if_pos h1, parSet_events, parSet_events, onSynth_events]
  · rw [if_neg h1]
    by_cases h2 : id = 2
    · rw [if_pos h2, parSet_events, parSet_events, onSynth_events]
    · rw [if_neg h2, onSynth_events]
@[simp] theorem dropLo_front (id : Nat) (s : State) : (dropLo id s).front = s.front := by
  unfold dropLo
  by_cases h1 : id = 1
  · rw [if_pos h1, parSet_front, parSet_front, onSynth_front]
  · rw [if_neg h1]
    by_cases h2 : id = 2
    · rw [if_pos h2, parSet_front, parSet_front, onSynth_front]
    · rw [if_neg h2, onSynth_front]
@[simp] theorem dropLo_seq (id : Nat) (s : State) : (dropLo id s).seq = s.seq := by
  unfold dropLo
  by_cases h1 : id = 1
  · rw [if_pos h1, parSet_seq, parSet_seq, onSynth_seq]
  · rw [if_neg h1]
    by_cases h2 : id = 2
    · rw [if_pos h2, parSet_seq, parSet_seq, onSynth_seq]
    · rw [if_neg h2, onSynth_seq]
@[simp] theorem dropLo_alarm (id : Nat) (s : State) : (dropLo id s).alarm = s.alarm := by
  unfold dropLo
  by_cases h1 : id = 1
  · rw [if_pos h1, parSet_alarm, parSet_alarm, onSynth_alarm]
  · rw [if_neg h1]
    by_cases h2 : id = 2
    · rw [if_pos h2, parSet_alarm, parSet_alarm, onSynth_alarm]
    · rw [if_neg h2, onSynth_alarm]
@[simp] theorem dropLo_rck (id : Nat) (s : State) : (dropLo id s).rck = s.rck := by
  unfold dropLo
  by_cases h1 : id = 1
  · rw [if_pos h1, parSet_rck, parSet_rck, onSynth_rck]
  · rw [if_neg h1]
    by_cases h2 : id = 2
    · rw [if_pos h2, parSet_rck, parSet_rck, onSynth_rck]
    · rw [if_neg h2, onSynth_rck]
@[simp] theorem dropLo_rf (id : Nat) (s : State) : (dropLo id s).rf = s.rf := by
  unfold dropLo
  by_cases h1 : id = 1
  · rw [if_pos h1, parSet_rf, parSet_rf, onSynth_rf]
  · rw [if_neg h1]
    by_cases h2 : id = 2
    · rw [if_pos h2, parSet_rf, parSet_rf, onSynth_rf]
    · rw [if_neg h2, onSynth_rf]
@[simp] theorem dropLo_links (id : Nat) (s : State) : (dropLo id s).links = s.links := by
  unfold dropLo
  by_cases h1 : id = 1
  · rw [if_pos h1, parSet_links, parSet_links, onSynth_links]
  · rw [if_neg h1]
    by_cases h2 : id = 2
    · rw [if_pos h2, parSet_links, parSet_links, onSynth_links]
    · rw [if_neg h2, onSynth_links]
@[simp] theorem dropLo_carriers (id : Nat) (s : State) : (dropLo id s).carriers = s.carriers := by
  unfold dropLo
  by_cases h1 : id = 1
  · rw [if_pos h1, parSet_carriers, parSet_carriers, onSynth_carriers]
  · rw [if_neg h1]
    by_cases h2 : id = 2
    · rw [if_pos h2, parSet_carriers, parSet_carriers, onSynth_carriers]
    · rw [if_neg h2, onSynth_carriers]
@[simp] theorem dropLo_tx (id : Nat) (s : State) : (dropLo id s).tx = s.tx := by
  unfold dropLo
  by_cases h1 : id = 1
  · rw [if_pos h1, parSet_tx, parSet_tx, onSynth_tx]
  · rw [if_neg h1]
    by_cases h2 : id = 2
    · rw [if_pos h2, parSet_tx, parSet_tx, onSynth_tx]
    · rw [if_neg h2, onSynth_tx]
@[simp] theorem dropLo_cl (id : Nat) (s : State) : (dropLo id s).cl = s.cl := by
  unfold dropLo
  by_cases h1 : id = 1
  · rw [if_pos h1, parSet_cl, parSet_cl, onSynth_cl]
  · rw [if_neg h1]
    by_cases h2 : id = 2
    · rw [if_pos h2, parSet_cl, parSet_cl, onSynth_cl]
    · rw [if_neg h2, onSynth_cl]
@[simp] theorem dropLo_sessions (id : Nat) (s : State) : (dropLo id s).sessions = s.sessions := by
  unfold dropLo
  by_cases h1 : id = 1
  · rw [if_pos h1, parSet_sessions, parSet_sessions, onSynth_sessions]
  · rw [if_neg h1]
    by_cases h2 : id = 2
    · rw [if_pos h2, parSet_sessions, parSet_sessions, onSynth_sessions]
    · rw [if_neg h2, onSynth_sessions]
@[simp] theorem dropLo_rods (id : Nat) (s : State) : (dropLo id s).rods = s.rods := by
  unfold dropLo
  by_cases h1 : id = 1
  · rw [if_pos h1, parSet_rods, parSet_rods, onSynth_rods]
  · rw [if_neg h1]
    by_cases h2 : id = 2
    · rw [if_pos h2, parSet_rods, parSet_rods, onSynth_rods]
    · rw [if_neg h2, onSynth_rods]
@[simp] theorem dropLo_audio (id : Nat) (s : State) : (dropLo id s).audio = s.audio := by
  unfold dropLo
  by_cases h1 : id = 1
  · rw [if_pos h1, parSet_audio, parSet_audio, onSynth_audio]
  · rw [if_neg h1]
    by_cases h2 : id = 2
    · rw [if_pos h2, parSet_audio, parSet_audio, onSynth_audio]
    · rw [if_neg h2, onSynth_audio]
@[simp] theorem dropLo_mem (id : Nat) (s : State) : (dropLo id s).mem = s.mem := by
  unfold dropLo
  by_cases h1 : id = 1
  · rw [if_pos h1, parSet_mem, parSet_mem, onSynth_mem]
  · rw [if_neg h1]
    by_cases h2 : id = 2
    · rw [if_pos h2, parSet_mem, parSet_mem, onSynth_mem]
    · rw [if_neg h2, onSynth_mem]
@[simp] theorem dropLo_ana (id : Nat) (s : State) : (dropLo id s).ana = s.ana := by
  unfold dropLo
  by_cases h1 : id = 1
  · rw [if_pos h1, parSet_ana, parSet_ana, onSynth_ana]
  · rw [if_neg h1]
    by_cases h2 : id = 2
    · rw [if_pos h2, parSet_ana, parSet_ana, onSynth_ana]
    · rw [if_neg h2, onSynth_ana]
@[simp] theorem dropLo_inst (id : Nat) (s : State) : (dropLo id s).inst = s.inst := by
  unfold dropLo
  by_cases h1 : id = 1
  · rw [if_pos h1, parSet_inst, parSet_inst, onSynth_inst]
  · rw [if_neg h1]
    by_cases h2 : id = 2
    · rw [if_pos h2, parSet_inst, parSet_inst, onSynth_inst]
    · rw [if_neg h2, onSynth_inst]
@[simp] theorem dropLo_tw (id : Nat) (s : State) : (dropLo id s).tw = s.tw := by
  unfold dropLo
  by_cases h1 : id = 1
  · rw [if_pos h1, parSet_tw, parSet_tw, onSynth_tw]
  · rw [if_neg h1]
    by_cases h2 : id = 2
    · rw [if_pos h2, parSet_tw, parSet_tw, onSynth_tw]
    · rw [if_neg h2, onSynth_tw]
@[simp] theorem dropLo_power (id : Nat) (s : State) : (dropLo id s).power = s.power := by
  unfold dropLo
  by_cases h1 : id = 1
  · rw [if_pos h1, parSet_power, parSet_power, onSynth_power]
  · rw [if_neg h1]
    by_cases h2 : id = 2
    · rw [if_pos h2, parSet_power, parSet_power, onSynth_power]
    · rw [if_neg h2, onSynth_power]
@[simp] theorem dropLo_supply (id : Nat) (s : State) : (dropLo id s).supply = s.supply := by
  unfold dropLo
  by_cases h1 : id = 1
  · rw [if_pos h1, parSet_supply, parSet_supply, onSynth_supply]
  · rw [if_neg h1]
    by_cases h2 : id = 2
    · rw [if_pos h2, parSet_supply, parSet_supply, onSynth_supply]
    · rw [if_neg h2, onSynth_supply]
@[simp] theorem dropLo_prot (id : Nat) (s : State) : (dropLo id s).prot = s.prot := by
  unfold dropLo
  by_cases h1 : id = 1
  · rw [if_pos h1, parSet_prot, parSet_prot, onSynth_prot]
  · rw [if_neg h1]
    by_cases h2 : id = 2
    · rw [if_pos h2, parSet_prot, parSet_prot, onSynth_prot]
    · rw [if_neg h2, onSynth_prot]
@[simp] theorem dropLo_age (id : Nat) (s : State) : (dropLo id s).age = s.age := by
  unfold dropLo
  by_cases h1 : id = 1
  · rw [if_pos h1, parSet_age, parSet_age, onSynth_age]
  · rw [if_neg h1]
    by_cases h2 : id = 2
    · rw [if_pos h2, parSet_age, parSet_age, onSynth_age]
    · rw [if_neg h2, onSynth_age]
@[simp] theorem dropLo_rattle (id : Nat) (s : State) : (dropLo id s).rattle = s.rattle := by
  unfold dropLo
  by_cases h1 : id = 1
  · rw [if_pos h1, parSet_rattle, parSet_rattle, onSynth_rattle]
  · rw [if_neg h1]
    by_cases h2 : id = 2
    · rw [if_pos h2, parSet_rattle, parSet_rattle, onSynth_rattle]
    · rw [if_neg h2, onSynth_rattle]
@[simp] theorem dropLo_free (id : Nat) (s : State) : (dropLo id s).free = s.free := by
  unfold dropLo
  by_cases h1 : id = 1
  · rw [if_pos h1, parSet_free, parSet_free, onSynth_free]
  · rw [if_neg h1]
    by_cases h2 : id = 2
    · rw [if_pos h2, parSet_free, parSet_free, onSynth_free]
    · rw [if_neg h2, onSynth_free]

@[simp] theorem relockWindow_pending (id : Nat) (s : State) : (relockWindow id s).pending = s.pending := by
  unfold relockWindow
  by_cases h : parGet s (if id = 1 then P.rfrRxWindowEdge else P.txWindowEdge) = 0
  · rw [if_pos h, dropLo_pending]
  · rw [if_neg h, startLock_pending]
@[simp] theorem relockWindow_timebase (id : Nat) (s : State) : (relockWindow id s).timebase = s.timebase := by
  unfold relockWindow
  by_cases h : parGet s (if id = 1 then P.rfrRxWindowEdge else P.txWindowEdge) = 0
  · rw [if_pos h, dropLo_timebase]
  · rw [if_neg h, startLock_timebase]
@[simp] theorem relockWindow_inForce (id : Nat) (s : State) : (relockWindow id s).inForce = s.inForce := by
  unfold relockWindow
  by_cases h : parGet s (if id = 1 then P.rfrRxWindowEdge else P.txWindowEdge) = 0
  · rw [if_pos h, dropLo_inForce]
  · rw [if_neg h, startLock_inForce]
@[simp] theorem relockWindow_op (id : Nat) (s : State) : (relockWindow id s).op = s.op := by
  unfold relockWindow
  by_cases h : parGet s (if id = 1 then P.rfrRxWindowEdge else P.txWindowEdge) = 0
  · rw [if_pos h, dropLo_op]
  · rw [if_neg h, startLock_op]
@[simp] theorem relockWindow_cu (id : Nat) (s : State) : (relockWindow id s).cu = s.cu := by
  unfold relockWindow
  by_cases h : parGet s (if id = 1 then P.rfrRxWindowEdge else P.txWindowEdge) = 0
  · rw [if_pos h, dropLo_cu]
  · rw [if_neg h, startLock_cu]
@[simp] theorem relockWindow_waiting (id : Nat) (s : State) : (relockWindow id s).waiting = s.waiting := by
  unfold relockWindow
  by_cases h : parGet s (if id = 1 then P.rfrRxWindowEdge else P.txWindowEdge) = 0
  · rw [if_pos h, dropLo_waiting]
  · rw [if_neg h, startLock_waiting]
@[simp] theorem relockWindow_running (id : Nat) (s : State) : (relockWindow id s).running = s.running := by
  unfold relockWindow
  by_cases h : parGet s (if id = 1 then P.rfrRxWindowEdge else P.txWindowEdge) = 0
  · rw [if_pos h, dropLo_running]
  · rw [if_neg h, startLock_running]
@[simp] theorem relockWindow_events (id : Nat) (s : State) : (relockWindow id s).events = s.events := by
  unfold relockWindow
  by_cases h : parGet s (if id = 1 then P.rfrRxWindowEdge else P.txWindowEdge) = 0
  · rw [if_pos h, dropLo_events]
  · rw [if_neg h, startLock_events]
@[simp] theorem relockWindow_front (id : Nat) (s : State) : (relockWindow id s).front = s.front := by
  unfold relockWindow
  by_cases h : parGet s (if id = 1 then P.rfrRxWindowEdge else P.txWindowEdge) = 0
  · rw [if_pos h, dropLo_front]
  · rw [if_neg h, startLock_front]
@[simp] theorem relockWindow_seq (id : Nat) (s : State) : (relockWindow id s).seq = s.seq := by
  unfold relockWindow
  by_cases h : parGet s (if id = 1 then P.rfrRxWindowEdge else P.txWindowEdge) = 0
  · rw [if_pos h, dropLo_seq]
  · rw [if_neg h, startLock_seq]
@[simp] theorem relockWindow_alarm (id : Nat) (s : State) : (relockWindow id s).alarm = s.alarm := by
  unfold relockWindow
  by_cases h : parGet s (if id = 1 then P.rfrRxWindowEdge else P.txWindowEdge) = 0
  · rw [if_pos h, dropLo_alarm]
  · rw [if_neg h, startLock_alarm]
@[simp] theorem relockWindow_rck (id : Nat) (s : State) : (relockWindow id s).rck = s.rck := by
  unfold relockWindow
  by_cases h : parGet s (if id = 1 then P.rfrRxWindowEdge else P.txWindowEdge) = 0
  · rw [if_pos h, dropLo_rck]
  · rw [if_neg h, startLock_rck]
@[simp] theorem relockWindow_rf (id : Nat) (s : State) : (relockWindow id s).rf = s.rf := by
  unfold relockWindow
  by_cases h : parGet s (if id = 1 then P.rfrRxWindowEdge else P.txWindowEdge) = 0
  · rw [if_pos h, dropLo_rf]
  · rw [if_neg h, startLock_rf]
@[simp] theorem relockWindow_links (id : Nat) (s : State) : (relockWindow id s).links = s.links := by
  unfold relockWindow
  by_cases h : parGet s (if id = 1 then P.rfrRxWindowEdge else P.txWindowEdge) = 0
  · rw [if_pos h, dropLo_links]
  · rw [if_neg h, startLock_links]
@[simp] theorem relockWindow_carriers (id : Nat) (s : State) : (relockWindow id s).carriers = s.carriers := by
  unfold relockWindow
  by_cases h : parGet s (if id = 1 then P.rfrRxWindowEdge else P.txWindowEdge) = 0
  · rw [if_pos h, dropLo_carriers]
  · rw [if_neg h, startLock_carriers]
@[simp] theorem relockWindow_tx (id : Nat) (s : State) : (relockWindow id s).tx = s.tx := by
  unfold relockWindow
  by_cases h : parGet s (if id = 1 then P.rfrRxWindowEdge else P.txWindowEdge) = 0
  · rw [if_pos h, dropLo_tx]
  · rw [if_neg h, startLock_tx]
@[simp] theorem relockWindow_cl (id : Nat) (s : State) : (relockWindow id s).cl = s.cl := by
  unfold relockWindow
  by_cases h : parGet s (if id = 1 then P.rfrRxWindowEdge else P.txWindowEdge) = 0
  · rw [if_pos h, dropLo_cl]
  · rw [if_neg h, startLock_cl]
@[simp] theorem relockWindow_sessions (id : Nat) (s : State) : (relockWindow id s).sessions = s.sessions := by
  unfold relockWindow
  by_cases h : parGet s (if id = 1 then P.rfrRxWindowEdge else P.txWindowEdge) = 0
  · rw [if_pos h, dropLo_sessions]
  · rw [if_neg h, startLock_sessions]
@[simp] theorem relockWindow_rods (id : Nat) (s : State) : (relockWindow id s).rods = s.rods := by
  unfold relockWindow
  by_cases h : parGet s (if id = 1 then P.rfrRxWindowEdge else P.txWindowEdge) = 0
  · rw [if_pos h, dropLo_rods]
  · rw [if_neg h, startLock_rods]
@[simp] theorem relockWindow_audio (id : Nat) (s : State) : (relockWindow id s).audio = s.audio := by
  unfold relockWindow
  by_cases h : parGet s (if id = 1 then P.rfrRxWindowEdge else P.txWindowEdge) = 0
  · rw [if_pos h, dropLo_audio]
  · rw [if_neg h, startLock_audio]
@[simp] theorem relockWindow_mem (id : Nat) (s : State) : (relockWindow id s).mem = s.mem := by
  unfold relockWindow
  by_cases h : parGet s (if id = 1 then P.rfrRxWindowEdge else P.txWindowEdge) = 0
  · rw [if_pos h, dropLo_mem]
  · rw [if_neg h, startLock_mem]
@[simp] theorem relockWindow_ana (id : Nat) (s : State) : (relockWindow id s).ana = s.ana := by
  unfold relockWindow
  by_cases h : parGet s (if id = 1 then P.rfrRxWindowEdge else P.txWindowEdge) = 0
  · rw [if_pos h, dropLo_ana]
  · rw [if_neg h, startLock_ana]
@[simp] theorem relockWindow_inst (id : Nat) (s : State) : (relockWindow id s).inst = s.inst := by
  unfold relockWindow
  by_cases h : parGet s (if id = 1 then P.rfrRxWindowEdge else P.txWindowEdge) = 0
  · rw [if_pos h, dropLo_inst]
  · rw [if_neg h, startLock_inst]
@[simp] theorem relockWindow_tw (id : Nat) (s : State) : (relockWindow id s).tw = s.tw := by
  unfold relockWindow
  by_cases h : parGet s (if id = 1 then P.rfrRxWindowEdge else P.txWindowEdge) = 0
  · rw [if_pos h, dropLo_tw]
  · rw [if_neg h, startLock_tw]
@[simp] theorem relockWindow_power (id : Nat) (s : State) : (relockWindow id s).power = s.power := by
  unfold relockWindow
  by_cases h : parGet s (if id = 1 then P.rfrRxWindowEdge else P.txWindowEdge) = 0
  · rw [if_pos h, dropLo_power]
  · rw [if_neg h, startLock_power]
@[simp] theorem relockWindow_supply (id : Nat) (s : State) : (relockWindow id s).supply = s.supply := by
  unfold relockWindow
  by_cases h : parGet s (if id = 1 then P.rfrRxWindowEdge else P.txWindowEdge) = 0
  · rw [if_pos h, dropLo_supply]
  · rw [if_neg h, startLock_supply]
@[simp] theorem relockWindow_prot (id : Nat) (s : State) : (relockWindow id s).prot = s.prot := by
  unfold relockWindow
  by_cases h : parGet s (if id = 1 then P.rfrRxWindowEdge else P.txWindowEdge) = 0
  · rw [if_pos h, dropLo_prot]
  · rw [if_neg h, startLock_prot]
@[simp] theorem relockWindow_age (id : Nat) (s : State) : (relockWindow id s).age = s.age := by
  unfold relockWindow
  by_cases h : parGet s (if id = 1 then P.rfrRxWindowEdge else P.txWindowEdge) = 0
  · rw [if_pos h, dropLo_age]
  · rw [if_neg h, startLock_age]
@[simp] theorem relockWindow_rattle (id : Nat) (s : State) : (relockWindow id s).rattle = s.rattle := by
  unfold relockWindow
  by_cases h : parGet s (if id = 1 then P.rfrRxWindowEdge else P.txWindowEdge) = 0
  · rw [if_pos h, dropLo_rattle]
  · rw [if_neg h, startLock_rattle]
@[simp] theorem relockWindow_free (id : Nat) (s : State) : (relockWindow id s).free = s.free := by
  unfold relockWindow
  by_cases h : parGet s (if id = 1 then P.rfrRxWindowEdge else P.txWindowEdge) = 0
  · rw [if_pos h, dropLo_free]
  · rw [if_neg h, startLock_free]

@[simp] theorem needLock_pending (id : Nat) (s : State) : ((needLock id s).2.2).pending = s.pending := by unfold needLock; (repeat' split) <;> simp
@[simp] theorem needLock_timebase (id : Nat) (s : State) : ((needLock id s).2.2).timebase = s.timebase := by unfold needLock; (repeat' split) <;> simp
@[simp] theorem needLock_inForce (id : Nat) (s : State) : ((needLock id s).2.2).inForce = s.inForce := by unfold needLock; (repeat' split) <;> simp
@[simp] theorem needLock_op (id : Nat) (s : State) : ((needLock id s).2.2).op = s.op := by unfold needLock; (repeat' split) <;> simp
@[simp] theorem needLock_cu (id : Nat) (s : State) : ((needLock id s).2.2).cu = s.cu := by unfold needLock; (repeat' split) <;> simp
@[simp] theorem needLock_waiting (id : Nat) (s : State) : ((needLock id s).2.2).waiting = s.waiting := by unfold needLock; (repeat' split) <;> simp
@[simp] theorem needLock_running (id : Nat) (s : State) : ((needLock id s).2.2).running = s.running := by unfold needLock; (repeat' split) <;> simp
@[simp] theorem needLock_events (id : Nat) (s : State) : ((needLock id s).2.2).events = s.events := by unfold needLock; (repeat' split) <;> simp
@[simp] theorem needLock_front (id : Nat) (s : State) : ((needLock id s).2.2).front = s.front := by unfold needLock; (repeat' split) <;> simp
@[simp] theorem needLock_seq (id : Nat) (s : State) : ((needLock id s).2.2).seq = s.seq := by unfold needLock; (repeat' split) <;> simp
@[simp] theorem needLock_alarm (id : Nat) (s : State) : ((needLock id s).2.2).alarm = s.alarm := by unfold needLock; (repeat' split) <;> simp
@[simp] theorem needLock_rck (id : Nat) (s : State) : ((needLock id s).2.2).rck = s.rck := by unfold needLock; (repeat' split) <;> simp
@[simp] theorem needLock_rf (id : Nat) (s : State) : ((needLock id s).2.2).rf = s.rf := by unfold needLock; (repeat' split) <;> simp
@[simp] theorem needLock_links (id : Nat) (s : State) : ((needLock id s).2.2).links = s.links := by unfold needLock; (repeat' split) <;> simp
@[simp] theorem needLock_carriers (id : Nat) (s : State) : ((needLock id s).2.2).carriers = s.carriers := by unfold needLock; (repeat' split) <;> simp
@[simp] theorem needLock_tx (id : Nat) (s : State) : ((needLock id s).2.2).tx = s.tx := by unfold needLock; (repeat' split) <;> simp
@[simp] theorem needLock_cl (id : Nat) (s : State) : ((needLock id s).2.2).cl = s.cl := by unfold needLock; (repeat' split) <;> simp
@[simp] theorem needLock_sessions (id : Nat) (s : State) : ((needLock id s).2.2).sessions = s.sessions := by unfold needLock; (repeat' split) <;> simp
@[simp] theorem needLock_rods (id : Nat) (s : State) : ((needLock id s).2.2).rods = s.rods := by unfold needLock; (repeat' split) <;> simp
@[simp] theorem needLock_audio (id : Nat) (s : State) : ((needLock id s).2.2).audio = s.audio := by unfold needLock; (repeat' split) <;> simp
@[simp] theorem needLock_mem (id : Nat) (s : State) : ((needLock id s).2.2).mem = s.mem := by unfold needLock; (repeat' split) <;> simp
@[simp] theorem needLock_ana (id : Nat) (s : State) : ((needLock id s).2.2).ana = s.ana := by unfold needLock; (repeat' split) <;> simp
@[simp] theorem needLock_inst (id : Nat) (s : State) : ((needLock id s).2.2).inst = s.inst := by unfold needLock; (repeat' split) <;> simp
@[simp] theorem needLock_tw (id : Nat) (s : State) : ((needLock id s).2.2).tw = s.tw := by unfold needLock; (repeat' split) <;> simp
@[simp] theorem needLock_power (id : Nat) (s : State) : ((needLock id s).2.2).power = s.power := by unfold needLock; (repeat' split) <;> simp
@[simp] theorem needLock_supply (id : Nat) (s : State) : ((needLock id s).2.2).supply = s.supply := by unfold needLock; (repeat' split) <;> simp
@[simp] theorem needLock_prot (id : Nat) (s : State) : ((needLock id s).2.2).prot = s.prot := by unfold needLock; (repeat' split) <;> simp
@[simp] theorem needLock_age (id : Nat) (s : State) : ((needLock id s).2.2).age = s.age := by unfold needLock; (repeat' split) <;> simp
@[simp] theorem needLock_rattle (id : Nat) (s : State) : ((needLock id s).2.2).rattle = s.rattle := by unfold needLock; (repeat' split) <;> simp
@[simp] theorem needLock_free (id : Nat) (s : State) : ((needLock id s).2.2).free = s.free := by unfold needLock; (repeat' split) <;> simp

@[simp] theorem paRelease_pending  (s : State) : (paRelease s).pending = s.pending := by unfold paRelease; split <;> rfl
@[simp] theorem paRelease_timebase  (s : State) : (paRelease s).timebase = s.timebase := by unfold paRelease; split <;> rfl
@[simp] theorem paRelease_par  (s : State) : (paRelease s).par = s.par := by unfold paRelease; split <;> rfl
@[simp] theorem paRelease_inForce  (s : State) : (paRelease s).inForce = s.inForce := by unfold paRelease; split <;> rfl
@[simp] theorem paRelease_op  (s : State) : (paRelease s).op = s.op := by unfold paRelease; split <;> rfl
@[simp] theorem paRelease_cu  (s : State) : (paRelease s).cu = s.cu := by unfold paRelease; split <;> rfl
@[simp] theorem paRelease_waiting  (s : State) : (paRelease s).waiting = s.waiting := by unfold paRelease; split <;> rfl
@[simp] theorem paRelease_running  (s : State) : (paRelease s).running = s.running := by unfold paRelease; split <;> rfl
@[simp] theorem paRelease_events  (s : State) : (paRelease s).events = s.events := by unfold paRelease; split <;> rfl
@[simp] theorem paRelease_front  (s : State) : (paRelease s).front = s.front := by unfold paRelease; split <;> rfl
@[simp] theorem paRelease_seq  (s : State) : (paRelease s).seq = s.seq := by unfold paRelease; split <;> rfl
@[simp] theorem paRelease_alarm  (s : State) : (paRelease s).alarm = s.alarm := by unfold paRelease; split <;> rfl
@[simp] theorem paRelease_rck  (s : State) : (paRelease s).rck = s.rck := by unfold paRelease; split <;> rfl
@[simp] theorem paRelease_clk  (s : State) : (paRelease s).clk = s.clk := by unfold paRelease; split <;> rfl
@[simp] theorem paRelease_rf  (s : State) : (paRelease s).rf = s.rf := by unfold paRelease; split <;> rfl
@[simp] theorem paRelease_links  (s : State) : (paRelease s).links = s.links := by unfold paRelease; split <;> rfl
@[simp] theorem paRelease_carriers  (s : State) : (paRelease s).carriers = s.carriers := by unfold paRelease; split <;> rfl
@[simp] theorem paRelease_cl  (s : State) : (paRelease s).cl = s.cl := by unfold paRelease; split <;> rfl
@[simp] theorem paRelease_sessions  (s : State) : (paRelease s).sessions = s.sessions := by unfold paRelease; split <;> rfl
@[simp] theorem paRelease_rods  (s : State) : (paRelease s).rods = s.rods := by unfold paRelease; split <;> rfl
@[simp] theorem paRelease_audio  (s : State) : (paRelease s).audio = s.audio := by unfold paRelease; split <;> rfl
@[simp] theorem paRelease_mem  (s : State) : (paRelease s).mem = s.mem := by unfold paRelease; split <;> rfl
@[simp] theorem paRelease_ana  (s : State) : (paRelease s).ana = s.ana := by unfold paRelease; split <;> rfl
@[simp] theorem paRelease_inst  (s : State) : (paRelease s).inst = s.inst := by unfold paRelease; split <;> rfl
@[simp] theorem paRelease_tw  (s : State) : (paRelease s).tw = s.tw := by unfold paRelease; split <;> rfl
@[simp] theorem paRelease_power  (s : State) : (paRelease s).power = s.power := by unfold paRelease; split <;> rfl
@[simp] theorem paRelease_supply  (s : State) : (paRelease s).supply = s.supply := by unfold paRelease; split <;> rfl
@[simp] theorem paRelease_prot  (s : State) : (paRelease s).prot = s.prot := by unfold paRelease; split <;> rfl
@[simp] theorem paRelease_age  (s : State) : (paRelease s).age = s.age := by unfold paRelease; split <;> rfl
@[simp] theorem paRelease_rattle  (s : State) : (paRelease s).rattle = s.rattle := by unfold paRelease; split <;> rfl
@[simp] theorem paRelease_free  (s : State) : (paRelease s).free = s.free := by unfold paRelease; split <;> rfl

@[simp] theorem rampDown_pending (m k : Nat) (s : State) : (rampDown m k s).pending = s.pending := by
  unfold rampDown
  rw [paRelease_pending]
  refine (each_field State.pending _ _ _ (fun x s => ?_))
  split <;> simp
@[simp] theorem rampDown_timebase (m k : Nat) (s : State) : (rampDown m k s).timebase = s.timebase := by
  unfold rampDown
  rw [paRelease_timebase]
  refine (each_field State.timebase _ _ _ (fun x s => ?_))
  split <;> simp
@[simp] theorem rampDown_inForce (m k : Nat) (s : State) : (rampDown m k s).inForce = s.inForce := by
  unfold rampDown
  rw [paRelease_inForce]
  refine (each_field State.inForce _ _ _ (fun x s => ?_))
  split <;> simp
@[simp] theorem rampDown_op (m k : Nat) (s : State) : (rampDown m k s).op = s.op := by
  unfold rampDown
  rw [paRelease_op]
  refine (each_field State.op _ _ _ (fun x s => ?_))
  split <;> simp
@[simp] theorem rampDown_cu (m k : Nat) (s : State) : (rampDown m k s).cu = s.cu := by
  unfold rampDown
  rw [paRelease_cu]
  refine (each_field State.cu _ _ _ (fun x s => ?_))
  split <;> simp
@[simp] theorem rampDown_waiting (m k : Nat) (s : State) : (rampDown m k s).waiting = s.waiting := by
  unfold rampDown
  rw [paRelease_waiting]
  refine (each_field State.waiting _ _ _ (fun x s => ?_))
  split <;> simp
@[simp] theorem rampDown_running (m k : Nat) (s : State) : (rampDown m k s).running = s.running := by
  unfold rampDown
  rw [paRelease_running]
  refine (each_field State.running _ _ _ (fun x s => ?_))
  split <;> simp
@[simp] theorem rampDown_seq (m k : Nat) (s : State) : (rampDown m k s).seq = s.seq := by
  unfold rampDown
  rw [paRelease_seq]
  refine (each_field State.seq _ _ _ (fun x s => ?_))
  split <;> simp
@[simp] theorem rampDown_alarm (m k : Nat) (s : State) : (rampDown m k s).alarm = s.alarm := by
  unfold rampDown
  rw [paRelease_alarm]
  refine (each_field State.alarm _ _ _ (fun x s => ?_))
  split <;> simp
@[simp] theorem rampDown_rck (m k : Nat) (s : State) : (rampDown m k s).rck = s.rck := by
  unfold rampDown
  rw [paRelease_rck]
  refine (each_field State.rck _ _ _ (fun x s => ?_))
  split <;> simp
@[simp] theorem rampDown_clk (m k : Nat) (s : State) : (rampDown m k s).clk = s.clk := by
  unfold rampDown
  rw [paRelease_clk]
  refine (each_field State.clk _ _ _ (fun x s => ?_))
  split <;> simp
@[simp] theorem rampDown_rf (m k : Nat) (s : State) : (rampDown m k s).rf = s.rf := by
  unfold rampDown
  rw [paRelease_rf]
  refine (each_field State.rf _ _ _ (fun x s => ?_))
  split <;> simp
@[simp] theorem rampDown_links (m k : Nat) (s : State) : (rampDown m k s).links = s.links := by
  unfold rampDown
  rw [paRelease_links]
  refine (each_field State.links _ _ _ (fun x s => ?_))
  split <;> simp
@[simp] theorem rampDown_cl (m k : Nat) (s : State) : (rampDown m k s).cl = s.cl := by
  unfold rampDown
  rw [paRelease_cl]
  refine (each_field State.cl _ _ _ (fun x s => ?_))
  split <;> simp
@[simp] theorem rampDown_sessions (m k : Nat) (s : State) : (rampDown m k s).sessions = s.sessions := by
  unfold rampDown
  rw [paRelease_sessions]
  refine (each_field State.sessions _ _ _ (fun x s => ?_))
  split <;> simp
@[simp] theorem rampDown_rods (m k : Nat) (s : State) : (rampDown m k s).rods = s.rods := by
  unfold rampDown
  rw [paRelease_rods]
  refine (each_field State.rods _ _ _ (fun x s => ?_))
  split <;> simp
@[simp] theorem rampDown_audio (m k : Nat) (s : State) : (rampDown m k s).audio = s.audio := by
  unfold rampDown
  rw [paRelease_audio]
  refine (each_field State.audio _ _ _ (fun x s => ?_))
  split <;> simp
@[simp] theorem rampDown_mem (m k : Nat) (s : State) : (rampDown m k s).mem = s.mem := by
  unfold rampDown
  rw [paRelease_mem]
  refine (each_field State.mem _ _ _ (fun x s => ?_))
  split <;> simp
@[simp] theorem rampDown_ana (m k : Nat) (s : State) : (rampDown m k s).ana = s.ana := by
  unfold rampDown
  rw [paRelease_ana]
  refine (each_field State.ana _ _ _ (fun x s => ?_))
  split <;> simp
@[simp] theorem rampDown_inst (m k : Nat) (s : State) : (rampDown m k s).inst = s.inst := by
  unfold rampDown
  rw [paRelease_inst]
  refine (each_field State.inst _ _ _ (fun x s => ?_))
  split <;> simp
@[simp] theorem rampDown_power (m k : Nat) (s : State) : (rampDown m k s).power = s.power := by
  unfold rampDown
  rw [paRelease_power]
  refine (each_field State.power _ _ _ (fun x s => ?_))
  split <;> simp
@[simp] theorem rampDown_supply (m k : Nat) (s : State) : (rampDown m k s).supply = s.supply := by
  unfold rampDown
  rw [paRelease_supply]
  refine (each_field State.supply _ _ _ (fun x s => ?_))
  split <;> simp
@[simp] theorem rampDown_prot (m k : Nat) (s : State) : (rampDown m k s).prot = s.prot := by
  unfold rampDown
  rw [paRelease_prot]
  refine (each_field State.prot _ _ _ (fun x s => ?_))
  split <;> simp
@[simp] theorem rampDown_age (m k : Nat) (s : State) : (rampDown m k s).age = s.age := by
  unfold rampDown
  rw [paRelease_age]
  refine (each_field State.age _ _ _ (fun x s => ?_))
  split <;> simp
@[simp] theorem rampDown_rattle (m k : Nat) (s : State) : (rampDown m k s).rattle = s.rattle := by
  unfold rampDown
  rw [paRelease_rattle]
  refine (each_field State.rattle _ _ _ (fun x s => ?_))
  split <;> simp
@[simp] theorem rampDown_free (m k : Nat) (s : State) : (rampDown m k s).free = s.free := by
  unfold rampDown
  rw [paRelease_free]
  refine (each_field State.free _ _ _ (fun x s => ?_))
  split <;> simp

@[simp] theorem airStarts_pending (cs : List Nat) (m : Nat) (s : State) : (airStarts cs m s).pending = s.pending := by
  unfold airStarts
  split
  · exact each_field State.pending _ _ _ (fun c s => by simp)
  · rfl
@[simp] theorem airStarts_timebase (cs : List Nat) (m : Nat) (s : State) : (airStarts cs m s).timebase = s.timebase := by
  unfold airStarts
  split
  · exact each_field State.timebase _ _ _ (fun c s => by simp)
  · rfl
@[simp] theorem airStarts_par (cs : List Nat) (m : Nat) (s : State) : (airStarts cs m s).par = s.par := by
  unfold airStarts
  split
  · exact each_field State.par _ _ _ (fun c s => by simp)
  · rfl
@[simp] theorem airStarts_inForce (cs : List Nat) (m : Nat) (s : State) : (airStarts cs m s).inForce = s.inForce := by
  unfold airStarts
  split
  · exact each_field State.inForce _ _ _ (fun c s => by simp)
  · rfl
@[simp] theorem airStarts_op (cs : List Nat) (m : Nat) (s : State) : (airStarts cs m s).op = s.op := by
  unfold airStarts
  split
  · exact each_field State.op _ _ _ (fun c s => by simp)
  · rfl
@[simp] theorem airStarts_cu (cs : List Nat) (m : Nat) (s : State) : (airStarts cs m s).cu = s.cu := by
  unfold airStarts
  split
  · exact each_field State.cu _ _ _ (fun c s => by simp)
  · rfl
@[simp] theorem airStarts_waiting (cs : List Nat) (m : Nat) (s : State) : (airStarts cs m s).waiting = s.waiting := by
  unfold airStarts
  split
  · exact each_field State.waiting _ _ _ (fun c s => by simp)
  · rfl
@[simp] theorem airStarts_running (cs : List Nat) (m : Nat) (s : State) : (airStarts cs m s).running = s.running := by
  unfold airStarts
  split
  · exact each_field State.running _ _ _ (fun c s => by simp)
  · rfl
@[simp] theorem airStarts_events (cs : List Nat) (m : Nat) (s : State) : (airStarts cs m s).events = s.events := by
  unfold airStarts
  split
  · exact each_field State.events _ _ _ (fun c s => by simp)
  · rfl
@[simp] theorem airStarts_front (cs : List Nat) (m : Nat) (s : State) : (airStarts cs m s).front = s.front := by
  unfold airStarts
  split
  · exact each_field State.front _ _ _ (fun c s => by simp)
  · rfl
@[simp] theorem airStarts_seq (cs : List Nat) (m : Nat) (s : State) : (airStarts cs m s).seq = s.seq := by
  unfold airStarts
  split
  · exact each_field State.seq _ _ _ (fun c s => by simp)
  · rfl
@[simp] theorem airStarts_alarm (cs : List Nat) (m : Nat) (s : State) : (airStarts cs m s).alarm = s.alarm := by
  unfold airStarts
  split
  · exact each_field State.alarm _ _ _ (fun c s => by simp)
  · rfl
@[simp] theorem airStarts_rck (cs : List Nat) (m : Nat) (s : State) : (airStarts cs m s).rck = s.rck := by
  unfold airStarts
  split
  · exact each_field State.rck _ _ _ (fun c s => by simp)
  · rfl
@[simp] theorem airStarts_clk (cs : List Nat) (m : Nat) (s : State) : (airStarts cs m s).clk = s.clk := by
  unfold airStarts
  split
  · exact each_field State.clk _ _ _ (fun c s => by simp)
  · rfl
@[simp] theorem airStarts_rf (cs : List Nat) (m : Nat) (s : State) : (airStarts cs m s).rf = s.rf := by
  unfold airStarts
  split
  · exact each_field State.rf _ _ _ (fun c s => by simp)
  · rfl
@[simp] theorem airStarts_links (cs : List Nat) (m : Nat) (s : State) : (airStarts cs m s).links = s.links := by
  unfold airStarts
  split
  · exact each_field State.links _ _ _ (fun c s => by simp)
  · rfl
@[simp] theorem airStarts_cl (cs : List Nat) (m : Nat) (s : State) : (airStarts cs m s).cl = s.cl := by
  unfold airStarts
  split
  · exact each_field State.cl _ _ _ (fun c s => by simp)
  · rfl
@[simp] theorem airStarts_sessions (cs : List Nat) (m : Nat) (s : State) : (airStarts cs m s).sessions = s.sessions := by
  unfold airStarts
  split
  · exact each_field State.sessions _ _ _ (fun c s => by simp)
  · rfl
@[simp] theorem airStarts_rods (cs : List Nat) (m : Nat) (s : State) : (airStarts cs m s).rods = s.rods := by
  unfold airStarts
  split
  · exact each_field State.rods _ _ _ (fun c s => by simp)
  · rfl
@[simp] theorem airStarts_audio (cs : List Nat) (m : Nat) (s : State) : (airStarts cs m s).audio = s.audio := by
  unfold airStarts
  split
  · exact each_field State.audio _ _ _ (fun c s => by simp)
  · rfl
@[simp] theorem airStarts_mem (cs : List Nat) (m : Nat) (s : State) : (airStarts cs m s).mem = s.mem := by
  unfold airStarts
  split
  · exact each_field State.mem _ _ _ (fun c s => by simp)
  · rfl
@[simp] theorem airStarts_ana (cs : List Nat) (m : Nat) (s : State) : (airStarts cs m s).ana = s.ana := by
  unfold airStarts
  split
  · exact each_field State.ana _ _ _ (fun c s => by simp)
  · rfl
@[simp] theorem airStarts_inst (cs : List Nat) (m : Nat) (s : State) : (airStarts cs m s).inst = s.inst := by
  unfold airStarts
  split
  · exact each_field State.inst _ _ _ (fun c s => by simp)
  · rfl
@[simp] theorem airStarts_tw (cs : List Nat) (m : Nat) (s : State) : (airStarts cs m s).tw = s.tw := by
  unfold airStarts
  split
  · exact each_field State.tw _ _ _ (fun c s => by simp)
  · rfl
@[simp] theorem airStarts_power (cs : List Nat) (m : Nat) (s : State) : (airStarts cs m s).power = s.power := by
  unfold airStarts
  split
  · exact each_field State.power _ _ _ (fun c s => by simp)
  · rfl
@[simp] theorem airStarts_supply (cs : List Nat) (m : Nat) (s : State) : (airStarts cs m s).supply = s.supply := by
  unfold airStarts
  split
  · exact each_field State.supply _ _ _ (fun c s => by simp)
  · rfl
@[simp] theorem airStarts_prot (cs : List Nat) (m : Nat) (s : State) : (airStarts cs m s).prot = s.prot := by
  unfold airStarts
  split
  · exact each_field State.prot _ _ _ (fun c s => by simp)
  · rfl
@[simp] theorem airStarts_age (cs : List Nat) (m : Nat) (s : State) : (airStarts cs m s).age = s.age := by
  unfold airStarts
  split
  · exact each_field State.age _ _ _ (fun c s => by simp)
  · rfl
@[simp] theorem airStarts_rattle (cs : List Nat) (m : Nat) (s : State) : (airStarts cs m s).rattle = s.rattle := by
  unfold airStarts
  split
  · exact each_field State.rattle _ _ _ (fun c s => by simp)
  · rfl
@[simp] theorem airStarts_free (cs : List Nat) (m : Nat) (s : State) : (airStarts cs m s).free = s.free := by
  unfold airStarts
  split
  · exact each_field State.free _ _ _ (fun c s => by simp)
  · rfl

@[simp] theorem startSequence_pending (m : Nat) (s : State) : (startSequence m s).pending = s.pending := by
  unfold startSequence
  dsimp only
  split
  · rfl
  · rw [airStarts_pending]
    exact (each_field State.pending _ _ _ (fun x s => by simp)).trans rfl
@[simp] theorem startSequence_timebase (m : Nat) (s : State) : (startSequence m s).timebase = s.timebase := by
  unfold startSequence
  dsimp only
  split
  · rfl
  · rw [airStarts_timebase]
    exact (each_field State.timebase _ _ _ (fun x s => by simp)).trans rfl
@[simp] theorem startSequence_par (m : Nat) (s : State) : (startSequence m s).par = s.par := by
  unfold startSequence
  dsimp only
  split
  · rfl
  · rw [airStarts_par]
    exact (each_field State.par _ _ _ (fun x s => by simp)).trans rfl
@[simp] theorem startSequence_inForce (m : Nat) (s : State) : (startSequence m s).inForce = s.inForce := by
  unfold startSequence
  dsimp only
  split
  · rfl
  · rw [airStarts_inForce]
    exact (each_field State.inForce _ _ _ (fun x s => by simp)).trans rfl
@[simp] theorem startSequence_op (m : Nat) (s : State) : (startSequence m s).op = s.op := by
  unfold startSequence
  dsimp only
  split
  · rfl
  · rw [airStarts_op]
    exact (each_field State.op _ _ _ (fun x s => by simp)).trans rfl
@[simp] theorem startSequence_cu (m : Nat) (s : State) : (startSequence m s).cu = s.cu := by
  unfold startSequence
  dsimp only
  split
  · rfl
  · rw [airStarts_cu]
    exact (each_field State.cu _ _ _ (fun x s => by simp)).trans rfl
@[simp] theorem startSequence_waiting (m : Nat) (s : State) : (startSequence m s).waiting = s.waiting := by
  unfold startSequence
  dsimp only
  split
  · rfl
  · rw [airStarts_waiting]
    exact (each_field State.waiting _ _ _ (fun x s => by simp)).trans rfl
@[simp] theorem startSequence_running (m : Nat) (s : State) : (startSequence m s).running = s.running := by
  unfold startSequence
  dsimp only
  split
  · rfl
  · rw [airStarts_running]
    exact (each_field State.running _ _ _ (fun x s => by simp)).trans rfl
@[simp] theorem startSequence_events (m : Nat) (s : State) : (startSequence m s).events = s.events := by
  unfold startSequence
  dsimp only
  split
  · rfl
  · rw [airStarts_events]
    exact (each_field State.events _ _ _ (fun x s => by simp)).trans rfl
@[simp] theorem startSequence_front (m : Nat) (s : State) : (startSequence m s).front = s.front := by
  unfold startSequence
  dsimp only
  split
  · rfl
  · rw [airStarts_front]
    exact (each_field State.front _ _ _ (fun x s => by simp)).trans rfl
@[simp] theorem startSequence_seq (m : Nat) (s : State) : (startSequence m s).seq = s.seq := by
  unfold startSequence
  dsimp only
  split
  · rfl
  · rw [airStarts_seq]
    exact (each_field State.seq _ _ _ (fun x s => by simp)).trans rfl
@[simp] theorem startSequence_alarm (m : Nat) (s : State) : (startSequence m s).alarm = s.alarm := by
  unfold startSequence
  dsimp only
  split
  · rfl
  · rw [airStarts_alarm]
    exact (each_field State.alarm _ _ _ (fun x s => by simp)).trans rfl
@[simp] theorem startSequence_rck (m : Nat) (s : State) : (startSequence m s).rck = s.rck := by
  unfold startSequence
  dsimp only
  split
  · rfl
  · rw [airStarts_rck]
    exact (each_field State.rck _ _ _ (fun x s => by simp)).trans rfl
@[simp] theorem startSequence_clk (m : Nat) (s : State) : (startSequence m s).clk = s.clk := by
  unfold startSequence
  dsimp only
  split
  · rfl
  · rw [airStarts_clk]
    exact (each_field State.clk _ _ _ (fun x s => by simp)).trans rfl
@[simp] theorem startSequence_rf (m : Nat) (s : State) : (startSequence m s).rf = s.rf := by
  unfold startSequence
  dsimp only
  split
  · rfl
  · rw [airStarts_rf]
    exact (each_field State.rf _ _ _ (fun x s => by simp)).trans rfl
@[simp] theorem startSequence_links (m : Nat) (s : State) : (startSequence m s).links = s.links := by
  unfold startSequence
  dsimp only
  split
  · rfl
  · rw [airStarts_links]
    exact (each_field State.links _ _ _ (fun x s => by simp)).trans rfl
@[simp] theorem startSequence_cl (m : Nat) (s : State) : (startSequence m s).cl = s.cl := by
  unfold startSequence
  dsimp only
  split
  · rfl
  · rw [airStarts_cl]
    exact (each_field State.cl _ _ _ (fun x s => by simp)).trans rfl
@[simp] theorem startSequence_sessions (m : Nat) (s : State) : (startSequence m s).sessions = s.sessions := by
  unfold startSequence
  dsimp only
  split
  · rfl
  · rw [airStarts_sessions]
    exact (each_field State.sessions _ _ _ (fun x s => by simp)).trans rfl
@[simp] theorem startSequence_rods (m : Nat) (s : State) : (startSequence m s).rods = s.rods := by
  unfold startSequence
  dsimp only
  split
  · rfl
  · rw [airStarts_rods]
    exact (each_field State.rods _ _ _ (fun x s => by simp)).trans rfl
@[simp] theorem startSequence_audio (m : Nat) (s : State) : (startSequence m s).audio = s.audio := by
  unfold startSequence
  dsimp only
  split
  · rfl
  · rw [airStarts_audio]
    exact (each_field State.audio _ _ _ (fun x s => by simp)).trans rfl
@[simp] theorem startSequence_mem (m : Nat) (s : State) : (startSequence m s).mem = s.mem := by
  unfold startSequence
  dsimp only
  split
  · rfl
  · rw [airStarts_mem]
    exact (each_field State.mem _ _ _ (fun x s => by simp)).trans rfl
@[simp] theorem startSequence_ana (m : Nat) (s : State) : (startSequence m s).ana = s.ana := by
  unfold startSequence
  dsimp only
  split
  · rfl
  · rw [airStarts_ana]
    exact (each_field State.ana _ _ _ (fun x s => by simp)).trans rfl
@[simp] theorem startSequence_inst (m : Nat) (s : State) : (startSequence m s).inst = s.inst := by
  unfold startSequence
  dsimp only
  split
  · rfl
  · rw [airStarts_inst]
    exact (each_field State.inst _ _ _ (fun x s => by simp)).trans rfl
@[simp] theorem startSequence_tw (m : Nat) (s : State) : (startSequence m s).tw = s.tw := by
  unfold startSequence
  dsimp only
  split
  · rfl
  · rw [airStarts_tw]
    exact (each_field State.tw _ _ _ (fun x s => by simp)).trans rfl
@[simp] theorem startSequence_power (m : Nat) (s : State) : (startSequence m s).power = s.power := by
  unfold startSequence
  dsimp only
  split
  · rfl
  · rw [airStarts_power]
    exact (each_field State.power _ _ _ (fun x s => by simp)).trans rfl
@[simp] theorem startSequence_supply (m : Nat) (s : State) : (startSequence m s).supply = s.supply := by
  unfold startSequence
  dsimp only
  split
  · rfl
  · rw [airStarts_supply]
    exact (each_field State.supply _ _ _ (fun x s => by simp)).trans rfl
@[simp] theorem startSequence_prot (m : Nat) (s : State) : (startSequence m s).prot = s.prot := by
  unfold startSequence
  dsimp only
  split
  · rfl
  · rw [airStarts_prot]
    exact (each_field State.prot _ _ _ (fun x s => by simp)).trans rfl
@[simp] theorem startSequence_age (m : Nat) (s : State) : (startSequence m s).age = s.age := by
  unfold startSequence
  dsimp only
  split
  · rfl
  · rw [airStarts_age]
    exact (each_field State.age _ _ _ (fun x s => by simp)).trans rfl
@[simp] theorem startSequence_rattle (m : Nat) (s : State) : (startSequence m s).rattle = s.rattle := by
  unfold startSequence
  dsimp only
  split
  · rfl
  · rw [airStarts_rattle]
    exact (each_field State.rattle _ _ _ (fun x s => by simp)).trans rfl
@[simp] theorem startSequence_free (m : Nat) (s : State) : (startSequence m s).free = s.free := by
  unfold startSequence
  dsimp only
  split
  · rfl
  · rw [airStarts_free]
    exact (each_field State.free _ _ _ (fun x s => by simp)).trans rfl

/-! The ledger operations of work without a key are those with key 0. -/

@[simp] theorem admitWork_eq (asks : List Ask) (s : State) : admitWork asks s = admitFor 0 asks s := rfl
@[simp] theorem commitWork_eq (ws : List WorkRef) (s : State) : commitWork ws s = commitFor 0 ws.contains s := rfl
@[simp] theorem dropWork_eq (ws : List WorkRef) (s : State) : dropWork ws s = dropFor 0 ws.contains s := rfl

end Sys2Proof.Machine
end

