-- ==== Sys2Proof/Laws/Harness.lean ====
section
/-! SUPPORT. What a host command answers that starts at once, by its class: the lemmas that the claims about commands cite. -/

namespace Sys2Proof.Machine

theorem stopRunning_absent (r : Running) (s : State)
    (h : ∀ q ∈ s.running, ¬(q.hdr.ch = r.hdr.ch ∧ q.hdr.tag = r.hdr.tag)) : stopRunning r s = s := by
  have hf : s.running.filter (fun q => !isSame r q) = s.running := by
    apply List.filter_eq_self.2
    intro q hq
    have := h q hq
    simp only [isSame, Bool.not_eq_true', Bool.and_eq_false_iff, beq_eq_false_iff_ne, ne_eq]
    by_cases hc : q.hdr.ch = r.hdr.ch
    · exact .inr (fun e => this ⟨hc, e.symm⟩)
    · exact .inl (fun e => hc e.symm)
  unfold stopRunning
  rw [hf]

theorem putRunning_absent (r : Running) (s : State)
    (h : ∀ q ∈ s.running, ¬(q.hdr.ch = r.hdr.ch ∧ q.hdr.tag = r.hdr.tag)) :
    putRunning r s = { s with running := s.running ++ [r] } := by
  unfold putRunning
  rw [stopRunning_absent r s h]

variable {c : Instr} {h : Hdr} {op : Nat} {s u t : State} {p : Prog} {pl : List Byte} {st : Status}

/-- A packet that starts at once runs. -/
theorem submit_starts (hs : Starts c h op s) : ∃ params, encodeCmd c = some (h, op, params) ∧
    submit p c s = runCmd p (runningOf c h op) params (started h s) := by
  obtain ⟨params, he, hl⟩ := hs.packet
  refine ⟨params, he, ?_⟩
  have hd : replyDelayed (bump P.sysCmdsExecuted (onChan h.ch (fun k => { k with tags := k.tags ||| tagBit h.tag }) s)) h.ch = false := by
    simp [replyDelayed, hs.prompt]
  have ht : tagCheck h s = none := by
    unfold tagCheck
    rw [if_neg (by have := hs.room; omega), if_neg (by simp [hs.tag])]
  unfold submit
  rw [he]
  dsimp only
  rw [if_neg (by simp [hs.runs, hs.listens]), if_neg (by omega), if_pos (by simp [hs.first]), ht]
  dsimp only
  rw [if_neg (by simp [hs.turn])]
  unfold launch
  dsimp only
  rw [hd]
  simp only [Bool.and_false, Bool.false_and, Bool.false_eq_true, if_false]
  rfl

/-- A command whose checks fail ends with their status and changes nothing but what the checks count. -/
theorem submit_refused (hs : Starts c h op s) (hc : ownChecks p (started h s) = (st, u)) (hst : st ≠ .ok) :
    submit p c s = turnedAway h op st u := by
  obtain ⟨params, _, e⟩ := submit_starts (p := p) hs
  rw [e]
  unfold runCmd
  rw [hc]
  simp only [hst, ne_eq, not_false_eq_true, if_true]
  cases st <;> simp_all [finish, runningOf, turnedAway]

/-- Without a wake and without cosign a command whose checks pass begins its work. -/
theorem submit_begins (hs : Starts c h op s) (hc : ownChecks p (started h s) = (.ok, u))
    (hg : p.guard (started h s) = none) (hr : (p.needs u).all (railsUp u) = true)
    (hd : (p.needs u).filter (fun d => !domOn u d) = []) :
    submit p c s = beginWork p (runningOf c h op) u := by
  obtain ⟨params, _, e⟩ := submit_starts (p := p) hs
  rw [e]
  unfold runCmd
  rw [hc]
  simp only [ne_eq, not_true_eq_false, if_false, hg]
  unfold needDomains
  rw [if_pos hr, hd]
  rfl

theorem accept_classA (r : Running) (s : State) (hr : r.cls = 1) : accept r s = (r, s) := by simp [accept, hr]

theorem accept_first (r : Running) (s : State) (hr : r.cls ≠ 1) (ha : r.accepted = false) :
    accept r s = ({ r with accepted := true }, sendReply r.hdr r.op false .accepted [] false s) := by
  simp [accept, hr, ha]

theorem proceed_classA (p : Prog) (r : Running) (s : State) (hr : r.cls = 1) :
    proceed p r none s = complete p r (stopRunning r s) := by
  simp [proceed, accept_classA r s hr, hr]

theorem proceed_accepts (p : Prog) (r : Running) (s : State) (hr : r.cls ≠ 1) (ha : r.accepted = false)
    (hd : smFind s.rattle.armed 3 = none) :
    proceed p r none s = complete p { r with accepted := true }
      (stopRunning r (sendReply r.hdr r.op false .accepted [] false s)) := by
  have h1 : replyDelayed (sendReply r.hdr r.op false .accepted [] false s) r.hdr.ch = false := by
    simp [replyDelayed, sendReply, hd]
  simp [proceed, accept_first r s hr ha, h1]
  rfl

theorem complete_ok {r : Running} (ha : p.apply r.aux s = (.ok, pl, t)) : complete p r s = finish r .ok pl t := by
  unfold complete
  rw [ha]
  simp

/-- A class A command that needs no domain and passes its checks replies once and its effect is done. -/
theorem submit_direct (hs : Starts c h op s) (hcl : classOf op = 1) (hn : ∀ v, p.needs v = [])
    (hb : ∀ v, p.begin v = (none, 0, v)) (hg : p.guard (started h s) = none)
    (hc : p.check (started h s) = (.ok, u)) (hu : u.running = s.running) (ha : p.apply 0 u = (.ok, pl, t)) :
    submit p c s = replied h op pl t := by
  rw [submit_begins hs (u := u) (by simp [ownChecks, hc, hn]) hg (by simp [hn]) (by simp [hn])]
  unfold beginWork
  rw [hb]
  dsimp only
  rw [proceed_classA _ _ _ hcl, stopRunning_absent _ u (by rw [hu]; exact hs.free)]
  refine (complete_ok (r := runningOf c h op) ha).trans ?_
  simp [finish, replied, runningOf, hcl]

/-- The domains that a command needs run: its checks are its own, and nothing stalls it. -/
theorem awake_checks (hc : p.check (started h s) = (.ok, u)) (hn : Awake (p.needs (started h s)) (started h s)) :
    ownChecks p (started h s) = (.ok, u) := by
  unfold ownChecks
  rw [hc]
  simp only [reduceCtorEq, if_false]
  rw [if_pos (List.all_eq_true.2 (fun d hd => (hn d hd).1))]

/-- The domains a command needs run, so it begins. -/
theorem submit_awake (hs : Starts c h op s) (hc : p.check (started h s) = (.ok, u))
    (hg : p.guard (started h s) = none) (hn : Awake (p.needs (started h s)) (started h s)) (hv : Awake (p.needs u) u) :
    submit p c s = beginWork p (runningOf c h op) u := by
  refine submit_begins hs (awake_checks hc hn) hg (List.all_eq_true.2 (fun d hd => (hv d hd).2.1)) ?_
  exact List.filter_eq_nil_iff.2 (fun d hd => by simp [(hv d hd).2.2])

/-- Domains run by the power state, the rails and the domains that are on. -/
theorem Awake.of {ds : List Nat} {s t : State} (ha : Awake ds s) (hp : t.power = s.power) (hs : t.supply = s.supply) :
    Awake ds t := fun d hd => by
  have h1 := ha d hd
  simpa [railsUp, domOn, hp, hs] using h1

theorem Awake.started {ds : List Nat} {s : State} (h : Hdr) (ha : Awake ds s) : Awake ds (started h s) :=
  ha.of (by simp) (by simp)

/-- A class A command whose domains run replies once and its effect is done. -/
theorem submit_reply (hs : Starts c h op s) (hcl : classOf op = 1) (hb : ∀ v, p.begin v = (none, 0, v))
    (hg : p.guard (started h s) = none) (hc : p.check (started h s) = (.ok, u)) (hu : u.running = s.running)
    (hn : Awake (p.needs (started h s)) (started h s)) (hv : Awake (p.needs u) u) (ha : p.apply 0 u = (.ok, pl, t)) :
    submit p c s = replied h op pl t := by
  rw [submit_awake hs hc hg hn hv]
  unfold beginWork
  rw [hb]
  dsimp only
  rw [proceed_classA _ _ _ hcl, stopRunning_absent _ u (by rw [hu]; exact hs.free)]
  refine (complete_ok (r := runningOf c h op) ha).trans ?_
  simp [finish, replied, runningOf, hcl]

/-- A class B or C command that waits for nothing replies ACCEPTED, does its effect and completes. -/
theorem submit_done {v : State} {aux : Nat} (hs : Starts c h op s) (hcl : classOf op ≠ 1)
    (hc : p.check (started h s) = (.ok, u)) (hg : p.guard (started h s) = none)
    (hn : Awake (p.needs (started h s)) (started h s)) (hv : Awake (p.needs u) u)
    (hb : p.begin u = (none, aux, v)) (hr : v.running = s.running) (hd : v.rattle.armed = s.rattle.armed)
    (ha : p.apply aux (acceptedBy h op v) = (.ok, pl, t)) :
    submit p c s = completed h op pl t := by
  rw [submit_awake hs hc hg hn hv]
  unfold beginWork
  rw [hb]
  dsimp only
  have h1 : ({ runningOf c h op with aux := aux } : Running).cls ≠ 1 := hcl
  rw [proceed_accepts _ _ _ h1 rfl (by rw [hd]; exact hs.prompt)]
  rw [stopRunning_absent _ _ (by simp only [sendReply_running, hr]; exact hs.free)]
  refine (complete_ok (r := { runningOf c h op with aux := aux, accepted := true }) ha).trans ?_
  simp [finish, completed, runningOf, hcl]

/-- A class B or C command that waits for an instant replies ACCEPTED and is listed with what it waits for. -/
theorem submit_waits {v : State} {aux : Nat} {w : Wait} (hs : Starts c h op s) (hcl : classOf op ≠ 1)
    (hc : p.check (started h s) = (.ok, u)) (hg : p.guard (started h s) = none)
    (hn : Awake (p.needs (started h s)) (started h s)) (hv : Awake (p.needs u) u)
    (hb : p.begin u = (some w, aux, v)) (hr : v.running = s.running) (hw : ∀ id, w ≠ .lock id) :
    submit p c s = { acceptedBy h op v with
      running := s.running ++ [{ runningOf c h op with aux := aux, accepted := true, wait := w }] } := by
  rw [submit_awake hs hc hg hn hv]
  unfold beginWork
  rw [hb]
  have h1 : ({ runningOf c h op with aux := aux } : Running).cls ≠ 1 := hcl
  cases w <;> simp only [proceed] <;> first
    | exact absurd rfl (hw _)
    | (rw [accept_first _ _ h1 rfl]
       dsimp only
       rw [putRunning_absent _ _ (by simp only [sendReply_running, hr]; exact hs.free)]
       simp [acceptedBy, runningOf, hr])

/-- A class A command that waits for an instant is listed with what it waits for, and has sent nothing. -/
theorem submit_holds {v : State} {aux : Nat} {w : Wait} (hs : Starts c h op s) (hcl : classOf op = 1)
    (hc : p.check (started h s) = (.ok, u)) (hg : p.guard (started h s) = none)
    (hn : Awake (p.needs (started h s)) (started h s)) (hv : Awake (p.needs u) u)
    (hb : p.begin u = (some w, aux, v)) (hr : v.running = s.running) :
    submit p c s = { v with running := s.running ++ [{ runningOf c h op with aux := aux, wait := w }] } := by
  rw [submit_awake hs hc hg hn hv]
  unfold beginWork
  rw [hb]
  have h1 : ({ runningOf c h op with aux := aux } : Running).cls = 1 := hcl
  have h2 : ∀ r : Running, r.hdr = h → putRunning r v = { v with running := s.running ++ [r] } := fun r hh => by
    rw [putRunning_absent r v (by rw [hr, hh]; exact hs.free), hr]
  cases w <;> simp only [proceed] <;> first
    | exact h2 _ rfl
    | (rw [accept_classA _ _ h1]
       exact h2 _ rfl)

/-- A class A command that ends its work at once replies once. -/
theorem submit_now {v : State} {aux : Nat} (hs : Starts c h op s) (hcl : classOf op = 1)
    (hc : p.check (started h s) = (.ok, u)) (hg : p.guard (started h s) = none)
    (hn : Awake (p.needs (started h s)) (started h s)) (hv : Awake (p.needs u) u)
    (hb : p.begin u = (none, aux, v)) (hr : v.running = s.running) (ha : p.apply aux v = (.ok, pl, t)) :
    submit p c s = replied h op pl t := by
  rw [submit_awake hs hc hg hn hv]
  unfold beginWork
  rw [hb]
  dsimp only
  have h1 : ({ runningOf c h op with aux := aux } : Running).cls = 1 := hcl
  rw [proceed_classA _ _ _ h1, stopRunning_absent _ v (by rw [hr]; exact hs.free)]
  refine (complete_ok (r := { runningOf c h op with aux := aux }) ha).trans ?_
  simp [finish, replied, runningOf, hcl]

/-- A command that waits for a lock instant keeps its start reply back (04 R107). -/
theorem submit_locks {v : State} {aux id : Nat} (hs : Starts c h op s)
    (hc : p.check (started h s) = (.ok, u)) (hg : p.guard (started h s) = none)
    (hn : Awake (p.needs (started h s)) (started h s)) (hv : Awake (p.needs u) u)
    (hb : p.begin u = (some (.lock id), aux, v)) (hr : v.running = s.running) :
    submit p c s = { v with running := s.running ++ [{ runningOf c h op with aux := aux, wait := .lock id }] } := by
  rw [submit_awake hs hc hg hn hv]
  unfold beginWork
  rw [hb]
  simp only [proceed]
  rw [putRunning_absent _ _ (by rw [hr]; exact hs.free), hr]

/-- A protected command whose checks pass and whose approval matches: the approval is consumed, the command runs, and its
use is reported before its completion (16 R434). -/
theorem submit_cosigned {v : State} {aux d : Nat} {extra params : List Byte} {w : State} (hs : Starts c h op s)
    (hcl : classOf op ≠ 1) (he : encodeCmd c = some (h, op, params))
    (hc : p.check (started h s) = (.ok, u)) (hg : p.guard (started h s) = some extra)
    (hk : cosignCheck h (canonicalImage op params ++ extra) (started h s) = (.ok, some d, w))
    (hn : Awake (p.needs (started h s)) (started h s)) (hv : Awake (p.needs { u with prot := w.prot }) { u with prot := w.prot })
    (hb : p.begin { u with prot := w.prot } = (none, aux, v)) (hr : v.running = s.running)
    (hd : v.rattle.armed = s.rattle.armed) (ha : p.apply aux (acceptedBy h op v) = (.ok, pl, t)) :
    submit p c s = completed h op pl (queueEvent 0xB006 (256 * op + h.tag) d (bump P.protApplied t)) := by
  obtain ⟨params', he', e⟩ := submit_starts (p := p) hs
  obtain rfl : params = params' := by
    rw [he] at he'
    exact (Prod.mk.inj (Prod.mk.inj (Option.some.inj he')).2).2
  rw [e]
  unfold runCmd
  rw [awake_checks hc hn]
  simp only [ne_eq, not_true_eq_false, if_false, hg, show (runningOf c h op).hdr = h from rfl,
    show (runningOf c h op).op = op from rfl, hk]
  unfold needDomains
  rw [if_pos (List.all_eq_true.2 (fun d hd => (hv d hd).2.1)),
    List.filter_eq_nil_iff.2 (fun d hd => by simp [(hv d hd).2.2])]
  dsimp only
  unfold beginWork
  rw [hb]
  dsimp only
  have h1 : ({ runningOf c h op with cosigned := some d, aux := aux } : Running).cls ≠ 1 := hcl
  refine (proceed_accepts p { runningOf c h op with cosigned := some d, aux := aux } v h1 rfl (by rw [hd]; exact hs.prompt)).trans ?_
  rw [stopRunning_absent _ _ (by simp only [sendReply_running, hr]; exact hs.free)]
  refine (complete_ok (r := { runningOf c h op with cosigned := some d, aux := aux, accepted := true }) ha).trans ?_
  simp [finish, completed, runningOf, hcl]

/-- A protected command without the COSIGN flag is turned away (02 R56). -/
theorem submit_uncosigned {extra : List Byte} (hs : Starts c h op s) (hf : h.cosign = false)
    (hc : ownChecks p (started h s) = (.ok, u)) (hg : p.guard (started h s) = some extra) :
    submit p c s = turnedAway h op .needsCosign (started h s) := by
  obtain ⟨params, _, e⟩ := submit_starts (p := p) hs
  rw [e]
  unfold runCmd
  rw [hc]
  have hh : (runningOf c h op).hdr = h := rfl
  simp only [ne_eq, not_true_eq_false, if_false, hg, cosignCheck, hh, hf, Bool.not_false, if_true, reduceCtorEq,
    not_false_eq_true]
  simp [finish, runningOf, turnedAway]

/-- The policy depends on the OTP alone. -/
theorem policy_congr {s t : State} (hp : t.prot = s.prot) : policy t = policy s := by
  have h0 : ∀ a, otpAt t a = otpAt s a := fun a => by simp [otpAt, hp]
  have h1 : ∀ k i, slotBytes t k i = slotBytes s k i := fun k i => by simp [slotBytes, otpBytes, h0]
  have h2 : slotValid t = slotValid s := by
    funext k i
    simp [slotValid, slotCheck, otpBytes, h0, h1]
  simp [policy, slotInForce, h1, h2]

/-- The keys depend on the OTP alone. -/
theorem keyOf_congr {s t : State} (hp : t.prot = s.prot) (k : Chan) : keyOf t k = keyOf s k := by
  have h0 : ∀ a, otpAt t a = otpAt s a := fun a => by simp [otpAt, hp]
  have h1 : ∀ k i, slotBytes t k i = slotBytes s k i := fun k i => by simp [slotBytes, otpBytes, h0]
  have h2 : slotValid t = slotValid s := by
    funext k i
    simp [slotValid, slotCheck, otpBytes, h0, h1]
  have h3 : slotBytes t = slotBytes s := by
    funext k i
    exact h1 k i
  simp [keyOf, slotInForce, h2, h3]

@[simp] theorem keyOf_started (h : Hdr) (s : State) (k : Chan) : keyOf (started h s) k = keyOf s k :=
  keyOf_congr (by simp) k
@[simp] theorem policy_started (h : Hdr) (s : State) : policy (started h s) = policy s := policy_congr (by simp)

end Sys2Proof.Machine
end

