-- ==== Sys2Proof/Laws/Resets.lean ====
section
/-! SUPPORT. What every reset kind and every power state keeps, and what entering a reset leaves (15 R421, R422). -/

namespace Sys2Proof.Machine

theorem loseAdmissions_keeps (s : State) : (loseAdmissions s).front = s.front ∧ (loseAdmissions s).supply = s.supply ∧
    (loseAdmissions s).timebase = s.timebase ∧ (loseAdmissions s).clk = s.clk := by
  have h : ∀ {α : Type} (g : State → α), (∀ k v u, g (parSet k v u) = g u) → (∀ (u : State) r, g { u with rf := r } = g u) →
      (∀ i f u, g (onRod i f u) = g u) → (∀ (u : State) l1 l2 l3 l4 l5 l6 l7 l8, g { u with links := l1, carriers := l2, rods := l3, audio := l4, inst := l5, rck := { u.rck with charges := l6, overLimit := l7, overBudget := l7, missed := [], stalled := l8 } } = g u) →
      g (loseAdmissions s) = g s := by
    intro α g h1 h2 h3 h4
    unfold loseAdmissions
    dsimp only
    refine (h4 _ _ _ _ _ _ _ [] _).trans ?_
    rw [each_field g, each_field g, each_field g, each_field g]
    · intro n u
      rw [each_field g _ _ _ (fun k u => h1 _ _ _)]
      unfold freePriv
      split
      · unfold withTone
        dsimp only
        split
        · exact h2 _ _
        · exact (h2 _ _).trans (h2 _ _)
      · rfl
    · intro n u
      exact each_field g _ _ _ (fun k u => h1 _ _ _)
    · intro n u
      unfold showPort
      exact each_field g _ _ _ (fun k u => h1 _ _ _)
    · intro n u
      unfold clearSwap
      rw [h1, h1, h3]
  refine ⟨h State.front ?_ ?_ ?_ ?_, h State.supply ?_ ?_ ?_ ?_, h State.timebase ?_ ?_ ?_ ?_, h State.clk ?_ ?_ ?_ ?_⟩ <;>
    intros <;> rfl

theorem lose_keeps {α : Type} (g : State → α) (hs : ∀ u, g (loseSynths u) = g u) (ho : ∀ u, g (loseOther u) = g u)
    (hq : ∀ l u, g (loseQueues l u) = g u) (hm : ∀ u, g (loseMem u) = g u) (ha : ∀ u, g (loseAon u) = g u)
    (hp : ∀ (u : State) q, g { u with par := q } = g u) (s : State) (h : g (loseAdmissions s) = g s) (l : Life) :
    g (survive l s) = g s := by
  have e : ∀ l, g (loseSynths (loseOther (loseQueues l (loseAdmissions s)))) = g s := fun l => by rw [hs, ho, hq, h]
  have key : ∀ l : Life, g (let u := loseSynths (loseOther (loseQueues l (loseAdmissions s)))
      let u := if keepsMem l then u else loseMem u
      let u := if keepsAon l then u else loseAon u
      { u with par := u.par.filter (fun p => keeps l (keptOf p.1)) }) = g s := by
    intro l
    dsimp only
    rw [hp]
    split <;> split <;> simp only [ha, hm, e]
  cases l
  case quiet => rfl
  case scan => exact h
  all_goals exact key _

theorem survive_keeps (l : Life) (s : State) : (survive l s).front = s.front ∧ (survive l s).supply = s.supply ∧
    (survive l s).timebase = s.timebase ∧ (survive l s).clk.lfCrystal = s.clk.lfCrystal := by
  obtain ⟨a, b, c, d⟩ := loseAdmissions_keeps s
  exact ⟨lose_keeps State.front (fun _ => rfl) (fun _ => rfl) (fun _ _ => rfl) (fun _ => rfl) (fun _ => rfl) (fun _ _ => rfl) s a l,
    lose_keeps State.supply (fun _ => rfl) (fun _ => rfl) (fun _ _ => rfl) (fun _ => rfl) (fun _ => rfl) (fun _ _ => rfl) s b l,
    lose_keeps State.timebase (fun _ => rfl) (fun _ => rfl) (fun _ _ => rfl) (fun _ => rfl) (fun _ => rfl) (fun _ _ => rfl) s c l,
    lose_keeps (fun u => u.clk.lfCrystal) (fun _ => rfl) (fun _ => rfl) (fun _ _ => rfl) (fun _ => rfl) (fun _ => rfl) (fun _ _ => rfl) s (congrArg Clocks.lfCrystal d) l⟩

theorem bumped {α : Type} (g : State → α) (hg : ∀ u, g (bump P.pwrWdogResets u) = g u) (c : Prop) [Decidable c] (u : State) :
    g (if c then bump P.pwrWdogResets u else u) = g u := by
  split
  · exact hg u
  · rfl

theorem enterReset_seq (k : Nat) (s : State) : (enterReset k s).seq = Seq.reset := by
  unfold enterReset
  dsimp only
  rw [bumped State.seq (by simp)]

theorem enterReset_time (k : Nat) (s : State) (h : s.supply.resetHeld = none) :
    (enterReset k s).timebase = if resetsCkg k then 0 else s.timebase := by
  unfold enterReset
  dsimp only
  rw [bumped State.timebase (by simp), h]
  simp only [Option.elim_none, (survive_keeps _ s).2.2.1]

theorem enterReset_held (k : Nat) (s : State) (h : s.supply.resetHeld = none) :
    (enterReset k s).supply.resetHeld = if resetsCkg k then some k else none := by
  unfold enterReset
  dsimp only
  rw [bumped State.supply (by simp), h]
  rfl

theorem enterReset_cause (k : Nat) (s : State) (h : s.supply.resetHeld = none) :
    (enterReset k s).front.resetCause = if resetsCkg k then 0 else k := by
  unfold enterReset
  dsimp only
  rw [bumped State.front (by simp), h]
  rfl
theorem enterReset_lf (s : State) (h : s.supply.resetHeld = none) : (enterReset 4 s).clk.lfCrystal = s.clk.lfCrystal := by
  unfold enterReset
  dsimp only
  rw [bumped (fun u => u.clk.lfCrystal) (by simp), h]
  exact (survive_keeps _ s).2.2.2

end Sys2Proof.Machine
end

