-- ==== Sys2Proof/Tests/Slice0.lean ====
section
/-! SUPPORT. Our own tests: well-formedness, the spec's worked examples, and for each statement states and operands that meet its
hypotheses. -/

namespace Sys2Proof.Tests

-- One theorem after another: the checks of many at once need more threads than the memory limit admits.
set_option Elab.async false

/-- A packet header of the Operator channel. -/
def hd : Hdr := { ch := .operator, tag := 3 }

theorem test_wf_nop : (Instr.nop hd).wf = true := by decide
theorem test_illformed_tag : (Instr.nop { ch := .operator, tag := 16 }).wf = false := by decide
theorem test_illformed_u8 : (Instr.linkClose hd 256).wf = false := by decide
theorem test_illformed_u16 : (Instr.paramGet hd 65536).wf = false := by decide
theorem test_illformed_u32 : (Instr.paramSet hd 0 4294967296).wf = false := by decide
theorem test_illformed_u64 : (Instr.coefSwap hd 0 (2 ^ 64)).wf = false := by decide
theorem test_illformed_s8 : (Instr.rfSetGain hd 0 1 128).wf = false := by decide
theorem test_illformed_s16 : (Instr.routeSet hd 0 0 0 (-32769)).wf = false := by decide
theorem test_illformed_s32 : (Instr.analogConfig hd 0 0 (2 ^ 31)).wf = false := by decide
theorem test_illformed_digest : (Instr.cosignPropose hd []).wf = false := by decide
theorem test_illformed_key : (Instr.sessionAdd hd 0 1 0 []).wf = false := by decide
theorem test_illformed_data : (Instr.fwPatchData hd 0 []).wf = false := by decide
theorem test_illformed_link : (Instr.laneReacquire 64).wf = false := by decide
theorem test_illformed_domain : (Instr.domainWdog 12).wf = false := by decide
theorem test_illformed_synth : (Instr.synthLockCheck 0 true 0).wf = false := by decide
theorem test_illformed_slot : (Instr.replySlotEnd 30 true).wf = false := by decide
theorem test_illformed_port : (Instr.startTrig).wf = true ∧ (Instr.portStopped 6).wf = false := by decide
theorem test_illformed_addr : (Instr.twReadTransfer 128 1 none).wf = false := by decide


/-! ### Worked examples of the spec -/

open Sys2Proof.Machine

-- 02: NOP with tag 3.
theorem test_crc_nop : crc16 [0, 3, 0, 0] = 0xDD90 := by decide +kernel
-- 04: the RX window's lower edge at 606 MHz.
theorem test_lo_divider : loDivider 1 598000000 = 7 := by decide +kernel
theorem test_lo_word : loWord 1 598000000 = 34 * 2 ^ 24 + 1103189 := by decide +kernel
theorem test_lo_error : loError 1 598000000 = -349 := by decide +kernel
-- 06: the uplink frame of air ID 37 at boundary 1 000 005.
theorem test_header_symbols : bitSymbols (natBits 16 (37 * 64 + 5 * 4)) = [1, 1, -1, 3, 3, 3, 3, 1] := by decide +kernel
theorem test_scrambled : scramble (scrSeed 5 37) (natBits 8 0x56) = natBits 8 0xAE := by decide +kernel
theorem test_metadata_symbols : bitSymbols (scramble (scrSeed 5 37) (natBits 8 0x56)) = [-1, -1, -3, -1] := by decide +kernel
theorem test_counter_block : frameCounter 1 0 37 1000005 3 0 = [1, 0, 0x25, 0, 0x45, 0x42, 0x0F, 0, 0, 0, 3, 0, 0, 0, 0, 0] := by
  decide +kernel
-- 06: a Tally block.
theorem test_tally : (tallyDecode tallyNormal (natBits 24 0x008011 ++ natBits 24 0x17D7E0 ++ List.replicate 120 false)).map
    (List.take 4) = some [32848, 32800, 33296, 32784] := by decide +kernel
-- 07: LQ at EVM 10 %, after one lost frame, and 6 and 7 frames later.
theorem test_lq : [mkRat 1 100, mkRat 71875 1000000, mkRat 5201 100000, mkRat 4938 100000].map (fun m => lqOf (some m) false) =
    [153, 44, 62, 65] := by decide +kernel
-- 10: the compressor's logarithm and its gain.
theorem test_log2 : beadLog2 339542016 = 1852368 := by decide +kernel
theorem test_exp2 : beadExp2 901440 = 14376 := by decide +kernel

/-! ### States and operands that meet the hypotheses of the statements, one theorem a statement, a case a clause. -/

/-- Whether a packet starts at once, as a computation. -/
def startsB (c : Instr) (h : Hdr) (op : Nat) (s : State) : Bool :=
  (match encodeCmd c with
    | some (h', op', ps) => decide (h' = h) && decide (op' = op) && decide (cmdLevel s h.ch + 6 + ps.length ≤ 2048)
    | none => false) &&
  s.seq.running && !(chan s h.ch).discard && s.waiting.isEmpty && decide (tagsInFlight (chan s h.ch) < 16) &&
  !(chan s h.ch).tags.getLsbD h.tag && s.running.all (fun r => !(decide (r.hdr.ch = h.ch) && decide (r.hdr.tag = h.tag))) &&
  !mustWait c op s && (smFind s.rattle.armed 3).isNone

theorem starts_of {c : Instr} {h : Hdr} {op : Nat} {s : State} (hb : startsB c h op s = true) : Starts c h op s := by
  simp only [startsB, Bool.and_eq_true, Bool.not_eq_true', decide_eq_true_eq, List.isEmpty_iff, Option.isNone_iff_eq_none,
    List.all_eq_true, Bool.and_eq_false_iff, decide_eq_false_iff_not] at hb
  obtain ⟨⟨⟨⟨⟨⟨⟨⟨h1, h2⟩, h3⟩, h4⟩, h5⟩, h6⟩, h7⟩, h8⟩, h9⟩ := hb
  refine ⟨?_, h2, h3, h4, h5, h6, fun r hr hc => ?_, h8, h9⟩
  · split at h1
    · rename_i e
      simp only [Bool.and_eq_true, decide_eq_true_eq] at h1
      obtain ⟨⟨rfl, rfl⟩, hl⟩ := h1
      exact ⟨_, e, hl⟩
    · cases h1
  · rcases h7 r hr with hn | hn
    · exact hn hc.1
    · exact hn hc.2

theorem awake_of {ds : List Nat} {s : State}
    (hb : ds.all (fun d => domAllowed s.power.state d && railsUp s d && domOn s d) = true) : Awake ds s := by
  intro d hd
  have := List.all_eq_true.1 hb d hd
  simp only [Bool.and_eq_true] at this
  exact ⟨this.1.1, this.1.2, this.2⟩

/-- A synthesiser that is locked on a frequency. -/
def lockedAt (f : Nat) : Synth := { Synth.reset with phase := .locked, freq := f }

/-- A device that runs in ACTIVE with every domain on, its windows tuned to 470 MHz and every bin permitted that a
frequency near 500 MHz touches. -/
def w : State := { State.reset with
  timebase := 61440 * 1000
  seq := { Seq.reset with running := true, waking := false }
  power := { Power.reset with on := 0xFFF }
  supply := { Supply.reset with booting := false }
  par := [(P.rfrRxWindowEdge, 470000000), (P.txWindowEdge, 470000000)]
  clk := { Clocks.reset with
    xtalQual := true, xtalMeant := true, pllLocked := true
    rx := lockedAt 462000000, tx := lockedAt 464000000, cmd := lockedAt 2441000000 }
  rf := { Rf.reset with perm := (List.range 12).map (fun i => (226 + i, 3)) } }

/-- `w` with one link open at 500 MHz. -/
def wl : State := { w with links := [(2, { Link.reset with isOpen := true, freq := 500000000 })] }

/-- `w` with one carrier open at 500 MHz. -/
def wc : State := { w with carriers := [(2, { Carrier.reset with phase := .opened, freq := 500000000 })] }

/-- `w` with a proposal of the Operator, and no policy burnt. -/
def zeroOtp : SMap Nat := (List.range 512).map (fun a => (a, 0))

def hcu : Hdr := { ch := .custodian, tag := 15 }
def hroc : Hdr := { ch := .operator, tag := 0, roc := true }
def hc : Hdr := { ch := .operator, tag := 3, roc := true, cosign := true }
def prop (ch : Chan) (dig : List Byte) (ok : Bool) : Proposal :=
  { role := ch, digest := dig, nonce := List.replicate 16 7, approved := ok, made := 61440 * 1000, patch := none, patchAt := 0 }
def wp0 : State := { w with rf := { w.rf with permPending := some [] } }
def pp : Proposal := prop .operator (sha256 ([0x15, 0x20, 1, 0, 1] ++ planImage wp0)) true
theorem planImage_congr {s t : State} (h : s.rf = t.rf) : planImage s = planImage t := by
  unfold planImage
  rw [h]
def wp : State := { wp0 with prot := { w.prot with proposal := some pp } }
theorem wp_digest : sha256 ([0x15, 0x20, 1, 0, 1] ++ planImage (started hc wp)) = pp.digest := by
  rw [planImage_congr (s := started hc wp) (t := wp0) (by simp [started, wp])]
  simp only [pp, prop]

/-- Zeros. -/
def z (n : Nat) : List Byte := List.replicate n 0
def key7 : List Byte := List.replicate 16 7
/-- `w` with a key of each role burnt into its first slot. -/
def wk : State :=
  otpBurn 0x1C0 (leBytes 2 (crc16 key7)) (otpBurn 0x1C8 (leBytes 2 (crc16 key7)) (otpBurn (slotAddr 0 0) key7 (otpBurn (slotAddr 1 0) key7
    { w with prot := { w.prot with otp := zeroOtp }, front := { w.front with otpValid := true } })))
def withProp (p : Proposal) (s : State) : State := { s with prot := { s.prot with proposal := some p } }
def p0 : Proposal := prop .operator (z 32) false
def p8 : Proposal := prop .operator (sha256 (canonicalImage 0x08 (leBytes 4 4 ++ z 32))) true
def q9 : PatchSeq := { length := 4, digest := sha256 (z 4), data := [] }
def p9 : Proposal := { p8 with patch := some q9, patchAt := 61440 * 1000 }
def pt : Pert := { target := 0, setting := 1, armedAt := 0, starting := false, stopping := false, again := none, age := 0, left := 0 }
def wzero : State := { w with prot := { w.prot with otp := zeroOtp } }
def sc0 : Scan := ⟨470000000, 480000000, 100000, 1, 0, 470000000, false, 0, [], [], []⟩
def won : State := { w with carriers := [(2, { Carrier.reset with phase := .on, freq := 500000000 })] }
def ses : Session := { Session.reset with phase := .joined, txId := 5 }
/-- The command link runs with session 255 JOINED. -/
def wj : State := { wzero with cl := { Cl.reset with phase := .running, freq := 2441000000 }, sessions := [(255, ses)] }
def wj0 : State := { wj with cl := Cl.reset }
def wla : State := { wj with links := [(2, { Link.reset with isOpen := true, freq := 500000000, session := some 255 })] }
def wca : State := { wj with carriers := [(2, { Carrier.reset with phase := .opened, freq := 500000000, session := some 255 })] }
def c0 : PortCfg := ⟨0, 0, 2, 0, 24, 3, 3, 0⟩
def wport (f : Port → Port) : State := { w with audio := { w.audio with ports := [(5, f { Port.reset with cfg := c0 })] } }
def wmute : State := wport (fun q => { q with phase := .rateMuted })
def wrun : State := wport (fun q => { q with phase := .running })
def c1 : PortCfg := { c0 with inMask := 1 }
def wroute : State := { w with audio := { w.audio with routes := [(511, { Route.reset with inUse := true, src := 0, dst := 0x121F })] } }
def wrod (f : Rod → Rod) : State := { w with rods := [(63, f Rod.reset)] }
def wload : State := wrod (fun r => { r with phase := .loaded, prog := [(0, 0x04000000)] })
def wnone : State := wrod (fun r => { r with phase := .loaded })
def wlate : State := { w with
  links := [(2, { Link.reset with isOpen := true, freq := 500000000, cls := 2 })]
  carriers := [(2, { Carrier.reset with phase := .opened, freq := 500000000 })] }
def wref : State := { w with inst := { w.inst with refReady := true } }
def busy : Conv := { channel := 0, start := 0, urgent := false, cycles := 3, d := 1, due := 0 }

def wasm (l : List Byte) : State := { w with op := { Channel.reset with asm := l } }
def wfull : State := { w with waiting := [⟨hd, 0, [], none, 2048⟩] }
def woff : State := { w with seq := Seq.reset }

def spiU (s : State) : State := if wakeEnabled s 0 0 then settle (fireWake 0 s) else s
def twU (s : State) : State := if wakeEnabled s 1 0 then settle (fireWake 1 s) else s
def wal : State := { w with front := { w.front with alertDeadline := true, alertMask := 0xFF } }
def wsleep : State := { woff with power := { Power.reset with state := 3, on := 1, wakeSources := 0x3FF } }

def rn (x : Wait) : Running :=
  { hdr := hd, op := 0, cmd := .nop hd, cls := 1, wait := x, accepted := false, cosigned := none, aux := 0 }
def wr (x : Wait) : State := { w with running := [rn x] }
def wseq (f : Seq → Seq) : State := { w with seq := f w.seq }
def wboot : State := { w with supply := Supply.reset }
def we (e : Entry) : State := { w with power := { w.power with entry := some e } }
def ent (ask : List Nat) : Entry := ⟨1, ask, 0, [], false, [], false, []⟩
def wpow (f : Power → Power) : State := { w with power := f w.power }
def wsup (f : Supply → Supply) : State := { w with supply := f w.supply }
def wclk (f : Clocks → Clocks) : State := { w with clk := f w.clk }
def wpar (l : SMap Nat) : State := { w with par := l }

def wdom : Running := { rn (.domainWake 3) with cmd := .linkOpen hd 0 500000000 0 0 0xFFFF 0 }
def wscan (f : Scan → Scan) : State := { w with rf := { w.rf with scan := some (f sc0) } }
def wpriv : State := { wl with rf := { wl.rf with priv := { PrivRec.reset with link := some 2, measuring := true } :: List.replicate 7 PrivRec.reset } }
def trkAt (p : TrkPhase) : Tracker := { Tracker.reset with phase := p, start := now w, level := 10 ^ 7 }
def wt (p q : TrkPhase) : State :=
  { w with links := [(2, { Link.reset with isOpen := true, freq := 500000000, t0 := trkAt p, t1 := trkAt q })] }
def wt8 (n : Nat) : State := { wt .active .watch with par := (P.linkCapture8 2, n) :: w.par }
def bit24 : Bar := { phase := now w, df := 0, untilPeriod := 2000 }

def upBits (airId : Nat) : List Bool :=
  let b := natBits 10 airId ++ List.replicate 6 false ++ List.replicate 176 true
  let a := b ++ natBits 16 (crcBits b)
  a.take 16 ++ scramble (scrSeed 0 airId) (a.drop 16)
def upSyms (airId : Nat) : List Int :=
  let d := bitSymbols (upBits airId)
  uplinkSync false ++ (List.range 4).flatMap (fun j => (d.drop (26 * j)).take 26 ++ uplinkPilot false)
def upRx (airId : Nat) : AerialRx :=
  { z := List.replicate 4 0 ++ (upSyms airId).flatMap (fun d => [4096 * d, 0]), power := 10 ^ 7 }
def upFrame (airId start : Nat) : RxFrame := { tracker := 0, start := start, a := upRx airId, b := upRx airId }
def noFrame (start : Nat) : RxFrame := { tracker := 0, start := start, a := { z := List.replicate 244 4096, power := 0 }, b := { z := List.replicate 244 4096, power := 0 } }
/-- What a lane reads of a frame. -/
def readBy (train fresh : Bool) (n : Nat) (f : RxFrame) (s : State) : Option UpFrame :=
  let t := (fillBuffers n f s).1
  let l := link t n
  uplinkParse l.range (frameBits l.range (demodulate t n train fresh (fillBuffers n f s).2).syms)
def wair (p : TrkPhase) : State :=
  { w with links := [(2, { Link.reset with
      isOpen := true, freq := 500000000, air := 1, t0 := trkAt p, t1 := Tracker.reset, losses := 3 })], par := (P.linkDiversity 2, 1) :: w.par }

def wsil (n : Nat) : State := { wl with links := [(2, { Link.reset with isOpen := true, freq := 500000000, silent := n })] }
def hop0 (p : Nat) : Hop := { target := 490000000, period := p, sent := 0, announce := false, old := 500000000, concealed := 0 }
def walt : State := { w with
  links := [(2, { Link.reset with isOpen := true, freq := 500000000, measuring := true })]
  rf := { w.rf with alt := [(16, 501000000)], perm := (List.range 100).map (fun i => (200 + i, 3)) } }
def whop (f : Link → Link) : State :=
  { w with links := [(2, f { Link.reset with isOpen := true, freq := 500000000, t0 := trkAt .active })] }

def wcar (f : Carrier → Carrier) : State := { w with carriers := [(2, f { Carrier.reset with phase := .opened, freq := 500000000 })] }
def whop2 (p : Nat) : Hop := { hop0 p with target := 2401000000 }
def wjl : State := { wj with cl := { wj.cl with listening := true, b := 160 }, sessions := [(255, { ses with key := z 16 })], par := [(P.clSystemId, 7)] }
def wjj : State := { wjl with sessions := [(255, { ses with key := z 16, phase := .added })], par := [(P.clSystemId, 7), (P.clJoinEnable, 1)] }
def body22 (ty sid sys : Byte) (tx : Nat) : List Byte := [ty, sid, 0, 0, sys] ++ beBytes 4 tx ++ List.replicate 13 0
/-- A reply packet on 2441 MHz, as its bits arrive after the sync word. -/
def pkt (b mic : List Byte) : ClPacket := { air := (clAir 40 (b ++ mic)).drop 40, level := -100 }
def wses (f : Session → Session) : State := { wj with sessions := [(255, f ses)] }
def kc : KeyChange := { n := 1000, confirmed := true, returning := false, half := 0, switched := false }

def wpo (f : Port → Port) : State := wport (fun q => f { q with cfg := { c0 with role := 1 } })
def cs : PortCfg := { c0 with role := 1, slots := 32, slotBits := 16, inMask := 0x1FFFF }
def wbus (t : Nat) : State := { w with audio := { w.audio with buses := [(15, { Bus.reset with ramp := { Ramp.at 1 with phase := 1, since := t } })] } }
def wana (t : Nat) (o : AnaObj) : State := { w with ana := { w.ana with objs := [(t, o)] } }
def ao (n : Nat) (up : Bool) : AnaObj := { AnaObj.reset with phase := n, up := up }
def wspk (l : List Nat) : State := { wana 8 (ao 2 true) with ana := { (wana 8 (ao 2 true)).ana with spkFaults := l } }
def wfa (f : Fine → Fine) : State := { w with inst := { w.inst with fa := f w.inst.fa } }
def cv (u : Bool) : Conv := { busy with urgent := u }
def wcd (f : Cdac → Cdac) : State := { w with inst := { w.inst with cdac := [(7, f Cdac.reset)] } }
def wre (l : List Nat) : State := { w with rck := { w.rck with restarts := l } }
def noPower : State := { w with power := { w.power with on := 0 } }

/-- A state whose Top 0 was last seen at its production baseline; shift as given. -/
def wage (x : Rat) : State := { w with age := { w.age with shift := x }, par := [(P.rckVselCode, 8)] }
theorem gain_base : gainOf 8 0 = 1 := by
  have h (k : Nat) (a : Int) : knobShare k a 0 = 0 := by
    simp only [knobShare, clampI, abs_zero, mul_zero, zero_add]
    omega
  have e : ((8 : Nat) : Int) - 8 = 0 := by decide
  have e2 : ((0 : Nat) : Int) = 0 := rfl
  have z0 : mkRat (0 + 0) 1000000 = 0 := by decide +kernel
  rw [gainOf, e, e2, h, h, z0, sub_zero]
theorem gain_wage (x : Rat) : gainNow (wage x) = 1 := by
  have h1 : vselNow (wage x) = 8 := rfl
  have h2 : biasNow (wage x) = 0 := by
    have : biasNow (wage x) = biasNow (wage 0) := rfl
    rw [this]
    decide +kernel
  rw [gainNow, h1, h2, gain_base]
theorem sound_top : topFaulty (wage 0) 0 (Config.topBaseline 0) = false := by
  have hb : (0 : Rat) ≤ baseline 0 := by
    unfold baseline
    exact Rat.mkRat_nonneg (Int.natCast_nonneg _) 100
  have hs : (wage 0).age.shift = 0 := rfl
  simp only [topFaulty, gain_wage, hs]
  have : mkRat (Config.topBaseline 0) 100 / 1 - (baseline 0 + 0) = 0 := by
    unfold baseline
    ring
  rw [this]
  simp only [abs_zero, mul_zero, add_zero, decide_eq_false_iff_not, not_lt]
  linarith
theorem faulty_top : topFaulty (wage (-1 - baseline 0)) 0 0 = true := by
  have hs : (wage (-1 - baseline 0)).age.shift = -1 - baseline 0 := rfl
  simp only [topFaulty, gain_wage, hs, decide_eq_true_eq]
  have := abs_nonneg (mkRat ((0 : Nat) : Int) 100 / 1 - (baseline 0 + (-1 - baseline 0)))
  linarith

def pl (v : Option Bool) : Plan := ⟨2, v, 0, 0, 0, 0, 0, 0, 0, 0, 0⟩
def whours (n : Nat) : State := { w with par := [(P.rckHoursSincePlan, n)] }
def wcos (p : Proposal) : State := { w with timebase := 10 ^ 10, prot := { w.prot with proposal := some p } }
def warm (p : Pert) : State := { w with timebase := 10 ^ 10, par := [(P.tstArmLimit, 60)], rattle := { w.rattle with armed := [(9, p)] } }

theorem prognose_par (p : Plan) (s : State) (h : s.age.warned = true) : (prognose p s).par = s.par := by
  unfold prognose
  dsimp only
  rw [if_neg (by rw [h]; simp)]

theorem queue_par {s : State} (h : s.seq.running = false) (a b c : Nat) : (queueWhenRunning a b c s).par = s.par := by
  unfold queueWhenRunning
  rw [h]
  rfl

theorem queue_warned {s : State} (h : s.seq.running = false) (a b c : Nat) : (queueWhenRunning a b c s).age = s.age := by
  unfold queueWhenRunning
  rw [h]
  rfl

/-- A plan begun with five Tops excluded goes to every knob's top. -/
theorem startPlan_degraded (k : Nat) (s : State) (hw : s.age.warned = true) (hr : s.seq.running = false) (h5 : 5 ≤ topsOut s)
    (ho : takeOffCounts s = s) :
    ∃ p, (startPlan k s).age.plan = some p ∧ p.biasTo = 8 ∧ p.vselTo = vselTop s ∧
      (startPlan k s).par = (parSet P.rckPlanLimits3 1 s).par := by
  unfold startPlan
  rw [ho]
  rcases typical s with ⟨a, t⟩
  dsimp only
  have h5' : ∀ a : Age, 5 ≤ topsOut { s with age := a } := fun _ => h5
  rw [if_pos (h5' _)]
  refine ⟨_, rfl, rfl, rfl, ?_⟩
  dsimp only
  rw [prognose_par, queue_par]
  · rfl
  · exact hr
  · rw [queue_warned]
    · exact hw
    · exact hr

/-- A device that boots with five Tops excluded and every knob at its top. -/
def wfirst : State := { w with
  supply := Supply.reset, front := { Front.reset with resetCause := 4 }, seq := Seq.reset, age := { Age.reset with warned := true }
  par := [(P.rckTopsExcluded, 0x1F), (P.rckVselCode, 15), (P.rckBiasStep, 8)] }

theorem first_count (f : Front) (hf : f.resetCause = 4) : bootCount [] { (draw wfirst).2 with front := f } =
    { (draw wfirst).2 with front := f } := by
  unfold bootCount
  simp only [each, List.foldl]
  have hn : ∀ q : Prop, ¬(q ∧ f.resetCause ≤ 1) := by
    rintro q ⟨_, h⟩
    omega
  exact if_neg (hn _)

/-- The plan of a boot. -/
def bootPlan (l : List TopRead) (s : State) : State := startPlan 1 (bootCount l { (draw s).2 with
  front := { s.front with otpValid := Config.otpCheckOk s.free, romFail := false } })

theorem first_plan : ∃ p, (bootPlan [] wfirst).age.plan = some p ∧ biasNow (bootPlan [] wfirst) = p.biasTo ∧
    vselNow (bootPlan [] wfirst) = p.vselTo := by
  unfold bootPlan
  rw [first_count _ rfl]
  obtain ⟨p, h1, h2, h3, h4⟩ := startPlan_degraded 1 { (draw wfirst).2 with
      front := { wfirst.front with otpValid := Config.otpCheckOk wfirst.free, romFail := false } } rfl rfl (by
    change 5 ≤ topsOut wfirst
    decide +kernel) rfl
  refine ⟨p, h1, ?_, ?_⟩
  · unfold biasNow parGet
    rw [h4, h2]
    change (smFind (parSet P.rckPlanLimits3 1 wfirst).par P.rckBiasStep).getD (porValue P.rckBiasStep) = 8
    decide +kernel
  · unfold vselNow parGet
    rw [h4, h3]
    change (smFind (parSet P.rckPlanLimits3 1 wfirst).par P.rckVselCode).getD (porValue P.rckVselCode) = vselTop wfirst
    decide +kernel

theorem first_boots : wfirst.supply.resetHeld = none ∧ wfirst.supply.booting = true ∧ wfirst.clk.pllLocked = true ∧
    wfirst.front.romFail = false ∧ wfirst.age.plan = none ∧ wfirst.front.bootMode ≤ 1 := by decide +kernel

theorem boot_case : ∃ (s : State) (l : List TopRead) (p : Plan), s.supply.resetHeld = none ∧ s.supply.booting = true ∧
    s.clk.pllLocked = true ∧ s.front.romFail = false ∧ s.age.plan = none ∧ s.front.bootMode ≤ 1 ∧
    (bootPlan l s).age.plan = some p ∧ biasNow (bootPlan l s) = p.biasTo ∧ vselNow (bootPlan l s) = p.vselTo := by
  obtain ⟨p, hp⟩ := first_plan
  obtain ⟨h1, h2, h3, h4, h5, h6⟩ := first_boots
  exact ⟨wfirst, [], p, h1, h2, h3, h4, h5, h6, hp⟩


/-- `w` with route 511 staged. -/
def wstage : State := { w with audio := { w.audio with routesPending := some [(511, ⟨0, 0x121F, 0, true⟩)] } }
def steps1 : Steps := { trim := [], ceilings := [63] }
def wst (p : Steps) : State := { w with tx := { w.tx with stepsPending := some p } }
def ents : List Byte := (List.range 64).flatMap (stepEntry steps1)
def p4 : Proposal := prop .operator (sha256 (canonicalImage 0x15 [4] ++ ents)) true
def ws4 : State := withProp p4 (wst steps1)
def wprov : State := { wzero with prot := { wzero.prot with pending := some (leBytes 4 0x30000 ++ z 28 ++ key7 ++ z 80) } }
def wnorx : State := { w with clk := { w.clk with rx := Synth.reset } }
def wnotx : State := { w with clk := { w.clk with tx := Synth.reset } }
def scanU (a b c n : Nat) (s : State) : State := (scanCheck a b c n (started hd s)).2
def wlay : State := { wload with audio := { w.audio with routes := [(511, { Route.reset with inUse := true, src := 0x3FC, dst := 0x1200 })] } }
def wres : State := wsup (fun q => { q with resetHeld := some 2 })
def wiob : State := wsup (fun q => { q with iohOn := false })
/-- LISTEN or deeper, with or without a wake by the two-wire port, as `e` says. -/
def wdeep (e : Nat) : State := { w with power := { w.power with state := 3, on := 1 }, seq := Seq.reset, par := [(P.pwrWakeCfg17, e)] }
def wtw (f : Tw → Tw) : State := { w with tw := f w.tw }
def wrst : State := { woff with seq := { Seq.reset with restarting := true } }
def wheld : State := wtw (fun q => { q with held := some (.operator, 0x48, .read 1 none) })
def wexp : State := wseq (fun q => { q with expiries := [61440000, 61440000] })
def wmode (m : Nat) : State := { wboot with front := { w.front with bootMode := m } }
def went (l : List Nat) (ab : Bool) : State := we { ent l with abort := ab }
def wx (f : Clocks → Clocks) : State := { wres with clk := f { w.clk with xtalHeld := true } }
def wnl (f : Clocks → Clocks) : State := wclk (fun q => f { q with pllLocked := false })
def wsyn (id : Nat) (p : SynthPhase) : State := onSynth id (fun y => { y with phase := p }) w
def wrefs (n : Nat) (c : Int) : State := wclk (fun q => { q with refState := n, refCorr := c })
/-- The discriminator samples of a known run of symbols. -/
def heard (l : List Int) (p : Nat) : Window := { z := l.flatMap (fun d => [4096 * d, 0]), power := p }
def wpre : Window := heard (preamblePattern false) (10 ^ 7)
def wsync : Window := heard (uplinkSync false) (10 ^ 7)
def wlk (f : Link → Link) : State := { w with links := [(2, f (link wl 2))] }
def wbar : State := wlk (fun l => { l with bars := [bit24] })
def wpreAt (c : Nat) : State := wlk (fun l => { l with t0 := { trkAt .pre with cand := c } })
def tk (p : Nat) : Tracker := { trkAt .search with level := p }
def wairs (f : Link → Link) : State := { wair .active with links := [(2, f (link (wair .active) 2))] }
def vd (a p : Nat) : Verdict := { trk := 0, start := now w, df := 0, tau := 0, powerA := p, powerB := 0, aerial := 0, tapsA := Taps.reset, tapsB := Taps.reset, err := 0, airId := a, fc := 0, md := 0, audio := [] }
theorem read1 : (readBy true true 2 (upFrame 1 (now w)) (wair .verify)).isSome = true := by decide +kernel
theorem read2 : (readBy false false 2 (upFrame 1023 (now w + 2560)) (wair .active)).isSome = true := by decide +kernel
theorem read3 : (readBy false false 2 (upFrame 1 (now w - 2560)) (wair .active)).isSome = true := by decide +kernel
def wcl (f : Cl → Cl) : State := { wj with cl := f wj.cl }
def wstart (y : Synth) : State := { wcl (fun q => { q with phase := .starting, b := 1000 }) with clk := { w.clk with cmd := y } }
def wcoex (s : State) : State := { s with par := (P.clCoexCfg, 1) :: (P.clCoexCfg1, 1) :: s.par }
/-- The state after a channel is sought from `s`. -/
def soughtFrom (ok : Bool) (s : State) : State := (lockChannel 2441000000 ok s).2
def woff3 : State := wstart { Synth.reset with freq := 2441000000, calDue := false }
def wcal3 : State := wstart { Synth.reset with freq := 2441000000, calDue := true }
def wnoClr : State := { wj with power := { wj.power with on := 0xEFF } }
/-- A slot of session 255, whose reply is on the air. -/
def poll22 : List Byte := body22 1 255 7 5
def join22 (tx : Nat) : List Byte := body22 2 255 7 tx
def wjat (p : SesPhase) : State := { wjj with sessions := [(3, { (session wjj 255) with phase := p })] }
def wnos : State := { wjl with sessions := [], par := (P.clJoinEnable, 0) :: wjl.par }
def loud : ClPacket := { pkt [] [] with later := [0] }
def wclkOff : State := { w with clk := Clocks.reset }
def pRun (f : Port → Port) : State := wpo (fun q => f { q with phase := .running })
def pIn (ph : PortPhase) (r : Nat) : State := wpo (fun q => { q with phase := ph, rate := r })
def wanf (f : Analog → Analog) : State := { w with ana := f w.ana }
def winst (f : Inst → Inst) : State := { w with inst := f w.inst }
def wpln (p : Plan) : State := { w with age := { w.age with plan := some p } }
/-- A plan that verifies a step, or not, begun at `t`. -/
def plAt (v : Option Bool) (t : Nat) : Plan := { pl v with stepAt := t }
theorem step_seen (x : Rat) (s : State) : (plAt (some true) 0).u * x / 4 ≤ changeSeen [] s := by
  have h1 : (plAt (some true) 0).u = 0 := rfl
  have h2 : changeSeen [] s = 0 := rfl
  rw [h1, h2, zero_mul, zero_div]
/-- What the checks of a command answer, and where they leave the machine. -/
def seen (c : Instr) (s : State) : Status × State := ownChecks (progOf c) (started hd s)
theorem not_ok {c : Instr} {s : State} (h : (seen c s).1 ≠ .ok) :
    ownChecks (progOf c) (started hd s) = ((seen c s).1, (seen c s).2) ∧ (seen c s).1 ≠ .ok := ⟨rfl, h⟩
theorem witness_SystemCommands_1 :
    (∃ (h : Hdr) (s : State), Starts (.nop h) h 0x00 s) ∧
    (∃ (h : Hdr) (s : State), Starts (.getInfo h) h 0x01 s) ∧
    (∃ (h : Hdr) (s : State), Starts (.reset h 3) h 0x02 s ∧ (policy s).testBit 9 = false) ∧
    (∃ (h : Hdr) (s : State) (k : _), k ≠ 3 ∧ Starts (.reset h k) h 0x02 s) ∧
    (∃ (h : Hdr) (s : State) (n : _), (1 ≤ n ∧ n ≤ 64 ∧ (s.events.lost = 0 ∨ s.events.queue = [])) ∧ Starts (.getEvents h n) h
      0x03 s) ∧
    (∃ (h : Hdr) (s : State) (n : _), (1 ≤ n ∧ n ≤ 64 ∧ s.events.lost ≠ 0 ∧ s.events.queue ≠ []) ∧ Starts (.getEvents h n) h
      0x03 s) ∧
    (∃ (h : Hdr) (s : State) (n : _), (n = 0 ∨ 64 < n) ∧ Starts (.getEvents h n) h 0x03 s) ∧
    (∃ (h : Hdr) (s : State) (b : _) (m : _), (b ∈ eventBlocks ∧ m ≤ 3) ∧ Starts (.setEventMask h b m) h 0x04 s) ∧
    (∃ (h : Hdr) (s : State) (b : _) (m : _), (b ∉ eventBlocks ∨ 3 < m) ∧ Starts (.setEventMask h b m) h 0x04 s) :=
  ⟨⟨hd, w, starts_of (by decide +kernel)⟩,
    ⟨hd, w, starts_of (by decide +kernel)⟩,
    ⟨hd, { w with prot := { w.prot with otp := zeroOtp } }, starts_of (by decide +kernel), by decide +kernel⟩,
    ⟨hd, w, 2, by decide +kernel, starts_of (by decide +kernel)⟩,
    ⟨hd, w, 64, by decide +kernel, starts_of (by decide +kernel)⟩,
    ⟨hd, { w with events := { w.events with lost := 3, queue := [⟨1, 0, 0, 0, 1⟩] } }, 64, by decide +kernel, starts_of
      (by decide +kernel)⟩,
    ⟨hd, w, 0, by decide +kernel, starts_of (by decide +kernel)⟩,
    ⟨hd, w, 0, 3, by decide +kernel, starts_of (by decide +kernel)⟩,
    ⟨hd, w, 0xC, 0, by decide +kernel, starts_of (by decide +kernel)⟩⟩

theorem witness_SystemCommands_2 :
    (∃ (h : Hdr) (s : State) (p : _) (n : _), (1 ≤ n ∧ n ≤ 128 ∧ p + n ≤ 0x10000) ∧ Starts (.getCounters h p n) h 0x05 s) ∧
    (∃ (h : Hdr) (s : State) (p : _) (n : _), (n = 0 ∨ 128 < n ∨ 0x10000 < p + n) ∧ Starts (.getCounters h p n) h 0x05 s) ∧
    (∃ (h : Hdr) (s : State), Starts (.timeRead h) h 0x06 s) ∧
    (∃ (h : Hdr) (s : State) (a : _), a ≤ 1 ∧ Starts (.timeSetAlarm h 0 a) h 0x07 s) ∧
    (∃ (h : Hdr) (s : State) (t : _) (a : _), (a ≤ 1 ∧ now s < t) ∧ Starts (.timeSetAlarm h t a) h 0x07 s) ∧
    (∃ (h : Hdr) (s : State) (t : _) (a : _), (t ≠ 0 ∧ t ≤ now s) ∧ Starts (.timeSetAlarm h t a) h 0x07 s) ∧
    (∃ (h : Hdr) (s : State) (t : _) (a : _), 1 < a ∧ Starts (.timeSetAlarm h t a) h 0x07 s) ∧
    (∃ (h : Hdr) (s : State) (op : _), Starts (.badOpcode h op) h op s) :=
  ⟨⟨hd, w, 65408, 128, by decide +kernel, starts_of (by decide +kernel)⟩,
    ⟨hd, w, 0, 0, by decide +kernel, starts_of (by decide +kernel)⟩,
    ⟨hd, w, starts_of (by decide +kernel)⟩,
    ⟨hd, w, 1, by decide +kernel, starts_of (by decide +kernel)⟩,
    ⟨hd, w, 2 ^ 63, 1, by decide +kernel, starts_of (by decide +kernel)⟩,
    ⟨hd, w, 1, 0, by decide +kernel, starts_of (by decide +kernel)⟩,
    ⟨hd, w, 0, 2, by decide +kernel, starts_of (by decide +kernel)⟩,
    ⟨hd, w, 0xFF, starts_of (by decide +kernel)⟩⟩

theorem witness_ParamCommands_1 :
    (∃ (h : Hdr) (s : State) (pid : _) (v : _), paramRead (judgeExpiry (started h s)) pid = some v ∧ Starts (.paramGet h pid)
      h 0x10 s) ∧
    (∃ (h : Hdr) (s : State) (pid : _), paramRead (judgeExpiry (started h s)) pid = none ∧ Starts (.paramGet h pid) h 0x10 s) ∧
    (∃ (h : Hdr) (s : State) (pid : _) (v : _), writeCheck (started h s) pid v = .ok ∧ Starts (.paramSet h pid v) h 0x11 s) ∧
    (∃ (h : Hdr) (s : State) (ps : _) (t : _), (1 ≤ ps.length ∧ ps.length ≤ 64 ∧ (writeMany ps (started h s)).1 = .ok ∧
      writeMany ps (acceptedBy h 0x12 (started h s)) = (.ok, t)) ∧ Starts (.paramSetMany h ps) h 0x12 s) ∧
    (∃ (h : Hdr) (s : State), (writeState (started h s) 0x1013 1 = .ok ∧ rangesOk (started h s) 0x1013 1 = true) ∧ Starts
      (.syncArmOneShot h) h 0x11 s) ∧
    (∃ (h : Hdr) (s : State), (rangesOk (started h s) 0x1013 1 = true ∧ serviceRuns (started h s) = true) ∧ Starts
      (.syncArmOneShot h) h 0x11 s) ∧
    (∃ (h : Hdr) (s : State), rangesOk (started h s) 0x1013 1 = false ∧ Starts (.syncArmOneShot h) h 0x11 s) ∧
    (∃ (h : Hdr) (s : State), Starts (.syncArmMonitor h) h 0x11 s) ∧
    (∃ (h : Hdr) (s : State), Starts (.syncDisarm h) h 0x11 s) ∧
    (∃ (h : Hdr) (s : State) (c : _) (n : _), (c < 16 ∧ 1 ≤ n ∧ n ≤ 64 ∧ (carrier s c).phase ≠ .closed ∧ (carrier s c).msg =
      none) ∧ Starts (.txMsgSend h c n) h 0x11 s) ∧
    (∃ (h : Hdr) (s : State) (c : _) (n : _), (c < 16 ∧ 1 ≤ n ∧ n ≤ 64 ∧ (carrier s c).phase = .closed ∧ (carrier s c).msg =
      none) ∧ Starts (.txMsgSend h c n) h 0x11 s) ∧
    (∃ (h : Hdr) (s : State) (c : _) (n : _), (c < 16 ∧ 1 ≤ n ∧ n ≤ 64 ∧ (carrier s c).msg ≠ none) ∧ Starts (.txMsgSend h c n)
      h 0x11 s) :=
  ⟨⟨hd, w, 0x1010, 0, by decide +kernel, starts_of (by decide +kernel)⟩,
    ⟨hd, w, 0xFFFF, by decide +kernel, starts_of (by decide +kernel)⟩,
    ⟨hd, w, 0x1010, 1, by decide +kernel, starts_of (by decide +kernel)⟩,
    ⟨hd, w, [(0x1010, 1)], (writeMany [(0x1010, 1)] (acceptedBy hd 0x12 (started hd w))).2, by decide +kernel, starts_of
      (by decide +kernel)⟩,
    ⟨hd, w, by decide +kernel, starts_of (by decide +kernel)⟩,
    ⟨hd, wl, by decide +kernel, starts_of (by decide +kernel)⟩,
    ⟨hd, { w with par := [(P.clkSyncRole, 1), (P.clkSyncPeriodLo, 1001)] }, by decide +kernel, starts_of (by decide +kernel)⟩,
    ⟨hd, w, starts_of (by decide +kernel)⟩,
    ⟨hd, w, starts_of (by decide +kernel)⟩,
    ⟨hd, wc, 2, 64, by decide +kernel, starts_of (by decide +kernel)⟩,
    ⟨hd, w, 15, 1, by decide +kernel, starts_of (by decide +kernel)⟩,
    ⟨hd, { w with carriers := [(2, { Carrier.reset with msg := some ⟨z 64, 0, false⟩ })] }, 2, 64, by decide +kernel,
      starts_of (by decide +kernel)⟩⟩

theorem witness_ParamCommands_2 :
    (∃ (h : Hdr) (s : State) (c : _) (n : _), (c < 16 ∧ (n = 0 ∨ (64 < n ∧ n < 128))) ∧ Starts (.txMsgSend h c n) h 0x11 s) ∧
    (∃ (h : Hdr) (s : State) (v : _), (v < 2 ^ 32 ∧ parGet (started h s) P.rckPlanLimits2 = 1) ∧ Starts (.poweredHoursWrite h
      v) h 0x11 s) ∧
    (∃ (h : Hdr) (s : State) (v : _), parGet (started h s) P.rckPlanLimits2 = 0 ∧ Starts (.poweredHoursWrite h v) h 0x11 s) :=
  ⟨⟨hd, w, 15, 0, by decide +kernel, starts_of (by decide +kernel)⟩,
    ⟨hd, { w with par := [(P.rckPlanLimits2, 1)] }, 0xFFFFFFFF, by decide +kernel, starts_of (by decide +kernel)⟩,
    ⟨hd, { w with par := [(P.rckPlanLimits2, 0)] }, 0, by decide +kernel, starts_of (by decide +kernel)⟩⟩

theorem witness_ParamRefusals :
    (∃ (h : Hdr) (s : State) (pid : _) (v : _), (∀ f ∈ fieldsOf pid, f.acc = .ro) ∧ Starts (.paramSet h pid v) h 0x11 s) ∧
    (∃ (h : Hdr) (s : State) (pid : _) (v : _), ((∃ f ∈ fieldsOf pid, f.acc ≠ .ro) ∧ rangesOk (started h s) pid v = false) ∧
      Starts (.paramSet h pid v) h 0x11 s) ∧
    (∃ (h : Hdr) (s : State) (pid : _) (v : _), ((∃ f ∈ fieldsOf pid, f.acc = .rws ∧ written f v ≠ parGet (started h s) (key
      pid f.lo) ∧ ownerRuns (started h s) pid f.lo = true) ∧ rangesOk (started h s) pid v = true) ∧ Starts (.paramSet h pid v) h
      0x11 s) ∧
    (∃ (h : Hdr) (s : State) (ps : _) (st : _), (st ≠ .ok ∧ (writeMany ps (started h s)).1 = st ∧ 1 ≤ ps.length ∧ ps.length ≤
      64) ∧ Starts (.paramSetMany h ps) h 0x12 s) :=
  ⟨⟨hd, w, 0x0011, 0, by decide +kernel, starts_of (by decide +kernel)⟩,
    ⟨hd, w, 0x1010, 3, by decide +kernel, starts_of (by decide +kernel)⟩,
    ⟨hd, { w with par := [(P.clkSyncArm, 1)] }, 0x1010, 1, by decide +kernel, starts_of (by decide +kernel)⟩,
    ⟨hd, w, [(0x1010, 1), (0x1010, 3)], .badParam, by decide +kernel, starts_of (by decide +kernel)⟩⟩

theorem witness_TableCommands :
    (∃ (h : Hdr) (s : State) (t : _) (n : _) (w : _) (first : _) (count : _), (tableSize t = some (n, w) ∧ 1 ≤ count ∧ first +
      count ≤ n) ∧ Starts (.tableRead h t first count) h 0x13 s) ∧
    (∃ (h : Hdr) (s : State) (t : _) (n : _) (w : _) (first : _) (count : _) (data : _), (tableWritable t = true ∧ tableSize t
      = some (n, w) ∧ 1 ≤ count ∧ first + count ≤ n ∧ data.length = w * count) ∧ Starts (.tableWrite h t first count data) h
      0x14 s) ∧
    (∃ (h : Hdr) (s : State) (m : _), (s.rf.altPending = some m ∧ altCommitCheck m (started h s) = .ok) ∧ Starts (.tableCommit
      h 5) h 0x15 s) ∧
    (∃ (h : Hdr) (s : State) (t : _), (routeCommitCheck (started h s) = (.ok, t) ∧ t.running = s.running ∧ t.rattle.armed =
      s.rattle.armed) ∧ Awake ((progTableCommit h 3).needs (started h s)) (started h s) ∧ Awake ((progTableCommit h 3).needs t)
      t ∧ Starts (.tableCommit h 3) h 0x15 s) ∧
    (∃ (h : Hdr) (s : State) (p : _), (s.tx.stepsPending = some p ∧ stepsCommitCheck p = .ok ∧ stepsProtected (stepsNow s) p =
      false) ∧ Starts (.tableCommit h 4) h 0x15 s) ∧
    (∃ (h : Hdr) (s : State) (t : _), tableWritable t = false ∧ Starts (.tableCommit h t) h 0x15 s) ∧
    (∃ (h : Hdr) (s : State) (ok : Bool) (t : State), (protCommitCheck (started h s) = .ok ∧ provisioning h (started h s) =
      true ∧ h.roc = true) ∧ Starts (.tableCommit h 7) h 0x15 s ∧ burnAll (acceptedBy h 0x15 (started h s)) = (ok, t)) :=
  ⟨⟨hd, w, 1, 4096, 4, 4095, 1, by decide +kernel, starts_of (by decide +kernel)⟩,
    ⟨hd, w, 1, 4096, 4, 4095, 1, [0, 0, 0, 0], by decide +kernel, starts_of (by decide +kernel)⟩,
    ⟨hd, { w with rf := { w.rf with altPending := some [] } }, [], by decide +kernel, starts_of (by decide +kernel)⟩,
    ⟨hd, wstage, (routeCommitCheck (started hd wstage)).2, by decide +kernel, awake_of (by decide +kernel), awake_of
      (by decide +kernel), starts_of (by decide +kernel)⟩,
    ⟨hd, wst { Steps.reset with trim := [(63, -100)] }, { Steps.reset with trim := [(63, -100)] }, by decide +kernel,
      starts_of (by decide +kernel)⟩,
    ⟨hd, w, 2, by decide +kernel, starts_of (by decide +kernel)⟩,
    ⟨hroc, wprov, _, _, by decide +kernel, starts_of (by decide +kernel), Prod.mk.eta.symm⟩⟩

theorem witness_CosignedCommit :
    (∃ (h : Hdr) (s : State), (planCommitCheck (started h s) = .ok ∧ h.cosign = false) ∧ Starts (.tableCommit h 1) h 0x15 s) ∧
    (∃ (h : Hdr) (s : State) (p : _), (planCommitCheck (started h s) = .ok ∧ h.cosign = true) ∧ s.prot.proposal = some p ∧
      p.approved = true ∧ p.patch = none ∧ now s < p.made + sec30 ∧ sha256 ([0x15, 0x20, 1, 0, 1] ++ planImage (started h s)) =
      p.digest ∧ Starts (.tableCommit h 1) h 0x15 s) ∧
    (∃ (h : Hdr) (s : State) (c : _) (op : _) (params : _) (extra : _) (u : _) (w : _) (v : _) (d : _) (aux : _) (pl : _) (t :
      _), (encodeCmd c = some (h, op, params) ∧ c.wf = true) ∧ (∀ g a, c ≠ .powerStateRequest g a) ∧ (∀ g o, c ≠ .badOpcode g o)
      ∧ (classOf op ≠ 1 ∧ (progOf c).check (started h s) = (.ok, u) ∧ (progOf c).guard (started h s) = some extra ∧ cosignCheck
      h (canonicalImage op params ++ extra) (started h s) = (.ok, some d, w)) ∧ Awake ((progOf c).needs (started h s)) (started
      h s) ∧ Awake ((progOf c).needs { u with prot := w.prot }) { u with prot := w.prot } ∧ (progOf c).begin
      { u with prot := w.prot } = (none, aux, v) ∧ (v.running = s.running ∧ v.rattle.armed = s.rattle.armed) ∧ (progOf c).apply
      aux (acceptedBy h op v) = (.ok, pl, t) ∧ Starts c h op s) :=
  ⟨⟨hd, wp, by decide +kernel, starts_of (by decide +kernel)⟩,
    ⟨hc, wp, pp, by decide +kernel, rfl, rfl, rfl, by decide +kernel, wp_digest, starts_of (by decide +kernel)⟩,
    ⟨hc, ws4, (.tableCommit hc 4), 0x15, [4], ents, started hc ws4, (cosignCheck hc (canonicalImage 0x15 [4] ++ ents) (started
      hc ws4)).2.2, _, digestWord p4.digest, 0, _, _, by decide +kernel, fun _ _ h => Instr.noConfusion h, fun _ _ h =>
      Instr.noConfusion h, by decide +kernel, awake_of (by decide +kernel), awake_of (by decide +kernel), rfl,
      by decide +kernel, rfl, starts_of (by decide +kernel)⟩⟩

theorem witness_CosignCommands :
    (∃ (h : Hdr) (s : State) (d : _), (s.front.otpValid = true ∧ s.prot.proposal = none ∧ mayPropose s h.ch = true ∧ (keyOf s
      .operator).isSome = true ∧ (keyOf s .custodian).isSome = true) ∧ Starts (.cosignPropose h d) h 0xB0 s) ∧
    (∃ (h : Hdr) (s : State) (p : _) (k : _), (s.prot.proposal = some p ∧ p.approved = false ∧ p.patch = none ∧ now s < p.made
      + sec30 ∧ p.role ≠ h.ch ∧ keyOf s h.ch = some k) ∧ Starts (.cosignApprove h ((hmac256 k (p.nonce ++ p.digest)).take 16)) h
      0xB1 s) ∧
    (∃ (h : Hdr) (s : State) (p : _) (k : _) (tag : _), (s.prot.proposal = some p ∧ p.approved = false ∧ p.patch = none ∧ now
      s < p.made + sec30 ∧ p.role ≠ h.ch ∧ keyOf s h.ch = some k ∧ tag ≠ (hmac256 k (p.nonce ++ p.digest)).take 16) ∧ Starts
      (.cosignApprove h tag) h 0xB1 s) ∧
    (∃ (h : Hdr) (s : State) (p : _) (tag : _), (s.prot.proposal = some p ∧ p.approved = false ∧ p.patch = none ∧ now s <
      p.made + sec30 ∧ p.role = h.ch) ∧ Starts (.cosignApprove h tag) h 0xB1 s) ∧
    (∃ (h : Hdr) (s : State) (p : _), (s.prot.proposal = some p ∧ p.patch = none ∧ now s < p.made + sec30) ∧ Starts
      (.cosignCancel h) h 0xB2 s) ∧
    (∃ (h : Hdr) (s : State) (p : _) (q : _), (s.prot.proposal = some p ∧ p.patch = some q ∧ now s < p.patchAt + sec30 ∧ (∀ r
      ∈ s.running, r.op ≠ 0x08 ∧ r.op ≠ 0x09 ∧ r.op ≠ 0x0A)) ∧ Starts (.cosignCancel h) h 0xB2 s) ∧
    (∃ (h : Hdr) (s : State) (p : _) (q : _), (s.prot.proposal = some p ∧ p.patch = some q ∧ now s < p.patchAt + sec30) ∧
      Starts (.cosignStatus h) h 0xB3 s) ∧
    (∃ (h : Hdr) (s : State) (p : _) (q : _), (s.prot.proposal = some p ∧ p.patch = some q ∧ now s < p.patchAt + sec30) ∧
      Starts (.nonceGet h) h 0xB4 s) ∧
    (∃ (h : Hdr) (s : State), s.prot.proposal = none ∧ Starts (.cosignStatus h) h 0xB3 s) ∧
    (∃ (h : Hdr) (s : State) (p : _), (s.prot.proposal = some p ∧ p.patch = none ∧ now s < p.made + sec30) ∧ Starts
      (.cosignStatus h) h 0xB3 s) ∧
    (∃ (h : Hdr) (s : State) (p : _), (s.prot.proposal = some p ∧ p.patch = none ∧ now s < p.made + sec30) ∧ Starts (.nonceGet
      h) h 0xB4 s) ∧
    (∃ (h : Hdr) (s : State), s.prot.proposal = none ∧ Starts (.nonceGet h) h 0xB4 s) :=
  ⟨⟨hd, wk, z 32, by decide +kernel, starts_of (by decide +kernel)⟩,
    ⟨hcu, withProp p0 wk, p0, key7, by decide +kernel, starts_of (by decide +kernel)⟩,
    ⟨hcu, withProp p0 wk, p0, key7, [], by decide +kernel, starts_of (by decide +kernel)⟩,
    ⟨hd, withProp p0 wk, p0, [], by decide +kernel, starts_of (by decide +kernel)⟩,
    ⟨hcu, withProp p0 wk, p0, by decide +kernel, starts_of (by decide +kernel)⟩,
    ⟨hcu, withProp p9 w, p9, q9, by decide +kernel, starts_of (by decide +kernel)⟩,
    ⟨hd, withProp p9 w, p9, q9, by decide +kernel, starts_of (by decide +kernel)⟩,
    ⟨hd, withProp p9 w, p9, q9, by decide +kernel, starts_of (by decide +kernel)⟩,
    ⟨hd, w, by decide +kernel, starts_of (by decide +kernel)⟩,
    ⟨hd, withProp p0 w, p0, by decide +kernel, starts_of (by decide +kernel)⟩,
    ⟨hd, withProp p0 w, p0, by decide +kernel, starts_of (by decide +kernel)⟩,
    ⟨hd, w, by decide +kernel, starts_of (by decide +kernel)⟩⟩

theorem witness_PatchCommands :
    (∃ (h : Hdr) (s : State) (p : Proposal) (n : _) (d : _), (h.cosign = true ∧ s.prot.proposal = some p ∧ 1 ≤ n ∧ n +
      s.prot.patchBytes ≤ 65536 ∧ p.approved = true ∧ p.patch = none ∧ now s < p.made + sec30 ∧ sha256 (canonicalImage 0x08
      (leBytes 4 n ++ d)) = p.digest) ∧ Starts (.fwPatchBegin h n d) h 0x08 s) ∧
    (∃ (h : Hdr) (s : State) (p : Proposal) (q : _) (o : _) (d : _), (h.cosign = true ∧ s.prot.proposal = some p ∧ p.patch =
      some q ∧ now s < p.patchAt + sec30 ∧ o + d.length ≤ q.length) ∧ Starts (.fwPatchData h o d) h 0x09 s) ∧
    (∃ (h : Hdr) (s : State) (p : Proposal) (q : _), (h.cosign = true ∧ s.prot.proposal = some p ∧ p.patch = some q ∧ now s <
      p.patchAt + sec30 ∧ sha256 (patchBytesOf q) = q.digest) ∧ Starts (.fwPatchCommit h) h 0x0A s) :=
  ⟨⟨hc, withProp p8 w, p8, 4, z 32, by decide +kernel, starts_of (by decide +kernel)⟩,
    ⟨hc, withProp p9 w, p9, q9, 0, z 4, by decide +kernel, starts_of (by decide +kernel)⟩,
    ⟨hc, withProp p9 w, p9, q9, by decide +kernel, starts_of (by decide +kernel)⟩⟩

theorem witness_ReckonerCommands :
    (∃ (h : Hdr) (s : State) (r : _) (i : _) (b : _), budgetOf (started h s) (admitTc (started h s)) r i = some b ∧ Starts
      (.budgetQuery h r i) h 0xA0 s) ∧
    (∃ (h : Hdr) (s : State), (s.supply.brown = false ∧ (planDue 3 (started h s)).running = s.running) ∧ Starts (.marginReplan
      h) h 0xA1 s) ∧
    (∃ (h : Hdr) (s : State), s.supply.brown = true ∧ Starts (.marginReplan h) h 0xA1 s) ∧
    (∃ (h : Hdr) (s : State), Starts (.ageingReport h) h 0xA2 s) ∧
    (∃ (h : Hdr) (s : State) (n : _) (t : _) (v : _), (pertOk n t v = true ∧ pertArmed s n = false ∧
      (s.rattle.armed.filter (fun x => x.2.isArmed)).length < 4 ∧ labPart s = true) ∧ Starts (.rattleArm h n t v) h 0xF0 s) ∧
    (∃ (h : Hdr) (s : State) (n : _) (t : _) (v : _), (pertOk n t v = true ∧ pertArmed s n = false ∧
      (s.rattle.armed.filter (fun x => x.2.isArmed)).length < 4 ∧ labPart s = false ∧ h.cosign = false) ∧ Starts (.rattleArm h n t v) h 0xF0 s) ∧
    (∃ (h : Hdr) (s : State) (n : _) (p : _), (1 ≤ n ∧ n ≤ 9 ∧ smFind s.rattle.armed n = some p ∧ p.isArmed = true) ∧ Starts
      (.rattleDisarm h n) h 0xF1 s) ∧
    (∃ (h : Hdr) (s : State), Starts (.rattleDisarm h 0xFF) h 0xF1 s) ∧
    (∃ (h : Hdr) (s : State) (p : _), (p ≤ 5 ∧ (port s p).phase = .running ∧ (port s p).cfg.role = 0) ∧ Starts (.testLoopback
      h 1 p) h 0xF2 s) ∧
    (∃ (h : Hdr) (s : State) (i : _), ((openCarriers s).any (fun p => carrierEnabled p.2) = false ∧ windowsOverlap (started h
      s) = true) ∧ Starts (.testLoopback h 2 i) h 0xF2 s) ∧
    (∃ (h : Hdr) (s : State) (i : _), Starts (.testLoopback h 0 i) h 0xF2 s) :=
  ⟨⟨hd, w, 0, 63, 490000, by decide +kernel, starts_of (by decide +kernel)⟩,
    ⟨hd, { w with power := { w.power with entry := some ⟨1, [], 0, [], false, [], false, []⟩ } }, by decide +kernel, starts_of
      (by decide +kernel)⟩,
    ⟨hd, { w with supply := { w.supply with brown := true } }, by decide +kernel, starts_of (by decide +kernel)⟩,
    ⟨hd, w, starts_of (by decide +kernel)⟩,
    ⟨hd, { w with prot := { w.prot with otp := [(4, 1)] } }, 9, 2, 100000, by decide +kernel, starts_of (by decide +kernel)⟩,
    ⟨hd, wzero, 1, 3, 100 + 65536, by decide +kernel, starts_of (by decide +kernel)⟩,
    ⟨hd, { w with rattle := { w.rattle with armed := [(1, pt)] } }, 1, pt, by decide +kernel, starts_of (by decide +kernel)⟩,
    ⟨hd, w, starts_of (by decide +kernel)⟩,
    ⟨hd, { w with audio := { w.audio with ports := [(5, { Port.reset with phase := .running })] } }, 5, by decide +kernel,
      starts_of (by decide +kernel)⟩,
    ⟨hd, w, 0, by decide +kernel, starts_of (by decide +kernel)⟩,
    ⟨hd, w, 255, starts_of (by decide +kernel)⟩⟩

theorem witness_PowerCommands :
    (∃ (h : Hdr) (s : State) (g : _), (g ≤ 4 ∧ (2 < g → othersInFlight (started h s) = false) ∧ (g = 4 → (policy s).testBit 9
      = false) ∧ s.power.entry = none) ∧ Starts (.powerStateRequest h g) h 0x90 s ∧ entryAsks g (started h s) = []) ∧
    (∃ (h : Hdr) (s : State) (g : _) (d : _) (ds : _) (e : Entry) (v : _), (g ≤ 4 ∧ (2 < g → othersInFlight (started h s) =
      false) ∧ (g = 4 → (policy s).testBit 9 = false) ∧ s.power.entry = none) ∧ Starts (.powerStateRequest h g) h 0x90 s ∧
      (entryAsks g (started h s) = d :: ds ∧ refusalOf (started h s) d = 0) ∧ e = ⟨g, d :: ds, now s, [], false, [], false, []⟩
      ∧ v = askDomain d { started h s with power := { s.power with entry := some e } } ∧ v.running = s.running) ∧
    (∃ (h : Hdr) (s : State) (g : _) (d : _) (ds : _) (c : _), (g ≤ 4 ∧ (2 < g → othersInFlight (started h s) = false) ∧ (g =
      4 → (policy s).testBit 9 = false) ∧ s.power.entry = none) ∧ Starts (.powerStateRequest h g) h 0x90 s ∧ (entryAsks g
      (started h s) = d :: ds ∧ d < 16 ∧ refusalOf (started h s) d = c ∧ c ≠ 0 ∧ h.roc = true)) ∧
    (∃ (h : Hdr) (s : State) (g : _), 4 < g ∧ Starts (.powerStateRequest h g) h 0x90 s) ∧
    (∃ (h : Hdr) (s : State), Starts (.powerStatus h) h 0x91 s) ∧
    (∃ (h : Hdr) (s : State) (d : _), (1 ≤ d ∧ d ≤ 11 ∧ moving s = false) ∧ Awake [d] s ∧ Starts (.domainHold h d 1) h 0x92 s) ∧
    (∃ (h : Hdr) (s : State) (d : _), (1 ≤ d ∧ d ≤ 11 ∧ moving s = false ∧ domAllowed s.power.state d = true) ∧ Starts
      (.domainHold h d 0) h 0x92 s) :=
  ⟨⟨hd, w, 0, by decide +kernel, starts_of (by decide +kernel), by decide +kernel⟩,
    ⟨hd, wzero, 4, 6, (entryAsks 4 (started hd wzero)).drop 1, _, _, by decide +kernel, starts_of (by decide +kernel),
      by decide +kernel, rfl, rfl, by decide +kernel⟩,
    ⟨hroc, { w with power := { w.power with held := 0xFFF } }, 1, 5, (entryAsks 1 (started hroc w)).drop 1, 1,
      by decide +kernel, starts_of (by decide +kernel), by decide +kernel⟩,
    ⟨hd, w, 5, by decide +kernel, starts_of (by decide +kernel)⟩,
    ⟨hd, w, starts_of (by decide +kernel)⟩,
    ⟨hd, w, 1, by decide +kernel, awake_of (by decide +kernel), starts_of (by decide +kernel)⟩,
    ⟨hd, w, 11, by decide +kernel, starts_of (by decide +kernel)⟩⟩

theorem witness_RfCommands_1 :
    (∃ (h : Hdr) (s : State) (e : _), (470000000 ≤ e ∧ e ≤ 904000000 ∧ openLinks s = [] ∧ s.rf.scan = none) ∧ Awake [Dom.rfa]
      s ∧ Starts (.rfTuneWindow h 0 e) h 0x20 s) ∧
    (∃ (h : Hdr) (s : State) (e : _), (470000000 ≤ e ∧ e ≤ 952000000 ∧ openCarriers s = []) ∧ Awake [Dom.rfa, Dom.txd] s ∧
      Starts (.rfTuneWindow h 1 e) h 0x20 s) ∧
    (∃ (h : Hdr) (s : State) (e : _), (openLinks s ≠ [] ∧ 470000000 ≤ e ∧ e ≤ 904000000) ∧ Awake [Dom.rfa] s ∧ Starts
      (.rfTuneWindow h 0 e) h 0x20 s) ∧
    (∃ (h : Hdr) (s : State) (i : _), (s.supply.brown = false ∧ (i.testBit 0 || i.testBit 1 || i.testBit 2) = true ∧
      (i.testBit 2 = true → (openCarriers s).any (fun p => carrierEnabled p.2) = false)) ∧ (Awake (if i.testBit 2 then [Dom.rfa,
      Dom.txd] else [Dom.rfa]) s) ∧ Starts (.rfCalibrate h i) h 0x21 s) ∧
    (∃ (h : Hdr) (s : State) (i : _), (s.supply.brown = false ∧ (i.testBit 0 || i.testBit 1 || i.testBit 2) = false) ∧ Awake
      [Dom.rfa] s ∧ Starts (.rfCalibrate h i) h 0x21 s) ∧
    (∃ (h : Hdr) (s : State) (a : _) (b : _) (c : _) (n : _) (u : _), scanCheck a b c n (started h s) = (.ok, u) ∧ Awake
      [Dom.rfa, Dom.chz] s ∧ Starts (.rfScanStart h a b c n) h 0x22 s ∧ (locked s 1 = true ∧ (parGet s P.clkRampProfile = 1 ∨
      dwellMove (freshScan a b c n u) u = none))) ∧
    (∃ (h : Hdr) (s : State) (a : _) (b : _) (c : _) (n : _) (u : _) (e : _), scanCheck a b c n (started h s) = (.ok, u) ∧
      Awake [Dom.rfa, Dom.chz] s ∧ Starts (.rfScanStart h a b c n) h 0x22 s ∧ (parGet s P.clkRampProfile ≠ 1 ∧ dwellMove
      (freshScan a b c n u) u = some e)) ∧
    (∃ (h : Hdr) (s : State) (a : _) (b : _) (c : _) (n : _) (u : _), scanCheck a b c n (started h s) = (.ok, u) ∧ Awake
      [Dom.rfa, Dom.chz] s ∧ Starts (.rfScanStart h a b c n) h 0x22 s ∧ (locked s 1 = false ∧ (parGet s P.clkRampProfile = 1 ∨
      dwellMove (freshScan a b c n u) u = none))) ∧
    (∃ (s : State) (a : _) (b : _) (c : _) (n : _), (470000000 ≤ a ∧ a < b ∧ b ≤ 1000000000 ∧ 10000 ≤ c ∧ c ≤ 200000 ∧ c %
      1000 = 0 ∧ n ≤ 255 ∧ (parGet s P.clkRampProfile ≠ 1 ∨ (rxEdge s ≠ 0 ∧ withinRx (rxEdge s) a = true ∧ withinRx (rxEdge s) b
      = true)) ∧ (loFree s = true ∨ (rxEdge s ≠ 0 ∧ rxEdge s ≤ b ∧ a ≤ rxEdge s + 96000000)))) ∧
    (∃ (h : Hdr) (s : State) (sc : _), s.rf.scan = some sc ∧ Starts (.rfScanStop h) h 0x23 s) :=
  ⟨⟨hd, w, 904000000, by decide +kernel, awake_of (by decide +kernel), starts_of (by decide +kernel)⟩,
    ⟨hd, w, 952000000, by decide +kernel, awake_of (by decide +kernel), starts_of (by decide +kernel)⟩,
    ⟨hd, wl, 470000000, by decide +kernel, awake_of (by decide +kernel), starts_of (by decide +kernel)⟩,
    ⟨hd, w, 5, by decide +kernel, awake_of (by decide +kernel), starts_of (by decide +kernel)⟩,
    ⟨hd, w, 0, by decide +kernel, awake_of (by decide +kernel), starts_of (by decide +kernel)⟩,
    ⟨hd, w, 470000000, 470200000, 200000, 255, scanU 470000000 470200000 200000 255 w, by decide +kernel, awake_of
      (by decide +kernel), starts_of (by decide +kernel), by decide +kernel⟩,
    ⟨hd, w, 900000000, 1000000000, 10000, 0, scanU 900000000 1000000000 10000 0 w, ((dwellMove (freshScan 900000000 1000000000
      10000 0 (started hd w)) (started hd w)).getD 0), by decide +kernel, awake_of (by decide +kernel), starts_of
      (by decide +kernel), by decide +kernel⟩,
    ⟨hd, { wl with clk := wnorx.clk }, 470000000, 470200000, 200000, 255, scanU 470000000 470200000 200000 255
      { wl with clk := wnorx.clk }, by decide +kernel, awake_of (by decide +kernel), starts_of (by decide +kernel),
      by decide +kernel⟩,
    ⟨w, 470000000, 1000000000, 10000, 255, by decide +kernel⟩,
    ⟨hd, wscan id, sc0, by decide +kernel, starts_of (by decide +kernel)⟩⟩

theorem witness_RfCommands_2 :
    (∃ (h : Hdr) (s : State), s.rf.scan = none ∧ Starts (.rfScanStop h) h 0x23 s) ∧
    (∃ (h : Hdr) (s : State) (a : _) (m : _) (g : _), (a ≤ 2 ∧ m ≤ 1 ∧ (m = 1 → -6 ≤ g ∧ g ≤ 30 ∧ g % 3 = 0)) ∧ Awake
      [Dom.rfa] s ∧ Starts (.rfSetGain h a m g) h 0x24 s) ∧
    (∃ (h : Hdr) (s : State) (f : _) (n : _), (470000000 ≤ f ∧ 1 ≤ n ∧ n ≤ 1024 ∧ (f - 470000000) / 130000 + n ≤ 4096) ∧
      Starts (.rfGetSpectrum h f n) h 0x25 s) ∧
    (∃ (h : Hdr) (s : State) (l : _) (c : _) (o : _), (l ≤ 64 ∧ c ≤ 16 ∧ 0 < l + c ∧ (l > 0 → rxEdge (started h s) ≠ 0) ∧ (c >
      0 → txEdge (started h s) ≠ 0)) ∧ Starts (.rfCoordinate h l c o) h 0x26 s) :=
  ⟨⟨hd, w, by decide +kernel, starts_of (by decide +kernel)⟩,
    ⟨hd, w, 2, 1, 30, by decide +kernel, awake_of (by decide +kernel), starts_of (by decide +kernel)⟩,
    ⟨hd, w, 470000000, 1024, by decide +kernel, starts_of (by decide +kernel)⟩,
    ⟨hd, w, 64, 16, 0, by decide +kernel, starts_of (by decide +kernel)⟩⟩

theorem witness_LinkCommands :
    (∃ (h : Hdr) (s : State) (n : Nat) (hz : _) (c : _) (m : _) (x : _) (a : _) (u : _), (n ≤ 63 ∧ (link s n).isOpen = false ∧
      rxEdge (started h s) ≠ 0 ∧ (s.rf.scan = none ∨ loFree s = false) ∧ c ≤ 2 ∧ m ≤ 1 ∧ a ≤ 1023 ∧ (x ≠ 0xFFFF → x ≤ 255 ∧
      (session s x).phase ≠ .free ∧ (session s x).phase ≠ .removing ∧ (openLinks s).any (fun q => q.2.session == some x) =
      false) ∧ insideWindow (rxEdge (started h s)) hz = true ∧ permitted s.rf.perm false hz = true ∧ routesFit (onLink n (fun _
      => freshLink hz c m x a) (started h s)) = true ∧ admitWork [linkAsk n c] (started h s) = (.ok, u)) ∧ Awake [Dom.rfa,
      Dom.chz, Dom.dmd, Dom.abc] s ∧ Starts (.linkOpen h n hz c m x a) h 0x30 s ∧ locked s 1 = true) ∧
    (∃ (h : Hdr) (s : State) (n : Nat) (hz : _) (c : _) (m : _) (x : _) (a : _) (u : _), (n ≤ 63 ∧ (link s n).isOpen = false ∧
      rxEdge (started h s) ≠ 0 ∧ (s.rf.scan = none ∨ loFree s = false) ∧ c ≤ 2 ∧ m ≤ 1 ∧ a ≤ 1023 ∧ (x ≠ 0xFFFF → x ≤ 255 ∧
      (session s x).phase ≠ .free ∧ (session s x).phase ≠ .removing ∧ (openLinks s).any (fun q => q.2.session == some x) =
      false) ∧ insideWindow (rxEdge (started h s)) hz = true ∧ permitted s.rf.perm false hz = true ∧ routesFit (onLink n (fun _
      => freshLink hz c m x a) (started h s)) = true ∧ admitWork [linkAsk n c] (started h s) = (.ok, u)) ∧ Awake [Dom.rfa,
      Dom.chz, Dom.dmd, Dom.abc] s ∧ Starts (.linkOpen h n hz c m x a) h 0x30 s ∧ locked s 1 = false) ∧
    (∃ (h : Hdr) (s : State) (n : Nat) (hz : _) (c : _) (m : _) (x : _) (a : _), (n ≤ 63 ∧ (link s n).isOpen = true) ∧ Awake
      [Dom.rfa, Dom.chz, Dom.dmd, Dom.abc] s ∧ Starts (.linkOpen h n hz c m x a) h 0x30 s) ∧
    (∃ (h : Hdr) (s : State) (n : Nat), (n ≤ 63 ∧ (link s n).isOpen = true) ∧ Starts (.linkClose h n) h 0x31 s) ∧
    (∃ (h : Hdr) (s : State) (n : Nat) (hz : _) (p : _) (p' : _), (n ≤ 63 ∧ (link s n).isOpen = true ∧ (link s n).hop = none ∧
      insideWindow (rxEdge (started h s)) hz = true ∧ permitted s.rf.perm false hz = true ∧ retunePeriod s (announced s (link s
      n).session) (parNow (started h s) (P.linkHopLead n)) p = some p') ∧ Awake [Dom.rfa, Dom.chz, Dom.dmd] s ∧ Starts
      (.linkRetune h n hz p) h 0x32 s) ∧
    (∃ (h : Hdr) (s : State) (n : Nat), n ≤ 63 ∧ Starts (.linkStatus h n) h 0x33 s) ∧
    (∃ (h : Hdr) (s : State) (n : Nat) (fs : _), (n ≤ 63 ∧ rxEdge (started h s) ≠ 0 ∧ (∀ f ∈ fs, f = 0 ∨ (insideWindow (rxEdge
      (started h s)) f = true ∧ permitted s.rf.perm false f = true))) ∧ Starts (.linkSetAlt h n fs) h 0x34 s) ∧
    (∃ (h : Hdr) (s : State) (n : Nat), (n ≤ 63 ∧ (link s n).isOpen = true) ∧ Awake [Dom.rfa, Dom.chz] s ∧ Starts
      (.linkPrivilege h n 0) h 0x35 s) ∧
    (∃ (h : Hdr) (s : State) (n : Nat) (i : _), (n ≤ 63 ∧ (link s n).isOpen = true ∧ privSlot s n = some i) ∧ Awake [Dom.rfa,
      Dom.chz] s ∧ Starts (.linkPrivilege h n 1) h 0x35 s) :=
  ⟨⟨hd, w, 63, 500000000, 2, 1, 0xFFFF, 1023, (admitWork [linkAsk 63 2] (started hd w)).2, by decide +kernel, awake_of
      (by decide +kernel), starts_of (by decide +kernel), by decide +kernel⟩,
    ⟨hd, wnorx, 63, 500000000, 2, 1, 0xFFFF, 1023, (admitWork [linkAsk 63 2] (started hd wnorx)).2, by decide +kernel,
      awake_of (by decide +kernel), starts_of (by decide +kernel), by decide +kernel⟩,
    ⟨hd, wl, 2, 500000000, 0, 0, 0xFFFF, 0, by decide +kernel, awake_of (by decide +kernel), starts_of (by decide +kernel)⟩,
    ⟨hd, wl, 2, by decide +kernel, starts_of (by decide +kernel)⟩,
    ⟨hd, wl, 2, 500000000, 0, ((retunePeriod wl (announced wl (link wl 2).session) (parNow (started hd wl) (P.linkHopLead 2))
      0).getD 0), by decide +kernel, awake_of (by decide +kernel), starts_of (by decide +kernel)⟩,
    ⟨hd, w, 63, by decide +kernel, starts_of (by decide +kernel)⟩,
    ⟨hd, w, 63, [0, 500000000], by decide +kernel, starts_of (by decide +kernel)⟩,
    ⟨hd, wl, 2, by decide +kernel, awake_of (by decide +kernel), starts_of (by decide +kernel)⟩,
    ⟨hd, wl, 2, 0, by decide +kernel, awake_of (by decide +kernel), starts_of (by decide +kernel)⟩⟩

theorem witness_TxCommands :
    (∃ (h : Hdr) (s : State) (c : _) (hz : _) (k : _) (st : _) (x : _) (e : _) (u : _), (c ≤ 15 ∧ (carrier s c).phase =
      .closed ∧ txEdge (started h s) ≠ 0 ∧ k ≤ 2 ∧ st ≤ 63 ∧ e ≤ 1 ∧ (x ≠ 0xFFFF → x ≤ 255 ∧ (session s x).phase ≠ .free ∧
      (session s x).phase ≠ .removing ∧ (openCarriers s).any (fun q => q.2.session == some x) = false) ∧ (e = 1 → x ≠ 0xFFFF) ∧
      carrierFreqOk (started h s) c hz = true ∧ st ≤ ceilingOf s.tx.steps ∧ permitted s.rf.perm true hz = true ∧ routesFit
      (onCarrier c (fun _ => freshCarrier hz k st x e) (started h s)) = true ∧ admitWork [carrierAsk c k] (started h s) = (.ok,
      u)) ∧ Awake [Dom.rfa, Dom.txd, Dom.abc] s ∧ Starts (.carrierOpen h c hz k st x e) h 0x40 s ∧ locked s 2 = true) ∧
    (∃ (h : Hdr) (s : State) (c : _) (hz : _) (k : _) (st : _) (x : _) (e : _) (u : _), (c ≤ 15 ∧ (carrier s c).phase =
      .closed ∧ txEdge (started h s) ≠ 0 ∧ k ≤ 2 ∧ st ≤ 63 ∧ e ≤ 1 ∧ (x ≠ 0xFFFF → x ≤ 255 ∧ (session s x).phase ≠ .free ∧
      (session s x).phase ≠ .removing ∧ (openCarriers s).any (fun q => q.2.session == some x) = false) ∧ (e = 1 → x ≠ 0xFFFF) ∧
      carrierFreqOk (started h s) c hz = true ∧ st ≤ ceilingOf s.tx.steps ∧ permitted s.rf.perm true hz = true ∧ routesFit
      (onCarrier c (fun _ => freshCarrier hz k st x e) (started h s)) = true ∧ admitWork [carrierAsk c k] (started h s) = (.ok,
      u)) ∧ Awake [Dom.rfa, Dom.txd, Dom.abc] s ∧ Starts (.carrierOpen h c hz k st x e) h 0x40 s ∧ locked s 2 = false) ∧
    (∃ (h : Hdr) (s : State) (c : _), (c ≤ 15 ∧ (carrier s c).phase ≠ .closed) ∧ Starts (.carrierClose h c) h 0x41 s) ∧
    (∃ (h : Hdr) (s : State) (c : _) (st : _), (c ≤ 15 ∧ st ≤ 63 ∧ (carrier s c).phase ≠ .closed ∧ st ≤ ceilingOf s.tx.steps)
      ∧ Awake [Dom.txd] s ∧ Starts (.carrierSetPower h c st) h 0x42 s) ∧
    (∃ (h : Hdr) (s : State) (c : _) (st : _), (c ≤ 15 ∧ st ≤ 63 ∧ (carrier s c).phase ≠ .closed ∧ ceilingOf s.tx.steps < st)
      ∧ Awake [Dom.txd] s ∧ Starts (.carrierSetPower h c st) h 0x42 s) ∧
    (∃ (h : Hdr) (s : State) (c : _) (hz : _) (p : _) (p' : _), (c ≤ 15 ∧ (carrier s c).phase ≠ .closed ∧ (carrier s c).retune
      = none ∧ carrierFreqOk (started h s) c hz = true ∧ permitted s.rf.perm true hz = true ∧ retunePeriod s (announced s
      (carrier s c).session) (parNow (started h s) (P.txHopLead c)) p = some p') ∧ Awake [Dom.txd] s ∧ Starts (.carrierRetune h
      c hz p) h 0x43 s) ∧
    (∃ (h : Hdr) (s : State) (m : _), (m ≠ 0 ∧ (∀ c ∈ maskBits 16 m, (carrier s c).phase ≠ .closed) ∧ txEdge (started h s) ≠ 0
      ∧ s.supply.brown = false ∧ s.rattle.txLoop = false) ∧ Awake [Dom.rfa, Dom.txd] s ∧ Starts (.txEnable h m) h 0x44 s ∧
      (locked s 2 = true ∧ toStart m s ≠ [])) ∧
    (∃ (h : Hdr) (s : State) (m : _), (m ≠ 0 ∧ (∀ c ∈ maskBits 16 m, (carrier s c).phase ≠ .closed) ∧ txEdge (started h s) ≠ 0
      ∧ s.supply.brown = false ∧ s.rattle.txLoop = false) ∧ Awake [Dom.rfa, Dom.txd] s ∧ Starts (.txEnable h m) h 0x44 s ∧
      (locked s 2 = true ∧ toStart m s = [])) ∧
    (∃ (h : Hdr) (s : State) (m : _), (m ≠ 0 ∧ (∀ c ∈ maskBits 16 m, (carrier s c).phase ≠ .closed) ∧ txEdge (started h s) ≠ 0
      ∧ s.supply.brown = false ∧ s.rattle.txLoop = false) ∧ Awake [Dom.rfa, Dom.txd] s ∧ Starts (.txEnable h m) h 0x44 s ∧
      locked s 2 = false) ∧
    (∃ (h : Hdr) (s : State) (m : _) (v : _), m ≠ 0 ∧ Starts (.txDisable h m) h 0x45 s ∧ v = forgetStopped m (rampDown m 1
      (started h s)) ∧ rampingOf m v = 0) ∧
    (∃ (h : Hdr) (s : State) (m : _) (v : _), m ≠ 0 ∧ Starts (.txDisable h m) h 0x45 s ∧ v = forgetStopped m (rampDown m 1
      (started h s)) ∧ rampingOf m v ≠ 0) :=
  ⟨⟨hd, w, 15, 500000000, 2, 0, 0xFFFF, 0, (admitWork [carrierAsk 15 2] (started hd w)).2, by decide +kernel, awake_of
      (by decide +kernel), starts_of (by decide +kernel), by decide +kernel⟩,
    ⟨hd, wnotx, 15, 500000000, 2, 0, 0xFFFF, 0, (admitWork [carrierAsk 15 2] (started hd wnotx)).2, by decide +kernel,
      awake_of (by decide +kernel), starts_of (by decide +kernel), by decide +kernel⟩,
    ⟨hd, wc, 2, by decide +kernel, starts_of (by decide +kernel)⟩,
    ⟨hd, wc, 2, 0, by decide +kernel, awake_of (by decide +kernel), starts_of (by decide +kernel)⟩,
    ⟨hd, wc, 2, 63, by decide +kernel, awake_of (by decide +kernel), starts_of (by decide +kernel)⟩,
    ⟨hd, wc, 2, 500000000, 0, ((retunePeriod wc (announced wc (carrier wc 2).session) (parNow (started hd wc) (P.txHopLead 2))
      0).getD 0), by decide +kernel, awake_of (by decide +kernel), starts_of (by decide +kernel)⟩,
    ⟨hd, wc, 4, by decide +kernel, awake_of (by decide +kernel), starts_of (by decide +kernel), by decide +kernel⟩,
    ⟨hd, won, 4, by decide +kernel, awake_of (by decide +kernel), starts_of (by decide +kernel), by decide +kernel⟩,
    ⟨hd, { wc with clk := wnotx.clk }, 4, by decide +kernel, awake_of (by decide +kernel), starts_of (by decide +kernel),
      by decide +kernel⟩,
    ⟨hd, wc, 4, _, by decide +kernel, starts_of (by decide +kernel), rfl, by decide +kernel⟩,
    ⟨hd, won, 4, _, by decide +kernel, starts_of (by decide +kernel), rfl, by decide +kernel⟩⟩

theorem witness_ClCommands :
    (∃ (h : Hdr) (s : State) (n : _) (tx : _) (f : _) (k : _), ((policy s).testBit 8 = false ∧ tx ≠ 0 ∧ tx ≠ 0xFFFFFFFF ∧ (∀
      m, sessionOfTx s tx = some m → m = n) ∧ ((session s n).phase ≠ .free → (session s n).txId = tx ∧ (session s n).phase ≠
      .removing ∧ ((session s n).flags = f % 4 ∨ sessionNamed s n = false)) ∧ (session s n).change = none) ∧ Starts (.sessionAdd
      h n tx f k) h 0x52 s) ∧
    (∃ (h : Hdr) (s : State) (n : _), ((policy s).testBit 8 = false ∧ n ≤ 255 ∧ (session s n).phase = .joined ∧ clRunning s =
      true ∧ sessionNamed s n = false) ∧ Starts (.sessionRemove h n) h 0x53 s) ∧
    (∃ (h : Hdr) (s : State) (n : _), ((policy s).testBit 8 = false ∧ n ≤ 255 ∧ (session s n).phase ≠ .free ∧ (session s
      n).phase ≠ .removing ∧ ((session s n).phase = .joined → clRunning s = false) ∧ sessionNamed s n = false) ∧ Starts
      (.sessionRemove h n) h 0x53 s) ∧
    (∃ (h : Hdr) (s : State) (n : _), n ≤ 255 ∧ Starts (.sessionStatus h n) h 0x55 s) ∧
    (∃ (h : Hdr) (s : State) (n : _) (d : _), (n ≤ 255 ∧ (session s n).phase = .joined ∧ clRunning s = true) ∧ Awake [Dom.clr]
      s ∧ Starts (.sessionSend h n d) h 0x54 s) ∧
    (∃ (h : Hdr) (s : State) (f : _) (p : _), ((s.cl.phase = .stopped ∨ s.cl.phase = .muted) ∧ clStarting s = false ∧
      s.supply.brown = false ∧ clFreqOk f = true ∧ -20 ≤ p ∧ p ≤ 0 ∧ (¬(locked s 3 = true ∧ s.clk.cmd.freq = f))) ∧ Awake
      [Dom.rfa, Dom.clr] s ∧ Starts (.clStart h f p) h 0x50 s) ∧
    (∃ (h : Hdr) (s : State) (f : _) (p : _), ((s.cl.phase = .stopped ∨ s.cl.phase = .muted) ∧ clStarting s = false ∧
      s.supply.brown = false ∧ clFreqOk f = true ∧ -20 ≤ p ∧ p ≤ 0 ∧ locked s 3 = true ∧ s.clk.cmd.freq = f) ∧ Awake [Dom.rfa,
      Dom.clr] s ∧ Starts (.clStart h f p) h 0x50 s) ∧
    (∃ (h : Hdr) (s : State), (s.cl.phase ≠ .stopped ∨ clStarting s = true) ∧ Starts (.clStop h) h 0x51 s) ∧
    (∃ (h : Hdr) (s : State), (s.cl.phase = .stopped ∧ clStarting s = false) ∧ Starts (.clStop h) h 0x51 s) ∧
    (∃ (h : Hdr) (s : State) (f : _) (i : _) (p : _), (s.cl.phase = .running ∧ s.cl.hop = none ∧ clFreqOk f = true ∧ f ≠
      s.cl.freq ∧ (p = 0 ∨ (p % 20 = 0 ∧ period s + parGet (started h s) P.clHopLead ≤ p ∧ p ≤ period s + 1000))) ∧ Awake
      [Dom.clr] s ∧ Starts (.clHop h 2 i f p) h 0x56 s) ∧
    (∃ (h : Hdr) (s : State) (f : _) (i : _) (p : _) (p' : _), (i ≤ 63 ∧ (link s i).isOpen = true ∧ (link s i).hop = none ∧
      insideWindow (rxEdge (started h s)) f = true ∧ permitted s.rf.perm false f = true ∧ announced s (link s i).session = true
      ∧ retunePeriod s true (parNow (started h s) (P.linkHopLead i)) p = some p') ∧ Awake [Dom.rfa, Dom.chz, Dom.dmd] s ∧ Starts
      (.clHop h 0 i f p) h 0x56 s) ∧
    (∃ (h : Hdr) (s : State) (f : _) (i : _) (p : _) (p' : _), (i ≤ 15 ∧ (carrier s i).phase ≠ .closed ∧ (carrier s i).retune
      = none ∧ carrierFreqOk (started h s) i f = true ∧ permitted s.rf.perm true f = true ∧ announced s (carrier s i).session =
      true ∧ retunePeriod s true (parNow (started h s) (P.txHopLead i)) p = some p') ∧ Awake [Dom.txd] s ∧ Starts (.clHop h 1 i
      f p) h 0x56 s) :=
  ⟨⟨hd, wzero, 255, 0xFFFFFFFE, 3, z 16, by decide +kernel, starts_of (by decide +kernel)⟩,
    ⟨hd, wj, 255, by decide +kernel, starts_of (by decide +kernel)⟩,
    ⟨hd, wj0, 255, by decide +kernel, starts_of (by decide +kernel)⟩,
    ⟨hd, w, 255, by decide +kernel, starts_of (by decide +kernel)⟩,
    ⟨hd, wj, 255, z 64, by decide +kernel, awake_of (by decide +kernel), starts_of (by decide +kernel)⟩,
    ⟨hd, w, 2481000000, -20, by decide +kernel, awake_of (by decide +kernel), starts_of (by decide +kernel)⟩,
    ⟨hd, w, 2441000000, 0, by decide +kernel, awake_of (by decide +kernel), starts_of (by decide +kernel)⟩,
    ⟨hd, wj, by decide +kernel, starts_of (by decide +kernel)⟩,
    ⟨hd, w, by decide +kernel, starts_of (by decide +kernel)⟩,
    ⟨hd, wj, 2401000000, 9, 0, by decide +kernel, awake_of (by decide +kernel), starts_of (by decide +kernel)⟩,
    ⟨hd, wla, 500000000, 2, 0, ((retunePeriod wla true (parNow (started hd wla) (P.linkHopLead 2)) 0).getD 0),
      by decide +kernel, awake_of (by decide +kernel), starts_of (by decide +kernel)⟩,
    ⟨hd, wca, 500000000, 2, 0, ((retunePeriod wca true (parNow (started hd wca) (P.txHopLead 2)) 0).getD 0),
      by decide +kernel, awake_of (by decide +kernel), starts_of (by decide +kernel)⟩⟩

theorem witness_PortCommands :
    (∃ (h : Hdr) (s : State) (p : _) (c : _) (u : _), (portFieldsOk p c = true ∧ ((port s p).phase = .unconfigured ∨ (port s
      p).phase = .stopped) ∧ admitWork (portAsks p c (started h s)) (started h s) = (.ok, u) ∧ routesFit (withPortCfg p c
      (started h s)) = true) ∧ Awake [Dom.aud] s ∧ Starts (.portConfig h p c.format c.rate c.slots c.role c.slotBits c.inMask
      c.outMask c.drive) h 0x60 s) ∧
    (∃ (h : Hdr) (s : State) (p : _) (c : _) (u : _), (portFieldsOk p c = true ∧ (port s p).phase = .rateMuted ∧ admitWork
      (portAsks p c (started h s)) (started h s) = (.ok, u) ∧ routesFit (withPortCfg p c (started h s)) = true) ∧ Awake
      [Dom.aud] s ∧ Starts (.portConfig h p c.format c.rate c.slots c.role c.slotBits c.inMask c.outMask c.drive) h 0x60 s) ∧
    (∃ (h : Hdr) (s : State) (p : _) (c : _) (u : _), (portFieldsOk p c = true ∧ portIdle (port s p) = false ∧ masksOnly
      (portCfgNow (port s p)) c = true ∧ admitWork (portAsks p c (started h s)) (started h s) = (.ok, u) ∧ routesFit
      (withPortCfg p c (started h s)) = true) ∧ Awake [Dom.aud] s ∧ Starts (.portConfig h p c.format c.rate c.slots c.role
      c.slotBits c.inMask c.outMask c.drive) h 0x60 s) ∧
    (∃ (h : Hdr) (s : State) (p : _) (c : _), (portFieldsOk p c = true ∧ portIdle (port s p) = false ∧ masksOnly (portCfgNow
      (port s p)) c = false) ∧ Awake [Dom.aud] s ∧ Starts (.portConfig h p c.format c.rate c.slots c.role c.slotBits c.inMask
      c.outMask c.drive) h 0x60 s) ∧
    (∃ (h : Hdr) (s : State) (m : _) (st : _) (n : _), (m ≠ 0 ∧ m ≤ 63 ∧ st ≤ 2 ∧ (st = 2 → period s < n ∧ n ≤ period s +
      65535) ∧ (∀ i ∈ maskBits 8 m, (port s i).phase = .stopped)) ∧ Awake [Dom.aud] s ∧ Starts (.portStart h m st n) h 0x61 s) ∧
    (∃ (h : Hdr) (s : State) (m : _) (v : _), m ≠ 0 ∧ Starts (.portStop h m) h 0x62 s ∧ v = stopPorts 1 m (started h s) ∧
      portsStopping m v = 0) ∧
    (∃ (h : Hdr) (s : State) (m : _) (v : _), m ≠ 0 ∧ Starts (.portStop h m) h 0x62 s ∧ v = stopPorts 1 m (started h s) ∧
      portsStopping m v ≠ 0) :=
  ⟨⟨hd, w, 5, c0, (admitWork (portAsks 5 c0 (started hd w)) (started hd w)).2, by decide +kernel, awake_of
      (by decide +kernel), starts_of (by decide +kernel)⟩,
    ⟨hd, wmute, 5, c0, (admitWork (portAsks 5 c0 (started hd wmute)) (started hd wmute)).2, by decide +kernel, awake_of
      (by decide +kernel), starts_of (by decide +kernel)⟩,
    ⟨hd, wrun, 5, c1, (admitWork (portAsks 5 c1 (started hd wrun)) (started hd wrun)).2, by decide +kernel, awake_of
      (by decide +kernel), starts_of (by decide +kernel)⟩,
    ⟨hd, wrun, 5, { c0 with slotBits := 32 }, by decide +kernel, awake_of (by decide +kernel), starts_of (by decide +kernel)⟩,
    ⟨hd, wport (fun q => { q with phase := .stopped }), 32, 2, 66535, by decide +kernel, awake_of (by decide +kernel),
      starts_of (by decide +kernel)⟩,
    ⟨hd, w, 63, _, by decide +kernel, starts_of (by decide +kernel), rfl, by decide +kernel⟩,
    ⟨hd, wrun, 32, _, by decide +kernel, starts_of (by decide +kernel), rfl, by decide +kernel⟩⟩

theorem witness_RouterCommands :
    (∃ (h : Hdr) (s : State) (n : _) (a : _) (b : _) (g : _) (u : _), (n ≤ 511 ∧ routeFieldsOk a b g = true ∧ (route s
      n).fading = false ∧ ((route s n).inUse = true → (route s n).src = a ∧ (route s n).dst = b) ∧ dstTaken (started h s) n b =
      false ∧ latencyFits (started h s) a b = true ∧ admitFor (routeKey n) (routeAsks (started h s) n a b) (started h s) = (.ok,
      u)) ∧ (Awake (if (busOfDst b).isSome then [Dom.aud, Dom.abc] else [Dom.aud]) s) ∧ Starts (.routeSet h n a b g) h 0x63 s) ∧
    (∃ (h : Hdr) (s : State) (n : _) (a : _) (b : _) (g : _), (n ≤ 511 ∧ routeFieldsOk a b g = true ∧ (route s n).fading =
      false ∧ ((route s n).inUse = true → (route s n).src = a ∧ (route s n).dst = b) ∧ dstTaken (started h s) n b = false ∧
      latencyFits (started h s) a b = false) ∧ (Awake (if (busOfDst b).isSome then [Dom.aud, Dom.abc] else [Dom.aud]) s) ∧
      Starts (.routeSet h n a b g) h 0x63 s) ∧
    (∃ (h : Hdr) (s : State) (n : _), (n ≤ 511 ∧ (route s n).inUse = true) ∧ Awake [Dom.aud] s ∧ Starts (.routeClear h n) h
      0x64 s) ∧
    (∃ (h : Hdr) (s : State) (b : _) (c : _) (g : _), (b ≤ 31 ∧ c ≤ 2 ∧ gainCodeOk g = true ∧ (c ≠ (bus s b).cls → (liveRoutes
      s).any (fun p => busOfDst p.2.dst == some b || srcOf p.2.src == some (.bus b)) = false)) ∧ Awake [Dom.aud] s ∧ Starts
      (.mixSetGain h b c g) h 0x65 s) ∧
    (∃ (h : Hdr) (s : State) (n : _) (k : _) (o : _) (l : _) (t : _) (u : _), (n ≤ 511 ∧ (k = 3 ∨ k = 4) ∧ o % 4 = 0 ∧ l % (24
      * k) = 0 ∧ 48 * k ≤ l ∧ o + l ≤ 0x40000 ∧ bufferTaken (started h s) n o l = false ∧ (route s n).inUse = true ∧ (route s
      n).fading = false ∧ tapSlot s n = some t ∧ admitFor (routeKey n) [tapAsk t k] (started h s) = (.ok, u) ∧ tapSlot u n =
      some t) ∧ Awake [Dom.aud, Dom.mem] s ∧ Starts (.tapConfig h n k o l) h 0x66 s) ∧
    (∃ (h : Hdr) (s : State) (n : _) (k : _) (o : _), (n ≤ 511 ∧ (k = 3 ∨ k = 4) ∧ o % 4 = 0 ∧ (route s n).inUse = true ∧
      (route s n).fading = false) ∧ Awake [Dom.aud, Dom.mem] s ∧ Starts (.tapConfig h n k o 0) h 0x66 s) :=
  ⟨⟨hd, w, 511, 0, 0x121F, 0, (admitFor (routeKey 511) (routeAsks (started hd w) 511 0 0x121F) (started hd w)).2,
      by decide +kernel, awake_of (by decide +kernel), starts_of (by decide +kernel)⟩,
    ⟨hd, wlate, 511, 2, 0x1004, 0, by decide +kernel, awake_of (by decide +kernel), starts_of (by decide +kernel)⟩,
    ⟨hd, wroute, 511, by decide +kernel, awake_of (by decide +kernel), starts_of (by decide +kernel)⟩,
    ⟨hd, w, 31, 2, 0, by decide +kernel, awake_of (by decide +kernel), starts_of (by decide +kernel)⟩,
    ⟨hd, wroute, 511, 4, 64, 262080, 0, (admitFor (routeKey 511) [tapAsk 0 4] (started hd wroute)).2, by decide +kernel,
      awake_of (by decide +kernel), starts_of (by decide +kernel)⟩,
    ⟨hd, wroute, 511, 3, 0x3FFFC, by decide +kernel, awake_of (by decide +kernel), starts_of (by decide +kernel)⟩⟩

theorem witness_RodCommands_1 :
    (∃ (h : Hdr) (s : State) (n : Nat) (f : _) (ws : _), n ≤ 63 ∧ Awake [Dom.abc] s ∧ ((rod s n).phase = .link ∨ (rod s
      n).phase = .carrier ∨ (rod s n).phase = .bus) ∧ Starts (.progLoad h n f ws) h 0x70 s) ∧
    (∃ (h : Hdr) (s : State) (n : Nat) (k : _), n ≤ 63 ∧ Awake [Dom.abc] s ∧ ((rod s n).phase = .link ∨ (rod s n).phase =
      .carrier ∨ (rod s n).phase = .bus) ∧ Starts (.progAdmit h n k) h 0x71 s) ∧
    (∃ (h : Hdr) (s : State) (n : Nat), n ≤ 63 ∧ Awake [Dom.abc] s ∧ ((rod s n).phase = .link ∨ (rod s n).phase = .carrier ∨
      (rod s n).phase = .bus) ∧ Starts (.progRetire h n) h 0x72 s) ∧
    (∃ (h : Hdr) (s : State) (n : Nat) (b : _) (f : _) (ws : _), n ≤ 63 ∧ Awake [Dom.abc] s ∧ ((rod s n).phase = .link ∨ (rod
      s n).phase = .carrier ∨ (rod s n).phase = .bus) ∧ Starts (.coefWrite h n b f ws) h 0x73 s) ∧
    (∃ (h : Hdr) (s : State) (n : Nat) (p : _), n ≤ 63 ∧ Awake [Dom.abc] s ∧ ((rod s n).phase = .link ∨ (rod s n).phase =
      .carrier ∨ (rod s n).phase = .bus) ∧ Starts (.coefSwap h n p) h 0x74 s) ∧
    (∃ (h : Hdr) (s : State) (n : Nat) (f : _) (ws : _), n ≤ 63 ∧ Awake [Dom.abc] s ∧ ((rod s n).phase ≠ .link ∧ (rod s
      n).phase ≠ .carrier ∧ (rod s n).phase ≠ .bus) ∧ Starts (.progLoad h n f ws) h 0x70 s ∧ ((rod s n).phase ≠ .running ∧ ws ≠
      [] ∧ ws.length ≤ 254 ∧ f + ws.length ≤ 512)) ∧
    (∃ (h : Hdr) (s : State) (n : Nat) (f : _) (ws : _), n ≤ 63 ∧ Awake [Dom.abc] s ∧ ((rod s n).phase ≠ .link ∧ (rod s
      n).phase ≠ .carrier ∧ (rod s n).phase ≠ .bus) ∧ Starts (.progLoad h n f ws) h 0x70 s ∧ (ws = [] ∨ 254 < ws.length ∨ 512 < f + ws.length)) ∧
    (∃ (h : Hdr) (s : State) (n : Nat) (f : _) (ws : _), n ≤ 63 ∧ Awake [Dom.abc] s ∧ ((rod s n).phase ≠ .link ∧ (rod s
      n).phase ≠ .carrier ∧ (rod s n).phase ≠ .bus) ∧ Starts (.progLoad h n f ws) h 0x70 s ∧ ((rod s n).phase = .running ∧ ws ≠
      [] ∧ ws.length ≤ 254 ∧ f + ws.length ≤ 512)) ∧
    (∃ (h : Hdr) (s : State) (n : Nat) (k : _) (c : _) (u : _), n ≤ 63 ∧ Awake [Dom.abc] s ∧ ((rod s n).phase ≠ .link ∧ (rod s
      n).phase ≠ .carrier ∧ (rod s n).phase ≠ .bus) ∧ Starts (.progAdmit h n k) h 0x71 s ∧ ((rod s n).phase = .loaded ∧ k ≤ 2 ∧
      progCheck (rod s n).prog = .inr c ∧ routesFit (onRod n (admitted k c) (started h s)) = true ∧ admitWork [progAsk n c]
      (started h s) = (.ok, u) ∧ (rod u n).prog = (rod s n).prog)) ∧
    (∃ (h : Hdr) (s : State) (n : Nat) (k : _) (a : _) (w : _), n ≤ 63 ∧ Awake [Dom.abc] s ∧ ((rod s n).phase ≠ .link ∧ (rod s
      n).phase ≠ .carrier ∧ (rod s n).phase ≠ .bus) ∧ Starts (.progAdmit h n k) h 0x71 s ∧ ((rod s n).phase = .loaded ∧ k ≤ 2 ∧
      progCheck (rod s n).prog = .inl (a, w))) ∧
    (∃ (h : Hdr) (s : State) (n : Nat) (k : _) (c : _), n ≤ 63 ∧ Awake [Dom.abc] s ∧ ((rod s n).phase ≠ .link ∧ (rod s
      n).phase ≠ .carrier ∧ (rod s n).phase ≠ .bus) ∧ Starts (.progAdmit h n k) h 0x71 s ∧ ((rod s n).phase = .loaded ∧ k ≤ 2 ∧
      progCheck (rod s n).prog = .inr c ∧ routesFit (onRod n (admitted k c) (started h s)) = false)) :=
  ⟨⟨hd, wrod (fun r => { r with phase := .bus }), 63, 0, [0], by decide +kernel, awake_of (by decide +kernel),
      by decide +kernel, starts_of (by decide +kernel)⟩,
    ⟨hd, wrod (fun r => { r with phase := .bus }), 63, 2, by decide +kernel, awake_of (by decide +kernel), by decide +kernel,
      starts_of (by decide +kernel)⟩,
    ⟨hd, wrod (fun r => { r with phase := .link }), 63, by decide +kernel, awake_of (by decide +kernel), by decide +kernel,
      starts_of (by decide +kernel)⟩,
    ⟨hd, wrod (fun r => { r with phase := .carrier }), 63, 1, 0, [0], by decide +kernel, awake_of (by decide +kernel),
      by decide +kernel, starts_of (by decide +kernel)⟩,
    ⟨hd, wrod (fun r => { r with phase := .bus }), 63, 0, by decide +kernel, awake_of (by decide +kernel), by decide +kernel,
      starts_of (by decide +kernel)⟩,
    ⟨hd, w, 63, 258, List.replicate 254 0, by decide +kernel, awake_of (by decide +kernel), by decide +kernel, starts_of
      (by decide +kernel), by decide +kernel⟩,
    ⟨hd, w, 63, 0, [], by decide +kernel, awake_of (by decide +kernel), by decide +kernel, starts_of (by decide +kernel),
      by decide +kernel⟩,
    ⟨hd, wrod (fun r => { r with phase := .running }), 63, 0, [0], by decide +kernel, awake_of (by decide +kernel),
      by decide +kernel, starts_of (by decide +kernel), by decide +kernel⟩,
    ⟨hd, wload, 63, 2, 1, (admitWork [progAsk 63 1] (started hd wload)).2, by decide +kernel, awake_of (by decide +kernel),
      by decide +kernel, starts_of (by decide +kernel), by decide +kernel⟩,
    ⟨hd, wnone, 63, 0, 511, 6, by decide +kernel, awake_of (by decide +kernel), by decide +kernel, starts_of
      (by decide +kernel), by decide +kernel⟩,
    ⟨hd, wlay, 63, 2, 1, by decide +kernel, awake_of (by decide +kernel), by decide +kernel, starts_of (by decide +kernel),
      by decide +kernel⟩⟩

theorem witness_RodCommands_2 :
    (∃ (h : Hdr) (s : State) (n : Nat) (k : _), n ≤ 63 ∧ Awake [Dom.abc] s ∧ ((rod s n).phase ≠ .link ∧ (rod s n).phase ≠
      .carrier ∧ (rod s n).phase ≠ .bus) ∧ Starts (.progAdmit h n k) h 0x71 s ∧ 2 < k) ∧
    (∃ (h : Hdr) (s : State) (n : Nat) (k : _), n ≤ 63 ∧ Awake [Dom.abc] s ∧ ((rod s n).phase ≠ .link ∧ (rod s n).phase ≠
      .carrier ∧ (rod s n).phase ≠ .bus) ∧ Starts (.progAdmit h n k) h 0x71 s ∧ ((rod s n).phase ≠ .loaded ∧ k ≤ 2)) ∧
    (∃ (h : Hdr) (s : State) (n : Nat), n ≤ 63 ∧ Awake [Dom.abc] s ∧ ((rod s n).phase ≠ .link ∧ (rod s n).phase ≠ .carrier ∧
      (rod s n).phase ≠ .bus) ∧ Starts (.progRetire h n) h 0x72 s ∧ (rod s n).phase = .running) ∧
    (∃ (h : Hdr) (s : State) (n : Nat), n ≤ 63 ∧ Awake [Dom.abc] s ∧ ((rod s n).phase ≠ .link ∧ (rod s n).phase ≠ .carrier ∧
      (rod s n).phase ≠ .bus) ∧ Starts (.progRetire h n) h 0x72 s ∧ (rod s n).phase ≠ .running) ∧
    (∃ (h : Hdr) (s : State) (n : Nat) (b : _) (f : _) (ws : _), n ≤ 63 ∧ Awake [Dom.abc] s ∧ ((rod s n).phase ≠ .link ∧ (rod
      s n).phase ≠ .carrier ∧ (rod s n).phase ≠ .bus) ∧ Starts (.coefWrite h n b f ws) h 0x73 s ∧ (b ≤ 1 ∧ ws ≠ [] ∧ ws.length ≤ 509 ∧ f +
      ws.length ≤ 512 ∧ (rod s n).phase ≠ .running ∧ restarting s Dom.abc = false)) ∧
    (∃ (h : Hdr) (s : State) (n : Nat) (b : _) (f : _) (ws : _), n ≤ 63 ∧ Awake [Dom.abc] s ∧ ((rod s n).phase ≠ .link ∧ (rod
      s n).phase ≠ .carrier ∧ (rod s n).phase ≠ .bus) ∧ Starts (.coefWrite h n b f ws) h 0x73 s ∧ (b ≤ 1 ∧ ws ≠ [] ∧ ws.length ≤ 509 ∧ f +
      ws.length ≤ 512 ∧ ((rod s n).phase = .running → (rod s n).swap = none ∧ b ≠ (rod s n).active) ∧ ((rod s n).phase =
      .running ∨ restarting s Dom.abc = true))) ∧
    (∃ (h : Hdr) (s : State) (n : Nat) (b : _) (f : _) (ws : _), n ≤ 63 ∧ Awake [Dom.abc] s ∧ ((rod s n).phase ≠ .link ∧ (rod
      s n).phase ≠ .carrier ∧ (rod s n).phase ≠ .bus) ∧ Starts (.coefWrite h n b f ws) h 0x73 s ∧ (1 < b ∨ ws = [] ∨ 509 < ws.length ∨ 512 <
      f + ws.length)) ∧
    (∃ (h : Hdr) (s : State) (n : Nat) (b : _) (f : _) (ws : _), n ≤ 63 ∧ Awake [Dom.abc] s ∧ ((rod s n).phase ≠ .link ∧ (rod
      s n).phase ≠ .carrier ∧ (rod s n).phase ≠ .bus) ∧ Starts (.coefWrite h n b f ws) h 0x73 s ∧ (b ≤ 1 ∧ ws ≠ [] ∧ ws.length ≤ 509 ∧ f +
      ws.length ≤ 512 ∧ (rod s n).phase = .running ∧ ((rod s n).swap ≠ none ∨ b = (rod s n).active))) :=
  ⟨⟨hd, wload, 63, 3, by decide +kernel, awake_of (by decide +kernel), by decide +kernel, starts_of (by decide +kernel),
      by decide +kernel⟩,
    ⟨hd, w, 63, 2, by decide +kernel, awake_of (by decide +kernel), by decide +kernel, starts_of (by decide +kernel),
      by decide +kernel⟩,
    ⟨hd, wrod (fun r => { r with phase := .running }), 63, by decide +kernel, awake_of (by decide +kernel), by decide +kernel,
      starts_of (by decide +kernel), by decide +kernel⟩,
    ⟨hd, wload, 63, by decide +kernel, awake_of (by decide +kernel), by decide +kernel, starts_of (by decide +kernel),
      by decide +kernel⟩,
    ⟨hd, w, 63, 1, 3, List.replicate 509 (-32768), by decide +kernel, awake_of (by decide +kernel), by decide +kernel,
      starts_of (by decide +kernel), by decide +kernel⟩,
    ⟨hd, wrod (fun r => { r with phase := .running }), 63, 1, 511, [32767], by decide +kernel, awake_of (by decide +kernel),
      by decide +kernel, starts_of (by decide +kernel), by decide +kernel⟩,
    ⟨hd, w, 63, 2, 0, [0], by decide +kernel, awake_of (by decide +kernel), by decide +kernel, starts_of (by decide +kernel),
      by decide +kernel⟩,
    ⟨hd, wrod (fun r => { r with phase := .running }), 63, 0, 0, [0], by decide +kernel, awake_of (by decide +kernel),
      by decide +kernel, starts_of (by decide +kernel), by decide +kernel⟩⟩

theorem witness_RodCommands_3 :
    (∃ (h : Hdr) (s : State) (n : Nat) (p : _), n ≤ 63 ∧ Awake [Dom.abc] s ∧ ((rod s n).phase ≠ .link ∧ (rod s n).phase ≠
      .carrier ∧ (rod s n).phase ≠ .bus) ∧ Starts (.coefSwap h n p) h 0x74 s ∧ ((rod s n).phase = .running ∧ (rod s n).swap =
      none ∧ (p = 0 ∨ (period s < p ∧ p ≤ period s + 65535)))) ∧
    (∃ (h : Hdr) (s : State) (n : Nat) (p : _), n ≤ 63 ∧ Awake [Dom.abc] s ∧ ((rod s n).phase ≠ .link ∧ (rod s n).phase ≠
      .carrier ∧ (rod s n).phase ≠ .bus) ∧ Starts (.coefSwap h n p) h 0x74 s ∧ ((rod s n).phase ≠ .running ∨ (rod s n).swap ≠
      none)) ∧
    (∃ (h : Hdr) (s : State) (n : Nat) (p : _), n ≤ 63 ∧ Awake [Dom.abc] s ∧ ((rod s n).phase ≠ .link ∧ (rod s n).phase ≠
      .carrier ∧ (rod s n).phase ≠ .bus) ∧ Starts (.coefSwap h n p) h 0x74 s ∧ ((rod s n).phase = .running ∧ (rod s n).swap =
      none ∧ p ≠ 0 ∧ (p ≤ period s ∨ period s + 65535 < p))) :=
  ⟨⟨hd, wrod (fun r => { r with phase := .running }), 63, 0, by decide +kernel, awake_of (by decide +kernel),
      by decide +kernel, starts_of (by decide +kernel), by decide +kernel⟩,
    ⟨hd, wload, 63, 0, by decide +kernel, awake_of (by decide +kernel), by decide +kernel, starts_of (by decide +kernel),
      by decide +kernel⟩,
    ⟨hd, wrod (fun r => { r with phase := .running }), 63, 1000, by decide +kernel, awake_of (by decide +kernel),
      by decide +kernel, starts_of (by decide +kernel), by decide +kernel⟩⟩

theorem witness_AnalogCommand :
    (∃ (h : Hdr) (s : State) (t : Nat) (f : Nat) (v : Int) (a : _) (b : _), (anaRange t f = some (a, b) ∧ (a : Int) ≤ v ∧ v ≤
      b ∧ startsSequence t f = true) ∧ Awake [Dom.ana] s ∧ Starts (.analogConfig h t f v) h 0x67 s) ∧
    (∃ (h : Hdr) (s : State) (t : Nat) (f : Nat) (v : Int) (a : _) (b : _), (anaRange t f = some (a, b) ∧ (a : Int) ≤ v ∧ v ≤
      b ∧ startsSequence t f = false) ∧ Awake [Dom.ana] s ∧ Starts (.analogConfig h t f v) h 0x67 s) ∧
    (∃ (h : Hdr) (s : State) (t : Nat) (f : Nat) (v : Int) (a : _) (b : _), (anaRange t f = some (a, b) ∧ (v < a ∨ b < v)) ∧
      Starts (.analogConfig h t f v) h 0x67 s) ∧
    (∃ (h : Hdr) (s : State) (t : Nat) (f : Nat) (v : Int), anaRange t f = none ∧ Starts (.analogConfig h t f v) h 0x67 s) :=
  ⟨⟨hd, w, 8, 3, 3, 1, 3, by decide +kernel, awake_of (by decide +kernel), starts_of (by decide +kernel)⟩,
    ⟨hd, w, 9, 2, 250, 10, 250, by decide +kernel, awake_of (by decide +kernel), starts_of (by decide +kernel)⟩,
    ⟨hd, w, 9, 2, 251, 10, 250, by decide +kernel, starts_of (by decide +kernel)⟩,
    ⟨hd, w, 10, 0, 0, by decide +kernel, starts_of (by decide +kernel)⟩⟩

theorem witness_InstrumentCommands :
    (∃ (h : Hdr) (s : State) (n : _) (ch : _) (r : _) (o : _) (k : _) (t : _) (d : _), measConfigCheck n ch r o k t (started h
      s) = .ok ∧ Awake [Dom.ana] s ∧ Starts (.measConfig h n ch r o k t d) h 0x80 s) ∧
    (∃ (h : Hdr) (s : State) (n : _) (ch : _) (r : _) (o : _) (k : _) (t : _) (d : _), measConfigCheck n ch r o k t (started h
      s) = .badParam ∧ Starts (.measConfig h n ch r o k t d) h 0x80 s) ∧
    (∃ (h : Hdr) (s : State) (n : _) (ch : _), (n ≤ 1 ∧ channelOk n ch = true ∧ s.inst.refReady = true ∧ (fine s n).conv =
      none ∧ (fine s n).trigger ≠ 1) ∧ Awake [Dom.ana] s ∧ Starts (.measNow h n ch) h 0x81 s) ∧
    (∃ (h : Hdr) (s : State) (n : _) (ch : _), (n ≤ 1 ∧ channelOk n ch = true ∧ s.inst.refReady = true ∧ ((fine s
      n).conv.isSome = true ∨ (fine s n).trigger = 1)) ∧ Awake [Dom.ana] s ∧ Starts (.measNow h n ch) h 0x81 s) ∧
    (∃ (h : Hdr) (s : State) (m : _) (o : _) (l : _) (u : _), (m ≠ 0 ∧ m ≤ 3 ∧ o % 8 = 0 ∧ l % 8 = 0 ∧ 64 ≤ l ∧ o + l ≤
      0x40000 ∧ s.audio.taps.any (fun p => p.2.length != 0 && overlaps o l p.2.start p.2.length) = false ∧ s.inst.stream = none
      ∧ admitFor (streamKey m) [streamAsk m] (started h s) = (.ok, u)) ∧ Awake [Dom.ana, Dom.mem] s ∧ Starts (.measStreamStart h m o l) h
      0x82 s) ∧
    (∃ (h : Hdr) (s : State) (m : _), (1 ≤ m ∧ m ≤ 3) ∧ Starts (.measStreamStop h m) h 0x83 s) ∧
    (∃ (h : Hdr) (s : State) (c : _) (v : _), (c ≤ 7 ∧ v ≤ 16383) ∧ Awake [Dom.ana] s ∧ Starts (.cdacSet h c v 0) h 0x84 s) ∧
    (∃ (h : Hdr) (s : State) (c : _) (v : _) (m : _), (c ≤ 7 ∧ v ≤ 16383 ∧ 1 ≤ m ∧ m ≤ 4 ∧ timerOn (started h s) (m - 1) =
      true) ∧ Awake [Dom.ana] s ∧ Starts (.cdacSet h c v m) h 0x84 s) ∧
    (∃ (h : Hdr) (s : State) (c : _) (r : _), (c ≤ 7 ∧ r ≤ 1 ∧ (cdac s c).phase < 2) ∧ Awake [Dom.ana] s ∧ Starts (.cdacRange
      h c r) h 0x85 s) :=
  ⟨⟨hd, w, 1, 0x37, 4000, 5, 3, 9, 0xFFFF, by decide +kernel, awake_of (by decide +kernel), starts_of (by decide +kernel)⟩,
    ⟨hd, w, 2, 0, 10, 3, 0, 0, 0, by decide +kernel, starts_of (by decide +kernel)⟩,
    ⟨hd, wref, 1, 0x37, by decide +kernel, awake_of (by decide +kernel), starts_of (by decide +kernel)⟩,
    ⟨hd, { wref with inst := { wref.inst with fa := { Fine.reset with conv := some busy } } }, 0, 0, by decide +kernel,
      awake_of (by decide +kernel), starts_of (by decide +kernel)⟩,
    ⟨hd, w, 3, 0, 0x40000, (admitFor (streamKey 3) [streamAsk 3] (started hd w)).2, by decide +kernel, awake_of (by decide +kernel),
      starts_of (by decide +kernel)⟩,
    ⟨hd, w, 3, by decide +kernel, starts_of (by decide +kernel)⟩,
    ⟨hd, w, 7, 16383, by decide +kernel, awake_of (by decide +kernel), starts_of (by decide +kernel)⟩,
    ⟨hd, { w with par := [(P.measTmCfg 3, 1)] }, 7, 16383, 4, by decide +kernel, awake_of (by decide +kernel), starts_of
      (by decide +kernel)⟩,
    ⟨hd, w, 7, 1, by decide +kernel, awake_of (by decide +kernel), starts_of (by decide +kernel)⟩⟩

theorem witness_MailboxWrite :
    (∃ (s : State), (s.supply.resetHeld ≠ none ∨ s.supply.iohOn = false)) ∧
    (∃ (c : Chan) (b : Byte) (s : State), (s.supply.resetHeld = none ∧ s.supply.iohOn = true ∧ s.seq.running = true ∧ (chan s
      c).discard = false ∧ cmdLevel s c < 2048 ∧ ((chan s c).asm.length ≤ 2 ∨ ((chan s c).asm.length ≠ 3 ∧ (chan s c).asm.length
      + 1 ≠ 6 + fldAt ((chan s c).asm ++ [b]) 2 2)))) ∧
    (∃ (c : Chan) (b : Byte) (s : State), (s.supply.resetHeld = none ∧ s.supply.iohOn = true ∧ s.seq.running = true ∧ (chan s
      c).discard = false ∧ cmdLevel s c < 2048 ∧ (chan s c).asm.length = 3 ∧ fldAt ((chan s c).asm ++ [b]) 2 2 ≤ 1024)) ∧
    (∃ (c : Chan) (b : Byte) (s : State), (s.supply.resetHeld = none ∧ s.supply.iohOn = true ∧ s.seq.running = true ∧ (chan s
      c).discard = false ∧ cmdLevel s c < 2048 ∧ (chan s c).asm.length = 3 ∧ 1024 < fldAt ((chan s c).asm ++ [b]) 2 2)) ∧
    (∃ (c : Chan) (s : State), (s.supply.resetHeld = none ∧ s.supply.iohOn = true ∧ s.seq.running = true ∧ (chan s c).discard
      = false ∧ 2048 ≤ cmdLevel s c)) ∧
    (∃ (c : Chan) (b : Byte) (s : State), (s.supply.resetHeld = none ∧ s.supply.iohOn = true ∧ s.seq.running = true ∧ (chan s
      c).discard = false ∧ cmdLevel s c < 2048 ∧ 4 ≤ (chan s c).asm.length ∧ (chan s c).asm.length + 1 = 6 + fldAt ((chan s
      c).asm ++ [b]) 2 2)) ∧
    (∃ (c : Chan) (s : State), (s.supply.resetHeld = none ∧ s.supply.iohOn = true ∧ (s.seq.running = false ∨ (chan s
      c).discard = true))) :=
  ⟨⟨wres, by decide +kernel⟩,
    ⟨.operator, 0, w, by decide +kernel⟩,
    ⟨.operator, 4, wasm [0, 0, 0], by decide +kernel⟩,
    ⟨.operator, 4, wasm [0, 0, 1], by decide +kernel⟩,
    ⟨.operator, wfull, by decide +kernel⟩,
    ⟨.operator, 0xAB, wasm [0, 0, 0, 0, 0], by decide +kernel⟩,
    ⟨.custodian, woff, by decide +kernel⟩⟩

theorem witness_FrontAccesses :
    (∃ (s : State), (s.supply.resetHeld ≠ none ∨ s.supply.iohOn = false)) ∧
    (∃ (c : Chan) (s : State) (b : _) (bs : _) (rest : _), (s.supply.resetHeld = none ∧ s.supply.iohOn = true ∧ s.seq.running
      = true ∧ (chan s c).replies = (b :: bs) :: rest)) ∧
    (∃ (c : Chan) (s : State), (s.supply.resetHeld = none ∧ s.supply.iohOn = true ∧ s.seq.running = true ∧ (chan s c).replies
      = [])) ∧
    (∃ (s : State), (s.supply.resetHeld = none ∧ s.supply.iohOn = true ∧ s.seq.running = false)) ∧
    (∃ (s : State), (s.supply.resetHeld = none ∧ s.supply.iohOn = true ∧ s.seq.running = true)) ∧
    (∃ (s : State), (s.supply.resetHeld = none ∧ s.supply.iohOn = true)) ∧
    (∃ (s : State) (n : _), (s.supply.resetHeld = none ∧ s.supply.iohOn = true ∧ n ≤ 3)) ∧
    (∃ (s : State) (a : _), (s.supply.resetHeld = none ∧ s.supply.iohOn = true ∧ 0x20 ≤ a ∧ a ≤ 0x7F)) ∧
    (∃ (s : State) (a : _), (s.supply.resetHeld = none ∧ s.supply.iohOn = true ∧ (a ≤ 0x07 ∨ (0x09 ≤ a ∧ a ≤ 0x0B) ∨ a = 0x12
      ∨ a = 0x13 ∨ (0x15 ≤ a ∧ a ≤ 0x1F) ∨ (0x80 ≤ a ∧ a ≤ 0xDF) ∨ (0xE3 ≤ a ∧ a ≤ 0xF7) ∨ (0xFC ≤ a ∧ a ≤ 0xFF)))) :=
  ⟨⟨wres, by decide +kernel⟩,
    ⟨.operator, { w with op := { Channel.reset with replies := [[1, 2], [3]] } }, 1, [2], [[3]], by decide +kernel⟩,
    ⟨.custodian, w, by decide +kernel⟩,
    ⟨woff, by decide +kernel⟩,
    ⟨w, by decide +kernel⟩,
    ⟨w, by decide +kernel⟩,
    ⟨w, 3, by decide +kernel⟩,
    ⟨w, 0x20, by decide +kernel⟩,
    ⟨w, 0xFF, by decide +kernel⟩⟩

theorem witness_SpiTransactions_1 :
    (∃ (s : State), (s.supply.resetHeld ≠ none ∨ s.supply.iohOn = false ∨ s.front.bootMode = 1)) ∧
    (∃ (s : State) (u : State), (s.supply.resetHeld = none ∧ s.supply.iohOn = true ∧ s.front.bootMode ≠ 1 ∧ (u = (if
      wakeEnabled s 0 0 then settle (fireWake 0 s) else s)) ∧ u.seq.running = true)) ∧
    (∃ (s : State) (u : State), (s.supply.resetHeld = none ∧ s.supply.iohOn = true ∧ s.front.bootMode ≠ 1 ∧ (u = (if
      wakeEnabled s 0 0 then settle (fireWake 0 s) else s)) ∧ u.seq.running = false)) ∧
    (∃ (s : State) (u : State) (a : _) (n : _), (s.supply.resetHeld = none ∧ s.supply.iohOn = true ∧ s.front.bootMode ≠ 1 ∧ (u
      = (if wakeEnabled s 0 0 then settle (fireWake 0 s) else s)) ∧ a + n ≤ 0x18)) ∧
    (∃ (s : State) (u : State) (a : _), (s.supply.resetHeld = none ∧ s.supply.iohOn = true ∧ s.front.bootMode ≠ 1 ∧ (u = (if
      wakeEnabled s 0 0 then settle (fireWake 0 s) else s)) ∧ 0x20 ≤ a ∧ a ≤ 0xDF ∧ u.seq.running = false)) ∧
    (∃ (s : State) (u : State) (a : _), (s.supply.resetHeld = none ∧ s.supply.iohOn = true ∧ s.front.bootMode ≠ 1 ∧ (u = (if
      wakeEnabled s 0 0 then settle (fireWake 0 s) else s)) ∧ (a ≤ 0x1F ∨ 0xE0 ≤ a ∧ a ≤ 0xFF))) ∧
    (∃ (s : State) (u : State) (a : _), (s.supply.resetHeld = none ∧ s.supply.iohOn = true ∧ s.front.bootMode ≠ 1 ∧ (u = (if
      wakeEnabled s 0 0 then settle (fireWake 0 s) else s)) ∧ a ≤ 0xFF ∧ (needsSeq a = false ∨ u.seq.running = true))) :=
  ⟨⟨wres, by decide +kernel⟩,
    ⟨w, spiU w, by decide +kernel⟩,
    ⟨woff, spiU woff, by decide +kernel⟩,
    ⟨w, spiU w, 0x17, 1, by decide +kernel⟩,
    ⟨woff, spiU woff, 0xDF, by decide +kernel⟩,
    ⟨w, spiU w, 0xFF, by decide +kernel⟩,
    ⟨w, spiU w, 0xDF, by decide +kernel⟩⟩

theorem witness_SpiTransactions_2 :
    (∃ (s : State) (u : State), (s.supply.resetHeld = none ∧ s.supply.iohOn = true ∧ s.front.bootMode ≠ 1 ∧ (u = (if
      wakeEnabled s 0 0 then settle (fireWake 0 s) else s)))) ∧
    (∃ (s : State) (u : State) (k : Byte), (s.supply.resetHeld = none ∧ s.supply.iohOn = true ∧ s.front.bootMode ≠ 1 ∧ (u =
      (if wakeEnabled s 0 0 then settle (fireWake 0 s) else s)) ∧ (128 ≤ k.toNat ∨ k.toNat % 64 = 0 ∨ 5 < k.toNat % 64))) ∧
    (∃ (s : State) (u : State) (k : Byte), (s.supply.resetHeld = none ∧ s.supply.iohOn = true ∧ s.front.bootMode ≠ 1 ∧ (u =
      (if wakeEnabled s 0 0 then settle (fireWake 0 s) else s)) ∧ (¬(128 ≤ k.toNat ∨ k.toNat % 64 = 0 ∨ 5 < k.toNat % 64)))) :=
  ⟨⟨w, spiU w, by decide +kernel⟩,
    ⟨w, spiU w, 0x80, by decide +kernel⟩,
    ⟨w, spiU w, 5, by decide +kernel⟩⟩

theorem witness_TwoWireTransfers_1 :
    (∃ (x : Nat) (s : State), (x ≠ 0x48 + s.front.addrPins ∧ x ≠ 0x50 + s.front.addrPins)) ∧
    (∃ (x : Nat) (s : State), twChannel s x false = none) ∧
    (∃ (x : Nat) (s : State), twChannel s x true = none) ∧
    (∃ (c : Chan) (x : Nat) (s : State), (twChannel s x false = some c ∧ s.tw.held ≠ none)) ∧
    (∃ (c : Chan) (x : Nat) (s : State), (twChannel s x false = some c ∧ s.tw.held = none ∧ (s.supply.resetHeld ≠ none ∨
      s.supply.iohOn = false ∨ (2 < s.power.state ∧ wakeEnabled s 1 0 = false)))) ∧
    (∃ (c : Chan) (x : Nat) (s : State), (twChannel s x false = some c ∧ s.tw.held = none ∧ s.supply.resetHeld = none ∧
      s.supply.iohOn = true ∧ 2 < s.power.state ∧ wakeEnabled s 1 0 = true)) ∧
    (∃ (c : Chan) (x : Nat) (s : State), (twChannel s x true = some c ∧ s.tw.held ≠ none)) ∧
    (∃ (c : Chan) (x : Nat) (s : State), (twChannel s x true = some c ∧ s.tw.held = none ∧ (s.supply.resetHeld ≠ none ∨
      s.supply.iohOn = false ∨ (2 < s.power.state ∧ wakeEnabled s 1 0 = false)))) :=
  ⟨⟨0x49, w, by decide +kernel⟩,
    ⟨0x49, w, by decide +kernel⟩,
    ⟨0x49, w, by decide +kernel⟩,
    ⟨.operator, 0x48, wheld, by decide +kernel⟩,
    ⟨.operator, 0x48, wres, by decide +kernel⟩,
    ⟨.operator, 0x48, wdeep 1, by decide +kernel⟩,
    ⟨.custodian, 0x50, wheld, by decide +kernel⟩,
    ⟨.operator, 0x48, wres, by decide +kernel⟩⟩

theorem witness_TwoWireTransfers_2 :
    (∃ (c : Chan) (x : Nat) (s : State), (twChannel s x true = some c ∧ s.tw.held = none ∧ s.supply.resetHeld = none ∧
      s.supply.iohOn = true ∧ 2 < s.power.state ∧ wakeEnabled s 1 0 = true)) ∧
    (∃ (c : Chan) (x : Nat) (s : State) (u : State), (s.tw.held = none ∧ s.supply.resetHeld = none ∧ s.supply.iohOn = true ∧
      s.power.state ≤ 2 ∧ (u = (if wakeEnabled s 1 0 then settle (fireWake 1 s) else s)) ∧ twChannel s x false = some c)) ∧
    (∃ (c : Chan) (x : Nat) (s : State) (u : State) (p : Byte), (s.tw.held = none ∧ s.supply.resetHeld = none ∧ s.supply.iohOn
      = true ∧ s.power.state ≤ 2 ∧ (u = (if wakeEnabled s 1 0 then settle (fireWake 1 s) else s)) ∧ twChannel s x false = some c
      ∧ (p.toNat < 0x20 ∨ 0xE0 ≤ p.toNat))) ∧
    (∃ (c : Chan) (x : Nat) (s : State) (u : State) (p : Byte), (s.tw.held = none ∧ s.supply.resetHeld = none ∧ s.supply.iohOn
      = true ∧ s.power.state ≤ 2 ∧ (u = (if wakeEnabled s 1 0 then settle (fireWake 1 s) else s)) ∧ twChannel s x false = some c
      ∧ 0x20 ≤ p.toNat ∧ p.toNat ≤ 0x7F ∧ u.seq.running = true ∧ (chan u c).discard = false ∧ cmdLevel u c < 2048)) ∧
    (∃ (c : Chan) (x : Nat) (s : State) (u : State) (p : Byte), (s.tw.held = none ∧ s.supply.resetHeld = none ∧ s.supply.iohOn
      = true ∧ s.power.state ≤ 2 ∧ (u = (if wakeEnabled s 1 0 then settle (fireWake 1 s) else s)) ∧ twChannel s x false = some c
      ∧ 0x20 ≤ p.toNat ∧ p.toNat ≤ 0x7F ∧ u.seq.running = true ∧ ((chan u c).discard = true ∨ 2048 ≤ cmdLevel u c))) ∧
    (∃ (c : Chan) (x : Nat) (s : State) (u : State) (p : Byte), (s.tw.held = none ∧ s.supply.resetHeld = none ∧ s.supply.iohOn
      = true ∧ s.power.state ≤ 2 ∧ (u = (if wakeEnabled s 1 0 then settle (fireWake 1 s) else s)) ∧ twChannel s x false = some c
      ∧ 0x20 ≤ p.toNat ∧ p.toNat ≤ 0xDF ∧ u.seq.running = false ∧ u.seq.restarting = false)) ∧
    (∃ (c : Chan) (x : Nat) (s : State) (u : State) (p : Byte), (s.tw.held = none ∧ s.supply.resetHeld = none ∧ s.supply.iohOn
      = true ∧ s.power.state ≤ 2 ∧ (u = (if wakeEnabled s 1 0 then settle (fireWake 1 s) else s)) ∧ twChannel s x false = some c
      ∧ 0x20 ≤ p.toNat ∧ p.toNat ≤ 0xDF ∧ u.seq.running = false ∧ u.seq.restarting = true)) ∧
    (∃ (c : Chan) (x : Nat) (s : State) (u : State), (s.tw.held = none ∧ s.supply.resetHeld = none ∧ s.supply.iohOn = true ∧
      s.power.state ≤ 2 ∧ (u = (if wakeEnabled s 1 0 then settle (fireWake 1 s) else s)) ∧ twChannel s x true = some c ∧ twPtr u
      c ≠ 0x18 ∧ (twPtr u c < 0x20 ∨ 0xE0 ≤ twPtr u c ∧ twPtr u c ≤ 0xFF))) ∧
    (∃ (c : Chan) (x : Nat) (s : State) (u : State), (s.tw.held = none ∧ s.supply.resetHeld = none ∧ s.supply.iohOn = true ∧
      s.power.state ≤ 2 ∧ (u = (if wakeEnabled s 1 0 then settle (fireWake 1 s) else s)) ∧ twChannel s x true = some c ∧ twPtr u
      c = 0x18)) :=
  ⟨⟨.operator, 0x48, wdeep 1, by decide +kernel⟩,
    ⟨.operator, 0x48, w, twU w, by decide +kernel⟩,
    ⟨.custodian, 0x50, w, twU w, 0xE0, by decide +kernel⟩,
    ⟨.operator, 0x48, w, twU w, 0x7F, by decide +kernel⟩,
    ⟨.operator, 0x48, wasm (z 2048), twU (wasm (z 2048)), 0x20, by decide +kernel⟩,
    ⟨.operator, 0x48, woff, twU woff, 0xDF, by decide +kernel⟩,
    ⟨.operator, 0x48, wrst, twU wrst, 0x20, by decide +kernel⟩,
    ⟨.operator, 0x48, w, twU w, by decide +kernel⟩,
    ⟨.operator, 0x48, wtw (fun q => { q with opPtr := 0x18 }), twU (wtw (fun q => { q with opPtr := 0x18 })),
      by decide +kernel⟩⟩

theorem witness_TwoWireTransfers_3 :
    (∃ (c : Chan) (x : Nat) (s : State) (u : State), (s.tw.held = none ∧ s.supply.resetHeld = none ∧ s.supply.iohOn = true ∧
      s.power.state ≤ 2 ∧ (u = (if wakeEnabled s 1 0 then settle (fireWake 1 s) else s)) ∧ twChannel s x true = some c ∧ 0x80 ≤
      twPtr u c ∧ twPtr u c ≤ 0xDF ∧ u.seq.running = true)) ∧
    (∃ (c : Chan) (x : Nat) (s : State) (u : State), (s.tw.held = none ∧ s.supply.resetHeld = none ∧ s.supply.iohOn = true ∧
      s.power.state ≤ 2 ∧ (u = (if wakeEnabled s 1 0 then settle (fireWake 1 s) else s)) ∧ twChannel s x true = some c ∧
      u.seq.running = false ∧ u.seq.restarting = false ∧ 0x20 ≤ twPtr u c ∧ twPtr u c ≤ 0xDF)) ∧
    (∃ (c : Chan) (x : Nat) (s : State) (u : State), (s.tw.held = none ∧ s.supply.resetHeld = none ∧ s.supply.iohOn = true ∧
      s.power.state ≤ 2 ∧ (u = (if wakeEnabled s 1 0 then settle (fireWake 1 s) else s)) ∧ twChannel s x true = some c ∧
      u.seq.running = false ∧ u.seq.restarting = true ∧ 0x20 ≤ twPtr u c ∧ twPtr u c ≤ 0xDF)) ∧
    (∃ (c : Chan) (x : Nat) (s : State) (u : State), (s.tw.held = none ∧ s.supply.resetHeld = none ∧ s.supply.iohOn = true ∧
      s.power.state ≤ 2 ∧ (u = (if wakeEnabled s 1 0 then settle (fireWake 1 s) else s)) ∧ twChannel s x true = some c)) :=
  ⟨⟨.operator, 0x48, wtw (fun q => { q with opPtr := 0xDF }), twU (wtw (fun q => { q with opPtr := 0xDF })),
      by decide +kernel⟩,
    ⟨.operator, 0x48, { woff with tw := { w.tw with opPtr := 0xDF } }, twU { woff with tw := { w.tw with opPtr := 0xDF } },
      by decide +kernel⟩,
    ⟨.operator, 0x48, { wrst with tw := { w.tw with opPtr := 0x20 } }, twU { wrst with tw := { w.tw with opPtr := 0x20 } },
      by decide +kernel⟩,
    ⟨.operator, 0x48, w, twU w, by decide +kernel⟩⟩

theorem witness_TwoWireConditions_1 :
    (∃ (s : State), ((s.supply.resetHeld ≠ none ∨ s.supply.iohOn = false) ∧ s.tw.held = none)) ∧
    (∃ (s : State), (s.supply.resetHeld ≠ none ∨ s.supply.iohOn = false)) ∧
    (∃ (s : State), s.tw.held ≠ none) ∧
    (∃ (s : State) (o : _), (s.supply.resetHeld = none ∧ s.supply.iohOn = true ∧ s.tw.held = none ∧ alertAsserted s = true ∧
      alertByte s &&& o = alertByte s)) ∧
    (∃ (s : State) (o : _), (s.supply.resetHeld = none ∧ s.supply.iohOn = true ∧ s.tw.held = none ∧ alertAsserted s = true ∧
      alertByte s &&& o ≠ alertByte s)) ∧
    (∃ (s : State), (s.supply.resetHeld = none ∧ s.supply.iohOn = true ∧ s.tw.held = none ∧ alertAsserted s = false)) ∧
    (∃ (s : State) (k : _), (s.supply.resetHeld = none ∧ s.supply.iohOn = true ∧ 1 ≤ k ∧ k ≤ 3 ∧ s.seq.running = true)) ∧
    (∃ (s : State) (k : _), (s.supply.resetHeld = none ∧ s.supply.iohOn = true ∧ 1 ≤ k ∧ k ≤ 3 ∧ s.seq.running = false)) ∧
    (∃ (s : State) (a : _) (d : _), (s.supply.resetHeld = none ∧ s.supply.iohOn = true ∧ s.tw.held = none ∧ (twChannel s a
      false).isSome = true ∧ s.seq.running = false ∧ (d = 1 ∧ 2 < s.power.state ∨ d = 2 ∧ s.power.state ≤ 2))) :=
  ⟨⟨wres, by decide +kernel⟩,
    ⟨wres, by decide +kernel⟩,
    ⟨wheld, by decide +kernel⟩,
    ⟨wal, 0xFF, by decide +kernel⟩,
    ⟨wal, 0, by decide +kernel⟩,
    ⟨w, by decide +kernel⟩,
    ⟨w, 3, by decide +kernel⟩,
    ⟨woff, 1, by decide +kernel⟩,
    ⟨woff, 0x48, 2, by decide +kernel⟩⟩

theorem witness_TwoWireConditions_2 :
    (∃ (s : State) (a : _) (d : _), (s.supply.resetHeld = none ∧ s.supply.iohOn = true ∧ s.tw.held ≠ none ∧ elapsed s
      (s.tw.heldAt + usTicks 2000) = true ∧ (twChannel s a false).isSome = true ∧ s.seq.running = false ∧ (d = 1 ∧ 2 <
      s.power.state ∨ d = 2 ∧ s.power.state ≤ 2))) ∧
    (∃ (s : State) (a : _), (s.supply.resetHeld = none ∧ s.supply.iohOn = true ∧ (twChannel s a false).isSome = true ∧
      wakeEnabled s 1 0 = true ∧ 2 < s.power.state)) ∧
    (∃ (s : State), (s.supply.resetHeld = none ∧ s.supply.iohOn = true)) :=
  ⟨⟨{ woff with tw := { wheld.tw with heldAt := now w - usTicks 2000 } }, 0x48, 2, by decide +kernel⟩,
    ⟨wdeep 1, 0x50, by decide +kernel⟩,
    ⟨w, by decide +kernel⟩⟩

theorem witness_ProtocolInstants :
    (∃ (c : Chan) (s : State), (chan s c).asm ≠ []) ∧
    (∃ (c : Chan) (s : State), (chan s c).asm = []) ∧
    (∃ (c : Chan) (s : State), (∀ x xs, (chan s c).held = x :: xs → 4096 < replyLevel (chan s c) + x.bytes.length)) ∧
    (∃ (c : Chan) (s : State) (x : _) (xs : _), ((chan s c).held = x :: xs ∧ replyLevel (chan s c) + x.bytes.length ≤ 4096) ∧
      (∀ y ys, xs = y :: ys → 4096 < replyLevel (chan s c) + x.bytes.length + y.bytes.length)) ∧
    (∃ (c : Chan) (s : State) (t : _) (r : _), s.running.find? (fun q => q.hdr.ch == c && q.hdr.tag == t) = some r ∧ (∀ d,
      r.wait ≠ .domainWake d)) ∧
    (∃ (c : Chan) (s : State) (t : _), s.running.find? (fun q => q.hdr.ch == c && q.hdr.tag == t) = none) ∧
    (∃ (c : Chan) (s : State) (t : _) (r : _) (d : _), (s.running.find? (fun q => q.hdr.ch == c && q.hdr.tag == t) = some r ∧
      r.wait = .domainWake d)) ∧
    (∃ (c : Chan) (s : State) (t : _) (r : _), (s.running.find? (fun q => q.hdr.ch == c && q.hdr.tag == t) = some r ∧ r.wait =
      .delayStart)) ∧
    (∃ (c : Chan) (s : State) (t : _) (r : _), (s.running.find? (fun q => q.hdr.ch == c && q.hdr.tag == t) = some r ∧ r.wait =
      .replyDelay)) :=
  ⟨⟨.operator, wasm [1], by decide +kernel⟩,
    ⟨.operator, w, by decide +kernel⟩,
    ⟨.operator, w, fun _ _ h => nomatch h⟩,
    ⟨.operator, { w with op := { w.op with held := [⟨[1], none⟩] } }, ⟨[1], none⟩, [], by decide +kernel, fun _ _ h => nomatch
      h⟩,
    ⟨.operator, wr .boundary, 3, rn .boundary, by decide +kernel, fun _ h => nomatch h⟩,
    ⟨.operator, w, 3, by decide +kernel⟩,
    ⟨.operator, wr (.domainWake 3), 3, rn (.domainWake 3), 3, by decide +kernel⟩,
    ⟨.operator, wr .delayStart, 3, rn .delayStart, by decide +kernel⟩,
    ⟨.operator, wr .replyDelay, 3, rn .replyDelay, by decide +kernel⟩⟩

theorem witness_SequencerInstants_1 :
    (∃ (s : State), (s.seq.running = true ∧ (s.seq.expiries.filter (fun t => now s < t + 1228800000)).length ≤ 1)) ∧
    (∃ (s : State), s.seq.running = false) ∧
    (∃ (s : State), (s.running = [] ∧ s.rattle.armed = [])) ∧
    (∃ (s : State), (s.seq.running = true ∧ 2 ≤ (s.seq.expiries.filter (fun t => now s < t + 1228800000)).length)) ∧
    (∃ (s : State), (s.seq.running = true ∧ 2 ≤ (s.seq.expiries.filter (fun t => now s < t + 1228800000)).length ∧
      s.supply.resetHeld = none)) ∧
    (∃ (s : State), s.seq.restarting = true) ∧
    (∃ (s : State), s.seq.restarting = false) ∧
    (∃ (s : State) (x : _), s.seq.softReset = some x) ∧
    (∃ (s : State), s.seq.softReset = none) ∧
    (∃ (s : State) (a : _), (s.alarm = some a ∧ a.time ≤ now s ∧ a.action = 0 ∧ s.clk.bridging = false ∧ s.power.state ≤ 2)) ∧
    (∃ (s : State) (a : _), (s.alarm = some a ∧ a.action = 1 ∧ 2 < s.power.state ∧ (s.clk.bridging = true ∨ a.time ≤ now s))) :=
  ⟨⟨w, by decide +kernel⟩,
    ⟨woff, by decide +kernel⟩,
    ⟨w, by decide +kernel⟩,
    ⟨wexp, by decide +kernel⟩,
    ⟨wexp, by decide +kernel⟩,
    ⟨wseq (fun q => { q with restarting := true }), by decide +kernel⟩,
    ⟨w, by decide +kernel⟩,
    ⟨wseq (fun q => { q with softReset := some (.operator, 3) }), (.operator, 3), by decide +kernel⟩,
    ⟨w, by decide +kernel⟩,
    ⟨{ w with alarm := some ⟨61440000, 0⟩ }, ⟨61440000, 0⟩, by decide +kernel⟩,
    ⟨{ wdeep 0 with alarm := some ⟨61440000, 1⟩ }, ⟨61440000, 1⟩, by decide +kernel⟩⟩

theorem witness_SequencerInstants_2 :
    ∃ (s : State), s.power.state ≤ 2 ∧ (s.clk.bridging = true ∨ s.alarm = none ∨ (∃ a, s.alarm = some a ∧ now s < a.time)) :=
  ⟨w, by decide +kernel, .inr (.inl rfl)⟩

theorem witness_ResetKinds_1 :
    (∃ (s : State), s.supply.resetHeld = none) ∧
    (∃ (s : State) (r : _), (s.supply.resetHeld = none ∧ (r = 1 ∨ r = 3 ∨ (r = 2 ∧ s.supply.rfArmed = true)))) ∧
    (∃ (s : State) (r : _), (s.supply.resetHeld = none ∧ (r = 0 ∨ 3 < r ∨ (r = 2 ∧ s.supply.rfArmed = false)))) ∧
    (∃ (s : State) (o : _), (s.supply.resetHeld = none ∧ o % 8 ≠ 0)) ∧
    (∃ (s : State), (s.supply.resetHeld = none ∧ (s.supply.booting = false ∨ s.clk.pllLocked = false ∨ s.front.romFail =
      true))) ∧
    (∃ (s : State), (s.supply.resetHeld = none ∧ s.supply.booting = true ∧ s.clk.pllLocked = true ∧ s.front.romFail = false ∧
      s.age.plan = none ∧ 2 ≤ s.front.bootMode)) ∧
    (∃ (s : State), (s.supply.resetHeld = none ∧ s.supply.booting = true ∧ s.clk.pllLocked = true ∧ s.front.romFail = false ∧
      s.age.plan = none)) :=
  ⟨⟨w, by decide +kernel⟩,
    ⟨wsup (fun q => { q with rfArmed := true }), 2, by decide +kernel⟩,
    ⟨w, 0, by decide +kernel⟩,
    ⟨w, 9, by decide +kernel⟩,
    ⟨w, by decide +kernel⟩,
    ⟨wmode 2, by decide +kernel⟩,
    ⟨wboot, by decide +kernel⟩⟩

theorem witness_ResetKinds_2 :
    ∃ (s : State) (l : List TopRead) (p : Plan), s.supply.resetHeld = none ∧ s.supply.booting = true ∧ s.clk.pllLocked = true
      ∧ s.front.romFail = false ∧ s.age.plan = none ∧ s.front.bootMode ≤ 1 ∧ (bootPlan l s).age.plan = some p ∧ biasNow
      (bootPlan l s) = p.biasTo ∧ vselNow (bootPlan l s) = p.vselTo :=
  boot_case

theorem witness_PowerEntry :
    (∃ (s : State), s.power.entry = none) ∧
    (∃ (s : State) (d : Nat) (e : _), (s.power.entry = some e ∧ e.ask.head? = some d ∧ entryDone d s = true ∧ nextAsked
      (e.ask.drop 1) (stopDomain d s) = [])) ∧
    (∃ (s : State) (d : Nat) (e : _) (f : _) (n : _) (l : _), s.power.entry = some e ∧ f = (stopDomain d s).power.entry.getD e
      ∧ (e.ask.head? = some d ∧ entryDone d s = true ∧ nextAsked (e.ask.drop 1) (stopDomain d s) = n :: l ∧ f.abort = true)) ∧
    (∃ (s : State) (d : Nat) (e : _) (u : List Nat → State) (f : _) (n : _) (l : _), s.power.entry = some e ∧ u = (fun (l :
      List Nat) =>
      { stopDomain d s with power := { (stopDomain d s).power with entry := some { (stopDomain d s).power.entry.getD e with ask := l, askedAt := now (stopDomain d s), stopped := d :: e.stopped } } })
      ∧ f = (stopDomain d s).power.entry.getD e ∧ (e.ask.head? = some d ∧ entryDone d s = true ∧ nextAsked (e.ask.drop 1)
      (stopDomain d s) = n :: l ∧ f.abort = false ∧ refusalOf (u (n :: l)) n = 0)) ∧
    (∃ (s : State) (d : Nat) (e : _) (u : List Nat → State) (f : _) (n : _) (l : _), s.power.entry = some e ∧ u = (fun (l :
      List Nat) =>
      { stopDomain d s with power := { (stopDomain d s).power with entry := some { (stopDomain d s).power.entry.getD e with ask := l, askedAt := now (stopDomain d s), stopped := d :: e.stopped } } })
      ∧ f = (stopDomain d s).power.entry.getD e ∧ (e.ask.head? = some d ∧ entryDone d s = true ∧ nextAsked (e.ask.drop 1)
      (stopDomain d s) = n :: l ∧ f.abort = false ∧ refusalOf (u (n :: l)) n ≠ 0)) ∧
    (∃ (s : State) (d : Nat) (e : _), (s.power.entry = some e ∧ (e.ask.head? ≠ some d ∨ entryDone d s = false))) ∧
    (∃ (s : State) (d : Nat) (e : _), (s.power.entry = some e ∧ (e.ask.head? ≠ some d ∨ elapsed s (e.askedAt + msTicks
      (delayMs d)) = false))) ∧
    (∃ (s : State) (d : Nat) (e : _), (s.power.entry = some e ∧ e.ask.head? = some d ∧ elapsed s (e.askedAt + msTicks (delayMs
      d)) = true)) ∧
    (∃ (s : State) (e : _), (s.power.entry = some e ∧ e.abort = true)) ∧
    (∃ (s : State) (e : _), (s.power.entry = some e ∧ e.abort = false)) :=
  ⟨⟨w, by decide +kernel⟩,
    ⟨we (ent [8]), 8, ent [8], by decide +kernel⟩,
    ⟨went [8, 3] true, 8, { ent [8, 3] with abort := true }, _, 3, [], by decide +kernel, rfl, by decide +kernel⟩,
    ⟨we (ent [8, 3]), 8, ent [8, 3], _, _, 3, [], by decide +kernel, rfl, rfl, by decide +kernel⟩,
    ⟨{ we (ent [8, 3]) with power := { (we (ent [8, 3])).power with held := 8 } }, 8, ent [8, 3], _, _, 3, [],
      by decide +kernel, rfl, rfl, by decide +kernel⟩,
    ⟨we (ent [8]), 3, ent [8], by decide +kernel⟩,
    ⟨we (ent [8]), 3, ent [8], by decide +kernel⟩,
    ⟨we (ent [8]), 8, ent [8], by decide +kernel⟩,
    ⟨we { ent [8] with abort := true }, { ent [8] with abort := true }, by decide +kernel⟩,
    ⟨we (ent [8]), ent [8], by decide +kernel⟩⟩

theorem witness_PowerInstants_1 :
    (∃ (s : State) (d : _), (mayGate s d = true ∧ 2 * parGet s P.pwrIdleDelay ≤ smGet 0 s.power.idle d ∧ s.power.entry =
      none)) ∧
    (∃ (s : State) (d : _), (mayGate s d = false ∨ smGet 0 s.power.idle d < 2 * parGet s P.pwrIdleDelay ∨ (∃ e, s.power.entry
      = some e ∧ e.ask.contains d = true))) ∧
    (∃ (s : State) (d : _), (s.power.coming.contains d = true ∧ domAllowed s.power.state d = true) ∧ (∀ r ∈ s.running, ∀ e,
      r.wait ≠ .domainWake e)) ∧
    (∃ (s : State) (d : _) (r : _), (s.power.coming.contains d = true ∧ domAllowed s.power.state d = true ∧ r ∈ s.running) ∧
      (∃ e, r.wait = .domainWake e) ∧ ((progOf r.cmd).needs s).contains d = true) ∧
    (∃ (s : State) (d : _) (v : _) (stalled : _), (s.power.coming.contains d = true ∧ elapsed s (smGet 0 s.power.comingAt d +
      usTicks (wakeUs d)) = true) ∧ v =
      { s with power := { s.power with coming := s.power.coming.filter (fun e => e != d), comingAt := smErase s.power.comingAt d } }
      ∧ stalled = s.running.filter
      (fun r => match r.wait with | .domainWake _ => ((progOf r.cmd).needs v).contains d | _ => false) ∧ stalled = []) ∧
    (∃ (s : State) (d : _) (v : _) (stalled : _), (s.power.coming.contains d = true ∧ elapsed s (smGet 0 s.power.comingAt d +
      usTicks (wakeUs d)) = true) ∧ v =
      { s with power := { s.power with coming := s.power.coming.filter (fun e => e != d), comingAt := smErase s.power.comingAt d } }
      ∧ stalled = s.running.filter
      (fun r => match r.wait with | .domainWake _ => ((progOf r.cmd).needs v).contains d | _ => false) ∧ stalled ≠ []) ∧
    (∃ (s : State) (d : _), s.power.coming.contains d = false) ∧
    (∃ (s : State) (d : _), (s.power.coming.contains d = false ∨ domAllowed s.power.state d = false)) ∧
    (∃ (s : State) (n : _) (p : _), (n ≤ 2 ∧ wakeEnabled s n p = true ∧ 2 < s.power.state)) :=
  ⟨⟨wpow (fun q => { q with idle := [(10, 65535 * 65535)] }), 10, by decide +kernel⟩,
    ⟨w, 0, .inl (by decide +kernel)⟩,
    ⟨wpow (fun q => { q with coming := [3] }), 3, by decide +kernel, fun _ h => nomatch h⟩,
    ⟨{ wpow (fun q => { q with coming := [3] }) with running := [wdom] }, 3, wdom, by decide +kernel, ⟨3, rfl⟩,
      by decide +kernel⟩,
    ⟨wpow (fun q => { q with coming := [3] }), 3, _, _, by decide +kernel, rfl, rfl, by decide +kernel⟩,
    ⟨{ wpow (fun q => { q with coming := [3] }) with running := [wdom] }, 3, _, _, by decide +kernel, rfl, rfl,
      by decide +kernel⟩,
    ⟨w, 3, by decide +kernel⟩,
    ⟨w, 3, by decide +kernel⟩,
    ⟨{ wsleep with par := [(P.pwrWakeCfg17, 1)] }, 1, 0, by decide +kernel⟩⟩

theorem witness_PowerInstants_2 :
    (∃ (s : State) (n : _) (p : _) (e : _), (n ≤ 2 ∧ wakeEnabled s n p = true ∧ s.power.state ≤ 2 ∧ s.power.entry = some e ∧ 2
      < e.target ∧ e.ask.head? = some Dom.seq)) ∧
    (∃ (s : State) (n : _) (p : _) (e : _), (n ≤ 2 ∧ wakeEnabled s n p = true ∧ s.power.state ≤ 2 ∧ s.power.entry = some e ∧ 2
      < e.target ∧ e.ask.head? ≠ some Dom.seq)) ∧
    (∃ (s : State) (n : _) (p : _), wakeEnabled s n p = false) ∧
    (∃ (s : State) (n : _), (s.supply.iohOn = false ∧ n ≤ 2)) ∧
    (∃ (s : State), (2 < s.power.state ∧ s.power.waking = true ∧ s.clk.pllLocked = true)) ∧
    (∃ (s : State), (s.power.state ≤ 2 ∨ s.power.waking = false ∨ s.clk.pllLocked = false)) :=
  ⟨⟨{ we { ent [1] with target := 3 } with par := [(P.pwrWakeCfg17, 1)] }, 1, 0, { ent [1] with target := 3 },
      by decide +kernel⟩,
    ⟨{ we { ent [8, 1] with target := 4 } with par := [(P.pwrWakeCfg17, 1)] }, 1, 0, { ent [8, 1] with target := 4 },
      by decide +kernel⟩,
    ⟨w, 7, 0, by decide +kernel⟩,
    ⟨wiob, 2, by decide +kernel⟩,
    ⟨{ wsleep with power := { wsleep.power with waking := true } }, by decide +kernel⟩,
    ⟨w, by decide +kernel⟩⟩

theorem witness_SupplyInstants_1 :
    (∃ (s : State) (r : _), (r ≤ 2 ∧ (r = 1 → s.supply.rfArmed = true) ∧ s.supply.resetHeld = none ∧ s.power.state ≤ 2 ∧
      s.supply.brown = false)) ∧
    (∃ (s : State) (r : _), ((r = 0 ∨ r = 2) ∧ s.supply.resetHeld = none ∧ s.power.state ≤ 2 ∧ s.supply.brown = true)) ∧
    (∃ (s : State), (s.supply.resetHeld = none ∧ 2 < s.power.state)) ∧
    (∃ (s : State) (r : _), (2 < r ∨ (r = 1 ∧ s.supply.rfArmed = false) ∨ s.supply.resetHeld ≠ none ∨ (2 < s.power.state ∧ r ≠
      2))) ∧
    (∃ (s : State), (s.supply.brown = true ∧ elapsed s (s.supply.lowAt + msTicks 1) = true)) ∧
    (∃ (s : State), (s.supply.brown = false ∧ elapsed s (s.supply.lowAt + msTicks 1) = true)) ∧
    (∃ (s : State), elapsed s (s.supply.lowAt + msTicks 1) = false) :=
  ⟨⟨w, 0, by decide +kernel⟩,
    ⟨wsup (fun q => { q with brown := true }), 2, by decide +kernel⟩,
    ⟨wsleep, by decide +kernel⟩,
    ⟨w, 3, by decide +kernel⟩,
    ⟨wsup (fun q => { q with brown := true }), by decide +kernel⟩,
    ⟨w, by decide +kernel⟩,
    ⟨wsup (fun q => { q with brown := true, lowAt := now w }), by decide +kernel⟩⟩

theorem witness_SupplyInstants_2 :
    (∃ (s : State), (s.supply.deferral = true ∧ elapsed s (s.supply.lowAt + msTicks 1) = true)) ∧
    (∃ (s : State), s.supply.deferral = false) ∧
    (∃ (r : _), (3 ≤ r ∧ r ≤ 9)) ∧
    (∃ (s : State), (s.supply.up.getLsbD 0 = true ∧ s.supply.ioaOn = false)) :=
  ⟨⟨wsup (fun q => { q with deferral := true }), by decide +kernel⟩,
    ⟨w, by decide +kernel⟩,
    ⟨3, by decide +kernel⟩,
    ⟨wsup (fun q => { q with ioaOn := false }), by decide +kernel⟩⟩

theorem witness_ClockInstants_1 :
    (∃ (s : State), ((s.supply.resetHeld = none ∨ s.clk.xtalHeld = true) ∧ (s.power.state ≠ 4 ∨ s.power.waking = true))) ∧
    (∃ (s : State), ((s.supply.resetHeld ≠ none ∧ s.clk.xtalHeld = false) ∨ (s.power.state = 4 ∧ s.power.waking = false))) ∧
    (∃ (s : State), (s.clk.xtalMeant = true ∧ s.clk.xtalHeld = false ∧ s.supply.resetHeld = none)) :=
  ⟨⟨w, by decide +kernel⟩,
    ⟨wres, by decide +kernel⟩,
    ⟨w, by decide +kernel⟩⟩

theorem witness_ClockInstants_2 :
    (∃ (s : State), (s.clk.xtalMeant = true ∧ s.clk.xtalHeld = false ∧ s.supply.resetHeld = none)) ∧
    (∃ (s : State), (s.clk.xtalMeant = true ∧ s.clk.xtalHeld = true ∧ s.clk.xtalQual = true)) ∧
    (∃ (s : State), (s.clk.xtalMeant = false ∨ (s.clk.xtalHeld = true ∧ s.clk.xtalQual = false) ∨ (s.clk.xtalHeld = false ∧
      s.supply.resetHeld ≠ none))) ∧
    (∃ (s : State), (s.clk.xtalHeld = true ∧ s.clk.xtalQual = true)) ∧
    (∃ (s : State), (s.clk.xtalHeld = false ∨ s.clk.xtalQual = false)) ∧
    (∃ (s : State), s.clk.lfCrystal = true) ∧
    (∃ (s : State), s.clk.lfCrystal = false) :=
  ⟨⟨w, by decide +kernel⟩,
    ⟨wx id, by decide +kernel⟩,
    ⟨wclk (fun q => { q with xtalMeant := false }), by decide +kernel⟩,
    ⟨wx id, by decide +kernel⟩,
    ⟨w, by decide +kernel⟩,
    ⟨wclk (fun q => { q with lfCrystal := true }), by decide +kernel⟩,
    ⟨w, by decide +kernel⟩⟩

theorem witness_ClockInstants_3 :
    (∃ (s : State) (c : _), (s.clk.xtalQual = true ∧ s.clk.pllLocked = false ∧ s.supply.resetHeld = none ∧ (s.power.state ≤ 2
      ∨ s.power.waking = true) ∧ (lockVerdict 0 false c s).1 = true)) ∧
    (∃ (s : State) (c : _), (s.clk.xtalQual = true ∧ s.clk.pllLocked = false ∧ s.supply.resetHeld = none ∧ (s.power.state ≤ 2
      ∨ s.power.waking = true) ∧ (lockVerdict 0 false c s).1 = false)) ∧
    (∃ (s : State), s.rattle.armed = []) ∧
    (∃ (s : State), s.clk.bridging = true) ∧
    (∃ (s : State), (s.clk.xtalQual = false ∨ s.clk.pllLocked = true ∨ s.supply.resetHeld ≠ none ∨ (2 < s.power.state ∧
      s.power.waking = false))) ∧
    (∃ (s : State), s.clk.pllLocked = true) ∧
    (∃ (s : State), s.clk.pllLocked = false) :=
  ⟨⟨wnl id, true, by decide +kernel⟩,
    ⟨wnl id, false, by decide +kernel⟩,
    ⟨w, by decide +kernel⟩,
    ⟨wclk (fun q => { q with bridging := true }), by decide +kernel⟩,
    ⟨wnl (fun q => { q with xtalQual := false }), by decide +kernel⟩,
    ⟨w, by decide +kernel⟩,
    ⟨wclk (fun q => { q with pllLocked := false }), by decide +kernel⟩⟩

theorem witness_ReferenceInstants_1 :
    (∃ (s : State), (refMode s ≠ 0 ∧ s.clk.refState ≠ 2 ∧ s.clk.refState ≠ 3)) ∧
    (∃ (s : State), (refMode s = 0 ∨ s.clk.refState = 2 ∨ s.clk.refState = 3)) ∧
    (∃ (s : State), s.clk.refState = 2) ∧
    (∃ (s : State), s.clk.refState ≠ 2) ∧
    (∃ (s : State), (s.clk.refState = 2 ∨ s.clk.refState = 3)) ∧
    (∃ (s : State), (s.clk.refState ≠ 2 ∧ s.clk.refState ≠ 3)) ∧
    (∃ (n : _) (c : _), (0 ≤ n ∧ -200000 ≤ c ∧ c ≤ 200000)) :=
  ⟨⟨wpar [(P.clkRefMode, 1)], by decide +kernel⟩,
    ⟨w, by decide +kernel⟩,
    ⟨wrefs 2 0, by decide +kernel⟩,
    ⟨w, by decide +kernel⟩,
    ⟨wrefs 2 0, by decide +kernel⟩,
    ⟨w, by decide +kernel⟩,
    ⟨5, 200000, by decide +kernel⟩⟩

theorem witness_ReferenceInstants_2 :
    (∃ (n : _) (c : _), (0 ≤ n ∧ -200000 ≤ c ∧ c ≤ 200000)) ∧
    (∃ (n : _) (g : _) (c : _), (0 ≤ n ∧ -200000 ≤ c ∧ c ≤ 200000 ∧ |g - c| ≤ n ∧ -200000 ≤ g ∧ g ≤ 200000)) ∧
    (∃ (s : State), s.clk.refState = 4) ∧
    (∃ (s : State), s.clk.refState ≠ 4) ∧
    (∃ (s : State), (s.clk.refState = 5 ∧ s.clk.refCorr = 0)) ∧
    (∃ (s : State), (s.clk.refState ≠ 5 ∨ s.clk.refCorr ≠ 0)) ∧
    (∃ (s : State) (p : _), p = parGet s P.clkSyncPeriodLo + 2 ^ 32 * parGet s P.clkSyncPeriodHi ∧ (parGet s P.clkSyncArm = 1
      ∧ parGet s P.clkSyncRole = 1 ∧ s.clk.pllLocked = true ∧ now s = p * 61440)) ∧
    (∃ (s : State), (parGet s P.clkSyncArm = 1 ∧ parGet s P.clkSyncRole = 2 ∧ s.clk.pllLocked = true)) :=
  ⟨⟨0, -200000, by decide +kernel⟩,
    ⟨5, -200000, -199995, by decide +kernel⟩,
    ⟨wclk (fun q => { q with refState := 4 }), by decide +kernel⟩,
    ⟨w, by decide +kernel⟩,
    ⟨wrefs 5 0, by decide +kernel⟩,
    ⟨w, by decide +kernel⟩,
    ⟨wpar [(P.clkSyncRole, 1), (P.clkSyncArm, 1), (P.clkSyncPeriodLo, 1000)], _, rfl, by decide +kernel⟩,
    ⟨wpar [(P.clkSyncRole, 2), (P.clkSyncArm, 1)], by decide +kernel⟩⟩

theorem witness_ReferenceInstants_3 :
    (∃ (s : State) (p : _), p = parGet s P.clkSyncPeriodLo + 2 ^ 32 * parGet s P.clkSyncPeriodHi ∧ (parGet s P.clkSyncArm ≠ 1
      ∨ parGet s P.clkSyncRole = 0 ∨ s.clk.pllLocked = false ∨ (parGet s P.clkSyncRole = 1 ∧ now s ≠ p * 61440))) ∧
    (∃ (s : State) (e : _), (parGet s P.clkSyncArm = 2 ∧ parGet s P.clkSyncRole = 2 ∧ -4 ≤ e ∧ e ≤ 4)) ∧
    (∃ (s : State) (e : _), (parGet s P.clkSyncArm = 2 ∧ parGet s P.clkSyncRole = 2 ∧ (e < -4 ∨ 4 < e))) ∧
    (∃ (s : State), (parGet s P.clkSyncArm ≠ 2 ∨ parGet s P.clkSyncRole ≠ 2)) :=
  ⟨⟨w, _, rfl, by decide +kernel⟩,
    ⟨wpar [(P.clkSyncRole, 2), (P.clkSyncArm, 2)], -4, by decide +kernel⟩,
    ⟨wpar [(P.clkSyncRole, 2), (P.clkSyncArm, 2)], -5, by decide +kernel⟩,
    ⟨w, by decide +kernel⟩⟩

theorem witness_SynthInstants_1 :
    (∃ (s : State) (id : _) (c : _), (synthAble id s = true ∧ (synth s id).phase = .searching ∧ (lockVerdict id false c s).1 =
      true)) ∧
    (∃ (s : State) (id : _) (c : _), (synthAble id s = true ∧ (synth s id).phase = .searching ∧ (lockVerdict id false c s).1 =
      false)) ∧
    (∃ (s : State) (id : _) (c : _), (synthAble id s = true ∧ (synth s id).phase = .retrying ∧ (lockVerdict id true c s).1 =
      true)) ∧
    (∃ (s : State) (id : _) (c : _), (synthAble id s = true ∧ (synth s id).phase = .retrying ∧ (lockVerdict id true c s).1 =
      false)) ∧
    (∃ (s : State), s.rattle.armed = []) ∧
    (∃ (s : State) (id : _), (synthAble id s = false ∨ ((synth s id).phase ≠ .searching ∧ (synth s id).phase ≠ .retrying))) ∧
    (∃ (s : State), locked s 2 = true) :=
  ⟨⟨wsyn 1 .searching, 1, true, by decide +kernel⟩,
    ⟨wsyn 2 .searching, 2, false, by decide +kernel⟩,
    ⟨wsyn 1 .retrying, 1, true, by decide +kernel⟩,
    ⟨wsyn 2 .retrying, 2, false, by decide +kernel⟩,
    ⟨w, by decide +kernel⟩,
    ⟨w, 0, by decide +kernel⟩,
    ⟨w, by decide +kernel⟩⟩

theorem witness_SynthInstants_2 :
    (∃ (s : State), locked s 3 = true) ∧
    (∃ (s : State), locked s 1 = true) ∧
    (∃ (s : State) (id : _), (locked s id = false ∨ id = 0 ∨ 3 < id)) ∧
    (∃ (s : State) (id : _) (u : _), (1 ≤ id ∧ id ≤ 3 ∧ (synth s id).phase = .calibrating) ∧ u = onSynth id (fun y =>
      { y with calDue := false, phase := .off }) s ∧ ((synth s id).freq ≠ 0 ∧ domOn u (synthDomain id) = true)) ∧
    (∃ (s : State) (id : _) (u : _), (1 ≤ id ∧ id ≤ 3 ∧ (synth s id).phase = .calibrating) ∧ u = onSynth id (fun y =>
      { y with calDue := false, phase := .off }) s ∧ ((synth s id).freq = 0 ∨ domOn u (synthDomain id) = false)) ∧
    (∃ (s : State) (id : _), (id = 0 ∨ 3 < id ∨ (synth s id).phase ≠ .calibrating)) :=
  ⟨⟨w, by decide +kernel⟩,
    ⟨w, by decide +kernel⟩,
    ⟨w, 0, by decide +kernel⟩,
    ⟨wsyn 1 .calibrating, 1, _, by decide +kernel, rfl, by decide +kernel⟩,
    ⟨onSynth 2 (fun y => { y with freq := 0 }) (wsyn 2 .calibrating), 2, _, by decide +kernel, rfl, by decide +kernel⟩,
    ⟨w, 0, by decide +kernel⟩⟩

theorem witness_SynthInstants_3 :
    (∃ (s : State), s.tx.qcal = true) ∧
    (∃ (s : State), s.tx.qcal = false) ∧
    (∃ (s : State), s.seq.running = false) ∧
    (∃ (s : State) (t : _), (s.seq.running = true ∧ (|t - s.clk.calRef.getD t| < 80 ∨ s.clk.calDeferred = true))) ∧
    (∃ (s : State) (t : _), (s.seq.running = true ∧ 80 ≤ |t - s.clk.calRef.getD t| ∧ s.clk.calDeferred = false)) :=
  ⟨⟨{ w with tx := { w.tx with qcal := true } }, by decide +kernel⟩,
    ⟨w, by decide +kernel⟩,
    ⟨woff, by decide +kernel⟩,
    ⟨w, 329, by decide +kernel⟩,
    ⟨wclk (fun q => { q with calRef := some 0 }), 80, by decide +kernel⟩⟩

theorem witness_RfInstants_1 :
    (∃ (s : State), (s.rf.imageCal = 1 ∧ s.rf.fastUntil ≤ now s)) ∧
    (∃ (s : State), (s.rf.imageCal ≠ 1 ∨ now s < s.rf.fastUntil)) ∧
    (∃ (s : State) (i : _), (i < 55 ∧ s.rf.imageCal ≠ 1 ∧ 2000 ≤ s.rf.a.below ∧ s.rf.a.irrAlarmed = false)) ∧
    (∃ (s : State) (i : _), (i < 55 ∧ s.rf.imageCal ≠ 1 ∧ 2000 ≤ s.rf.b.below ∧ s.rf.b.irrAlarmed = false)) ∧
    (∃ (s : State) (a : _) (i : _), (1 < a ∨ 55 ≤ i ∨ s.rf.imageCal = 1 ∨ (chain a s).below < 2000 ∨ (chain a s).irrAlarmed =
      true)) ∧
    (∃ (s : State) (n : _) (i : _) (t : _), (privOf s n = some i ∧ measured s = some n ∧ s.rf.toneAt = some t ∧ t + 122880 ≤
      now s)) ∧
    (∃ (s : State) (n : _), (privOf s n = none ∨ measured s ≠ some n ∨ (∀ t, s.rf.toneAt = some t → now s < t + 122880))) :=
  ⟨⟨{ w with rf := { w.rf with imageCal := 1, fastUntil := now w } }, by decide +kernel⟩,
    ⟨w, by decide +kernel⟩,
    ⟨{ w with rf := { w.rf with imageCal := 2, a := { w.rf.a with below := 2000 } } }, 54, by decide +kernel⟩,
    ⟨{ w with rf := { w.rf with imageCal := 2, b := { w.rf.b with below := 2000 } } }, 54, by decide +kernel⟩,
    ⟨w, 2, 0, by decide +kernel⟩,
    ⟨{ wpriv with rf := { wpriv.rf with toneAt := some (now w - 122880) } }, 2, 0, now w - 122880, by decide +kernel⟩,
    ⟨w, 2, .inl (by decide +kernel)⟩⟩

theorem witness_RfInstants_2 :
    (∃ (s : State) (n : _), (privOf s n = none ∨ measured s ≠ some n ∨ (∀ t, s.rf.toneAt = some t → now s < t + 122880))) ∧
    (∃ (s : State) (sc : _), (s.rf.scan = some sc ∧ locked s 1 = true ∧ parGet s P.clkRampProfile ≠ 1 ∧ sc.f ≤ sc.stop ∧
      sc.began + usTicks (parGet s P.clkRampDwell) ≤ now s ∧ sc.stop < sc.f + 16 * sc.step)) ∧
    (∃ (s : State) (sc : _), (s.rf.scan = some sc ∧ locked s 1 = true ∧ parGet s P.clkRampProfile ≠ 1 ∧ sc.f ≤ sc.stop ∧
      sc.began + usTicks (parGet s P.clkRampDwell) ≤ now s ∧ sc.f + 16 * sc.step ≤ sc.stop)) ∧
    (∃ (s : State) (sc : _), (s.rf.scan = some sc ∧ locked s 1 = true ∧ parGet s P.clkRampProfile = 1)) ∧
    (∃ (s : State), (s.rf.scan = none ∨ locked s 1 = false)) ∧
    (∃ (s : State) (sc : _), (s.rf.scan = some sc ∧ parGet s P.clkRampProfile ≠ 1 ∧ (sc.stop < sc.f ∨ now s < sc.began +
      usTicks (parGet s P.clkRampDwell)))) ∧
    (∃ (s : State) (sc : _), (s.rf.scan = some sc ∧ (if parGet s P.clkRampProfile = 1 then travelled sc s (sc.stop - sc.start)
      = true else sc.stop < sc.f) ∧ sc.passes = sc.done + 1)) ∧
    (∃ (s : State) (sc : _), (s.rf.scan = some sc ∧ (if parGet s P.clkRampProfile = 1 then travelled sc s (sc.stop - sc.start)
      = true else sc.stop < sc.f) ∧ sc.passes ≠ sc.done + 1)) :=
  ⟨⟨{ wpriv with rf := { wpriv.rf with priv := { PrivRec.reset with link := some 2 } :: List.replicate 7 PrivRec.reset } },
      2, .inr (.inl (by decide +kernel))⟩,
    ⟨wscan (fun q => { q with f := 479000000 }), { sc0 with f := 479000000 }, by decide +kernel⟩,
    ⟨wscan id, sc0, by decide +kernel⟩,
    ⟨{ wscan id with par := [(P.clkRampProfile, 1)] }, sc0, by decide +kernel⟩,
    ⟨w, by decide +kernel⟩,
    ⟨wscan (fun q => { q with f := 480000001 }), { sc0 with f := 480000001 }, by decide +kernel⟩,
    ⟨wscan (fun q => { q with f := 480000001 }), { sc0 with f := 480000001 }, by decide +kernel⟩,
    ⟨wscan (fun q => { q with f := 480000001, passes := 0 }), { sc0 with f := 480000001, passes := 0 }, by decide +kernel⟩⟩

theorem witness_RfInstants_3 :
    (∃ (s : State) (sc : _), (s.rf.scan = some sc ∧ (if parGet s P.clkRampProfile = 1 then travelled sc s (sc.stop - sc.start)
      = false else sc.f ≤ sc.stop))) ∧
    (∃ (s : State), s.rf.scan = none) :=
  ⟨⟨wscan id, sc0, by decide +kernel⟩,
    ⟨w, by decide +kernel⟩⟩

theorem witness_LinkDetections_1 :
    (∃ (n : Nat) (k : Nat) (s : State), (laneRuns s n = false ∨ 1 < k)) ∧
    (∃ (n : Nat) (a : Window) (b : Window) (s : State), (preambleFires (link s n).range a b = none ∨ preambleLevel (max
      a.power b.power) = false)) ∧
    (∃ (n : Nat) (a : Window) (b : Window) (s : State) (i : _), syncFires (link s n).range i a b = false) ∧
    (∃ (n : Nat) (k : Nat) (a : Window) (b : Window) (s : State) (df : _) (tau : _), (laneRuns s n = true ∧ k ≤ 1 ∧
      preambleFires (link s n).range a b = some (df, tau) ∧ preambleLevel (max a.power b.power) = true)) ∧
    (∃ (n : Nat) (k : Nat) (a : Window) (b : Window) (s : State) (i : _), (laneRuns s n = true ∧ k ≤ 1 ∧ syncFires (link s
      n).range i a b = true ∧ (trk (link s n) k).phase ≠ .pre)) ∧
    (∃ (n : Nat) (k : Nat) (a : Window) (b : Window) (s : State) (i : _), (laneRuns s n = true ∧ k ≤ 1 ∧ syncFires (link s
      n).range i a b = true ∧ (trk (link s n) k).phase = .pre)) ∧
    (∃ (n : Nat) (k : Nat) (s : State) (t : Tracker), (laneRuns s n = true ∧ k ≤ 1 ∧ barred (period s) (link s n) t.start t.df
      = false ∧ (trk (link s n) k).phase = .search)) ∧
    (∃ (n : Nat) (k : Nat) (s : State) (t : Tracker), (laneRuns s n = true ∧ k ≤ 1 ∧ barred (period s) (link s n) t.start t.df
      = false ∧ (trk (link s n) k).phase = .watch ∧ reaches t.level (trk (link s n) (1 - k)).level (parNow s (P.linkCapture n))
      = true ∧ parNow s (P.linkCapture8 n) ≠ 1)) :=
  ⟨⟨2, 2, wl, by decide +kernel⟩,
    ⟨2, heard [] 0, heard [] 0, wl, by decide +kernel⟩,
    ⟨2, wsync, wsync, wl, 11, by decide +kernel⟩,
    ⟨2, 1, wpre, wpre, wl, preambleOffset false wpre.z, preambleTiming false wpre.z, by decide +kernel⟩,
    ⟨2, 1, wsync, wsync, wl, 5, by decide +kernel⟩,
    ⟨2, 0, wsync, wsync, wpreAt 0, 5, by decide +kernel⟩,
    ⟨2, 0, wt .search .idle, tk 0, by decide +kernel⟩,
    ⟨2, 1, wt .active .watch, tk (10 ^ 9), by decide +kernel⟩⟩

theorem witness_LinkDetections_2 :
    (∃ (n : Nat) (k : Nat) (s : State) (t : Tracker), (laneRuns s n = true ∧ k ≤ 1 ∧ barred (period s) (link s n) t.start t.df
      = false ∧ (trk (link s n) k).phase = .watch ∧ reaches t.level (trk (link s n) (1 - k)).level (parNow s (P.linkCapture n))
      = true ∧ parNow s (P.linkCapture8 n) = 1)) ∧
    (∃ (n : Nat) (k : Nat) (s : State) (t : Tracker), (laneRuns s n = true ∧ k ≤ 1 ∧ barred (period s) (link s n) t.start t.df
      = false ∧ (trk (link s n) k).phase = .watch ∧ reaches t.level (trk (link s n) (1 - k)).level (parNow s (P.linkCapture n))
      = false)) ∧
    (∃ (n : Nat) (k : Nat) (s : State) (t : Tracker), (laneRuns s n = true ∧ k ≤ 1 ∧ barred (period s) (link s n) t.start t.df
      = false ∧ (trk (link s n) k).phase ≠ .search ∧ (trk (link s n) k).phase ≠ .watch)) ∧
    (∃ (n : Nat) (k : Nat) (s : State), (laneRuns s n = true ∧ k ≤ 1)) ∧
    (∃ (n : Nat) (k : Nat) (s : State) (t : Tracker), (laneRuns s n = true ∧ k ≤ 1 ∧ barred (period s) (link s n) t.start t.df
      = true)) ∧
    (∃ (n : Nat) (k : Nat) (s : State), (laneRuns s n = true ∧ k ≤ 1 ∧ (trk (link s n) k).phase = .pre ∧ (trk (link s n)
      k).cand + 20480 ≤ now s)) ∧
    (∃ (n : Nat) (k : Nat) (s : State), (1 < k ∨ (trk (link s n) k).phase ≠ .pre ∨ now s < (trk (link s n) k).cand + 20480)) :=
  ⟨⟨2, 1, wt8 1, tk (10 ^ 9), by decide +kernel⟩,
    ⟨2, 1, wt .active .watch, tk (10 ^ 7), by decide +kernel⟩,
    ⟨2, 0, wt .pre .idle, tk 0, by decide +kernel⟩,
    ⟨2, 0, wl, by decide +kernel⟩,
    ⟨2, 0, wbar, tk 0, by decide +kernel⟩,
    ⟨2, 0, wpreAt (now w - 20480), by decide +kernel⟩,
    ⟨2, 2, wl, by decide +kernel⟩⟩

theorem witness_LinkFrames_1 :
    (∃ (n : Nat) (f : RxFrame) (s : State), (laneRuns s n = false ∨ 1 < f.tracker)) ∧
    (∃ (n : Nat) (f : RxFrame) (s : State) (k : _) (r : _) (t : _) (g : _) (l : _) (q : _) (x : _) (c : _), (laneRuns s n =
      true ∧ f.tracker ≤ 1) ∧ k = f.tracker ∧ (r = if (link s n).tie.any (fun v => v.trk == k) then settleTie n s else s) ∧ t =
      (fillBuffers n f r).1 ∧ g = (fillBuffers n f r).2 ∧ l = link t n ∧ (trk (link r n) k).phase = .verify ∧ q = demodulate t n
      (trk l k).training true g ∧ x = uplinkParse l.range (frameBits l.range q.syms) ∧ c = crcVerdict n x.isSome t ∧ (x = none ∨
      c.1 = false)) ∧
    (∃ (n : Nat) (f : RxFrame) (s : State) (k : _) (r : _) (t : _) (g : _) (l : _) (q : _) (x : _) (c : _) (u : _), (laneRuns
      s n = true ∧ f.tracker ≤ 1) ∧ k = f.tracker ∧ (r = if (link s n).tie.any (fun v => v.trk == k) then settleTie n s else s)
      ∧ t = (fillBuffers n f r).1 ∧ g = (fillBuffers n f r).2 ∧ l = link t n ∧ (trk (link r n) k).phase = .verify ∧ q =
      demodulate t n (trk l k).training true g ∧ x = uplinkParse l.range (frameBits l.range q.syms) ∧ c = crcVerdict n x.isSome
      t ∧ (x = some u ∧ c.1 = true)) ∧
    (∃ (n : Nat) (f : RxFrame) (s : State) (k : _) (r : _) (t : _) (g : _) (l : _), (laneRuns s n = true ∧ f.tracker ≤ 1) ∧ k
      = f.tracker ∧ (r = if (link s n).tie.any (fun v => v.trk == k) then settleTie n s else s) ∧ t = (fillBuffers n f r).1 ∧ g
      = (fillBuffers n f r).2 ∧ l = link t n ∧ ((trk (link r n) k).phase = .active ∧ l.hopping.any (fun h => decide (nearPeriod
      g.start < h.period)) = true)) :=
  ⟨⟨2, noFrame 0, w, by decide +kernel⟩,
    ⟨2, noFrame (now w), wair .verify, _, _, _, _, _, _, _, _, by decide +kernel, rfl, rfl, rfl, rfl, rfl, by decide +kernel,
      rfl, rfl, rfl, by decide +kernel⟩,
    ⟨2, upFrame 1 (now w), wair .verify, _, _, _, _, _, _, _, _, Option.get _ read1, by decide +kernel, rfl, rfl, rfl, rfl,
      rfl, by decide +kernel, rfl, rfl, rfl, by decide +kernel⟩,
    ⟨2, noFrame (now w), wairs (fun l => { l with hopping := some (hop0 1001) }), _, _, _, _, _, by decide +kernel, rfl, rfl,
      rfl, rfl, rfl, by decide +kernel⟩⟩

theorem witness_LinkFrames_2 :
    (∃ (n : Nat) (f : RxFrame) (s : State) (k : _) (r : _) (t : _) (g : _) (l : _), (laneRuns s n = true ∧ f.tracker ≤ 1) ∧ k
      = f.tracker ∧ (r = if (link s n).tie.any (fun v => v.trk == k) then settleTie n s else s) ∧ t = (fillBuffers n f r).1 ∧ g
      = (fillBuffers n f r).2 ∧ l = link t n ∧ ((trk (link r n) k).phase = .active ∧ l.hopping.any (fun h => decide (nearPeriod
      g.start < h.period)) = false ∧ syncWindow l * 512 < Machine.dist g.start (trk l k).start)) ∧
    (∃ (n : Nat) (f : RxFrame) (s : State) (k : _) (r : _) (t : _) (g : _) (l : _), (laneRuns s n = true ∧ f.tracker ≤ 1) ∧ k
      = f.tracker ∧ (r = if (link s n).tie.any (fun v => v.trk == k) then settleTie n s else s) ∧ t = (fillBuffers n f r).1 ∧ g
      = (fillBuffers n f r).2 ∧ l = link t n ∧ ((trk (link r n) k).phase = .active ∧ l.hopping.any (fun h => decide (nearPeriod
      g.start < h.period)) = false ∧ Machine.dist g.start (trk l k).start ≤ syncWindow l * 512 ∧ capturing l = true)) ∧
    (∃ (n : Nat) (f : RxFrame) (s : State) (k : _) (r : _) (t : _) (g : _) (l : _) (q : _) (x : _) (m : _) (c : _), (laneRuns
      s n = true ∧ f.tracker ≤ 1) ∧ k = f.tracker ∧ (r = if (link s n).tie.any (fun v => v.trk == k) then settleTie n s else s)
      ∧ t = (fillBuffers n f r).1 ∧ g = (fillBuffers n f r).2 ∧ l = link t n ∧ ((trk (link r n) k).phase = .active ∧
      l.hopping.any (fun h => decide (nearPeriod g.start < h.period)) = false ∧ Machine.dist g.start (trk l k).start ≤
      syncWindow l * 512 ∧ capturing l = false) ∧ q = demodulate t n (trk l k).training (firstAfterHop l g.start) g ∧ x =
      uplinkParse l.range (frameBits l.range q.syms) ∧ (m = measureFrame n g q (if 1 < |g.syncErr| ∨ q.aerial ≠ l.aerial ∨
      l.hopping ≠ none then bump (P.linkRunaheadUndos n) t else t)) ∧ c = crcVerdict n x.isSome m ∧ (x = none ∨ c.1 = false)) ∧
    (∃ (n : Nat) (f : RxFrame) (s : State) (k : _) (r : _) (t : _) (g : _) (l : _) (q : _) (x : _) (m : _) (c : _) (u : _),
      (laneRuns s n = true ∧ f.tracker ≤ 1) ∧ k = f.tracker ∧ (r = if (link s n).tie.any (fun v => v.trk == k) then settleTie n
      s else s) ∧ t = (fillBuffers n f r).1 ∧ g = (fillBuffers n f r).2 ∧ l = link t n ∧ ((trk (link r n) k).phase = .active ∧
      l.hopping.any (fun h => decide (nearPeriod g.start < h.period)) = false ∧ Machine.dist g.start (trk l k).start ≤
      syncWindow l * 512 ∧ capturing l = false) ∧ q = demodulate t n (trk l k).training (firstAfterHop l g.start) g ∧ x =
      uplinkParse l.range (frameBits l.range q.syms) ∧ (m = measureFrame n g q (if 1 < |g.syncErr| ∨ q.aerial ≠ l.aerial ∨
      l.hopping ≠ none then bump (P.linkRunaheadUndos n) t else t)) ∧ c = crcVerdict n x.isSome m ∧ (x = some u ∧ c.1 = true ∧
      u.airId ≠ l.air)) ∧
    (∃ (n : Nat) (f : RxFrame) (s : State) (k : _) (r : _) (t : _) (g : _) (l : _) (q : _) (x : _) (m : _) (c : _) (u : _),
      (laneRuns s n = true ∧ f.tracker ≤ 1) ∧ k = f.tracker ∧ (r = if (link s n).tie.any (fun v => v.trk == k) then settleTie n
      s else s) ∧ t = (fillBuffers n f r).1 ∧ g = (fillBuffers n f r).2 ∧ l = link t n ∧ ((trk (link r n) k).phase = .active ∧
      l.hopping.any (fun h => decide (nearPeriod g.start < h.period)) = false ∧ Machine.dist g.start (trk l k).start ≤
      syncWindow l * 512 ∧ capturing l = false) ∧ q = demodulate t n (trk l k).training (firstAfterHop l g.start) g ∧ x =
      uplinkParse l.range (frameBits l.range q.syms) ∧ (m = measureFrame n g q (if 1 < |g.syncErr| ∨ q.aerial ≠ l.aerial ∨
      l.hopping ≠ none then bump (P.linkRunaheadUndos n) t else t)) ∧ c = crcVerdict n x.isSome m ∧ (x = some u ∧ c.1 = true ∧
      u.airId = l.air)) :=
  ⟨⟨2, noFrame (now w + 2561), wair .active, _, _, _, _, _, by decide +kernel, rfl, rfl, rfl, rfl, rfl, by decide +kernel⟩,
    ⟨2, noFrame (now w - 2560), wairs (fun l => { l with t1 := trkAt .verify }), _, _, _, _, _, by decide +kernel, rfl, rfl,
      rfl, rfl, rfl, by decide +kernel⟩,
    ⟨2, noFrame (now w + 2560), wair .active, _, _, _, _, _, _, _, _, _, by decide +kernel, rfl, rfl, rfl, rfl, rfl,
      by decide +kernel, rfl, rfl, rfl, rfl, by decide +kernel⟩,
    ⟨2, upFrame 1023 (now w + 2560), wair .active, _, _, _, _, _, _, _, _, _, Option.get _ read2, by decide +kernel, rfl, rfl,
      rfl, rfl, rfl, by decide +kernel, rfl, rfl, rfl, rfl, by decide +kernel⟩,
    ⟨2, upFrame 1 (now w - 2560), wair .active, _, _, _, _, _, _, _, _, _, Option.get _ read3, by decide +kernel, rfl, rfl,
      rfl, rfl, rfl, by decide +kernel, rfl, rfl, rfl, rfl, by decide +kernel⟩⟩

theorem witness_LinkFrames_3 :
    (∃ (n : Nat) (f : RxFrame) (s : State) (k : _) (r : _), (laneRuns s n = true ∧ f.tracker ≤ 1) ∧ k = f.tracker ∧ (r = if
      (link s n).tie.any (fun v => v.trk == k) then settleTie n s else s) ∧ ((trk (link r n) k).phase ≠ .verify ∧ (trk (link r
      n) k).phase ≠ .active)) ∧
    (∃ (n : Nat) (s : State) (v : Verdict), ((link s n).tie = none ∧ (trk (link s n) (1 - v.trk)).phase = .verify ∧ nearPeriod
      (trk (link s n) (1 - v.trk)).start = nearPeriod v.start)) ∧
    (∃ (n : Nat) (s : State) (v : Verdict), ((link s n).tie = none ∧ ((trk (link s n) (1 - v.trk)).phase ≠ .verify ∨
      nearPeriod (trk (link s n) (1 - v.trk)).start ≠ nearPeriod v.start) ∧ v.airId = (link s n).air)) ∧
    (∃ (n : Nat) (s : State) (v : Verdict), ((link s n).tie = none ∧ ((trk (link s n) (1 - v.trk)).phase ≠ .verify ∨
      nearPeriod (trk (link s n) (1 - v.trk)).start ≠ nearPeriod v.start) ∧ v.airId ≠ (link s n).air)) :=
  ⟨⟨2, noFrame 0, wair .search, _, _, by decide +kernel, rfl, rfl, by decide +kernel⟩,
    ⟨2, wairs (fun l => { l with t1 := trkAt .verify }), vd 1 0, by decide +kernel⟩,
    ⟨2, wair .verify, vd 1 0, by decide +kernel⟩,
    ⟨2, wair .verify, vd 2 0, by decide +kernel⟩⟩

theorem witness_LinkFrames_4 :
    (∃ (n : Nat) (s : State) (w : _), (link s n).tie = some w) ∧
    (∃ (n : Nat) (s : State) (v : Verdict) (w : _), (v.airId = (link s n).air ∧ w.airId = (link s n).air ∧ frameLevel w <
      frameLevel v)) ∧
    (∃ (n : Nat) (s : State) (v : Verdict) (w : _), (w.airId = (link s n).air ∧ frameLevel v < frameLevel w)) ∧
    (∃ (n : Nat) (s : State) (k : _), (activeTrk (link s n) = some k ∧ laneRuns s n = true ∧ (trk (link s n) k).start +
      syncWindow (link s n) * 512 ≤ now s ∧ capturing (link s n) = true)) ∧
    (∃ (n : Nat) (s : State) (k : _), (activeTrk (link s n) = some k ∧ laneRuns s n = true ∧ (trk (link s n) k).start +
      syncWindow (link s n) * 512 ≤ now s ∧ capturing (link s n) = false)) :=
  ⟨⟨2, wairs (fun l => { l with tie := some (vd 1 0) }), vd 1 0, by decide +kernel⟩,
    ⟨2, wair .verify, vd 1 1, vd 1 0, by decide +kernel⟩,
    ⟨2, wair .verify, vd 1 0, vd 1 1, by decide +kernel⟩,
    ⟨2, wairs (fun l => { l with t0 := { trkAt .active with start := now w - 2560 }, t1 := trkAt .pre }), 0,
      by decide +kernel⟩,
    ⟨2, wairs (fun l => { l with t0 := { trkAt .active with start := now w - 2560 } }), 0, by decide +kernel⟩⟩

theorem witness_LinkFrames_5 :
    (∃ (n : Nat) (s : State), (activeTrk (link s n) = none ∨ laneRuns s n = false)) ∧
    (∃ (n : Nat) (s : State) (k : _), (activeTrk (link s n) = some k ∧ now s < (trk (link s n) k).start + syncWindow (link s
      n) * 512)) ∧
    (∃ (n : Nat) (s : State), ((link s n).isOpen = true ∧ 2 ≤ (link s n).silent)) ∧
    (∃ (n : Nat) (s : State), ((link s n).isOpen = false ∨ (link s n).silent < 2)) :=
  ⟨⟨2, wair .verify, by decide +kernel⟩,
    ⟨2, wairs (fun l => { l with t0 := { trkAt .active with start := now w - 2559 } }), 0, by decide +kernel⟩,
    ⟨2, wsil 2, by decide +kernel⟩,
    ⟨2, wsil 1, by decide +kernel⟩⟩

theorem witness_LinkFrames_6 :
    ∃ (n : Nat) (s : State), ((link s n).isOpen = false ∨ (link s n).silent < 2) :=
  ⟨2, w, by decide +kernel⟩

theorem witness_LinkHops_1 :
    (∃ (n : Nat) (s : State), ((link s n).isOpen = true ∧ (link s n).measuring = true ∧ (link s n).hop ≠ none)) ∧
    (∃ (n : Nat) (s : State) (v : _) (r : _) (u : _) (a : _), ((link s n).isOpen = true ∧ (link s n).measuring = true) ∧ r =
      onLink n (fun l => { l with measuring := false }) s ∧ u = onLink n (fun l => { l with lastHop := some (period s) }) r ∧
      ((link s n).hop = none ∧ bestAlternate (alternates u n v) = some a)) ∧
    (∃ (n : Nat) (s : State) (v : _) (r : _) (u : _), ((link s n).isOpen = true ∧ (link s n).measuring = true) ∧ r = onLink n
      (fun l => { l with measuring := false }) s ∧ u = onLink n (fun l => { l with lastHop := some (period s) }) r ∧ ((link s
      n).hop = none ∧ bestAlternate (alternates u n v) = none)) ∧
    (∃ (n : Nat) (s : State), ((link s n).isOpen = false ∨ (link s n).measuring = false)) ∧
    (∃ (l : List (Nat × Nat)) (a : _), bestAlternate l = some a) ∧
    (∃ (l : List (Nat × Nat)), bestAlternate l = none) ∧
    (∃ (n : Nat) (s : State) (h : _) (r : _), ((link s n).hop = some h ∧ h.period ≤ period s) ∧ r = settleTie n s ∧ (activeTrk
      (link r n)).getD 0 = 0) ∧
    (∃ (n : Nat) (s : State) (h : _) (r : _), ((link s n).hop = some h ∧ h.period ≤ period s) ∧ r = settleTie n s ∧ (activeTrk
      (link r n)).getD 0 = 1) ∧
    (∃ (n : Nat) (s : State), (link s n).hop = none) ∧
    (∃ (n : Nat) (s : State) (h : _), ((link s n).hop = some h ∧ period s < h.period)) ∧
    (∃ (n : Nat) (s : State) (h : _), ((link s n).hopping = some h ∧ h.period + 2 + parNow s (P.linkHopFallback n) ≤ period
      s)) :=
  ⟨⟨2, { walt with links := [(2, { (link walt 2) with hop := some (hop0 1001) })] }, by decide +kernel⟩,
    ⟨2, walt, [255], _, _, (501000000, 255), by decide +kernel, rfl, rfl, by decide +kernel⟩,
    ⟨2, { walt with rf := { walt.rf with alt := [] } }, [], _, _, by decide +kernel, rfl, rfl, by decide +kernel⟩,
    ⟨2, w, by decide +kernel⟩,
    ⟨[(501000000, 255)], (501000000, 255), by decide +kernel⟩,
    ⟨[], by decide +kernel⟩,
    ⟨2, whop (fun l => { l with hop := some (hop0 1000) }), hop0 1000, _, by decide +kernel, rfl, by decide +kernel⟩,
    ⟨2, whop (fun l => { l with hop := some (hop0 1000), t0 := Tracker.reset, t1 := trkAt .active }), hop0 1000, _,
      by decide +kernel, rfl, by decide +kernel⟩,
    ⟨2, wl, by decide +kernel⟩,
    ⟨2, whop (fun l => { l with hop := some (hop0 1001) }), hop0 1001, by decide +kernel⟩,
    ⟨2, whop (fun l => { l with hopping := some (hop0 900) }), hop0 900, by decide +kernel⟩⟩

theorem witness_LinkHops_2 :
    (∃ (n : Nat) (s : State) (h : _), ((link s n).hopping = some h ∧ period s < h.period + 2 + parNow s (P.linkHopFallback
      n))) ∧
    (∃ (n : Nat) (s : State), (link s n).hopping = none) :=
  ⟨⟨2, whop (fun l => { l with hopping := some (hop0 998) }), hop0 998, by decide +kernel⟩,
    ⟨2, wl, by decide +kernel⟩⟩

theorem witness_TxInstants_1 :
    (∃ (s : State) (due : _), due = ((openCarriers s).filter (fun p => p.2.phase == .starting && decide (p.2.m ≤ period
      s))).map Prod.fst ∧ (due ≠ [] ∧ locked s 2 = true ∧ domOn s Dom.txd = true ∧ restarting s Dom.txd = false ∧ restarting s
      Dom.ckg = false ∧ s.clk.pllLocked = true ∧ s.supply.brown = false)) ∧
    (∃ (s : State) (due : _), due = ((openCarriers s).filter (fun p => p.2.phase == .starting && decide (p.2.m ≤ period
      s))).map Prod.fst ∧ (due = [] ∨ mayRadiate s = false)) ∧
    (∃ (s : State), (locked s 2 = false ∨ domOn s Dom.txd = false ∨ restarting s Dom.txd = true ∨ s.supply.brown = true)) ∧
    (∃ (s : State) (c : _), ((carrier s c).stopCause ≠ 3 ∨ parGet s P.sysTxAutoResume ≠ 1)) ∧
    (∃ (s : State) (c : _), ((carrier s c).stopCause = 3 ∧ parGet s P.sysTxAutoResume = 1)) ∧
    (∃ (s : State), (s.tx.offDelay = true ∧ s.tx.offSince + usTicks (parGet s P.txPaOffDelay) ≤ now s)) ∧
    (∃ (s : State), (s.tx.offDelay = false ∨ now s < s.tx.offSince + usTicks (parGet s P.txPaOffDelay))) :=
  ⟨⟨wcar (fun q => { q with phase := .starting, m := 1000 }), _, rfl, by decide +kernel⟩,
    ⟨wcar (fun q => { q with phase := .starting, m := 1001 }), _, rfl, by decide +kernel⟩,
    ⟨{ w with clk := Clocks.reset }, by decide +kernel⟩,
    ⟨wcar (fun q => { q with stopCause := 3 }), 2, by decide +kernel⟩,
    ⟨{ wcar (fun q => { q with stopCause := 3 }) with par := [(P.sysTxAutoResume, 1)] }, 2, by decide +kernel⟩,
    ⟨{ w with tx := { w.tx with offDelay := true } }, by decide +kernel⟩,
    ⟨w, by decide +kernel⟩⟩

theorem witness_TxInstants_2 :
    (∃ (s : State), (s.tx.offDelay = false ∨ now s < s.tx.offSince + usTicks (parGet s P.txPaOffDelay))) ∧
    (∃ (s : State) (due : _), due = ((openCarriers s).filter (fun p => p.2.phase == .held && p.2.m != 0 && decide (p.2.m ≤
      period s))).map Prod.fst ∧ (due ≠ [] ∧ mayRadiate s = true)) ∧
    (∃ (s : State) (due : _), due = ((openCarriers s).filter (fun p => p.2.phase == .held && p.2.m != 0 && decide (p.2.m ≤
      period s))).map Prod.fst ∧ (due = [] ∨ mayRadiate s = false)) ∧
    (∃ (s : State) (c : _) (r : _), ((carrier s c).retune = some r ∧ (carrier s c).retuning = true ∧ r.period < period s)) ∧
    (∃ (s : State) (c : _), ((carrier s c).retune = none ∨ (carrier s c).retuning = false ∨ (∃ r, (carrier s c).retune = some
      r ∧ period s ≤ r.period))) :=
  ⟨⟨{ w with tx := { w.tx with offDelay := true, offSince := now w + 1 } }, by decide +kernel⟩,
    ⟨wcar (fun q => { q with phase := .held, m := 1000 }), _, rfl, by decide +kernel⟩,
    ⟨wcar (fun q => { q with phase := .held, m := 1001 }), _, rfl, by decide +kernel⟩,
    ⟨wcar (fun q => { q with retune := some (hop0 999), retuning := true }), 2, hop0 999, by decide +kernel⟩,
    ⟨wc, 2, .inl (by decide +kernel)⟩⟩

theorem witness_CommandLinkSlots_1 :
    (∃ (s : State), period s % 20 ≠ 0) ∧
    (∃ (s : State) (r : _), r = beaconEnds s ∧ (period s % 20 = 0 ∧ r.cl.phase = .running)) ∧
    (∃ (s : State) (r : _) (l : _) (u : _), r = beaconEnds s ∧ (period s % 20 = 0 ∧ r.cl.phase = .held) ∧ u = newSuperframe
      (hopChannel l r) ∧ (clAble u = true ∧ locked u 3 = true)) ∧
    (∃ (s : State) (r : _) (l : _) (u : _), r = beaconEnds s ∧ (period s % 20 = 0 ∧ r.cl.phase = .held) ∧ u = newSuperframe
      (hopChannel l r) ∧ (clAble u = false ∨ locked u 3 = false)) ∧
    (∃ (s : State) (r : _), r = beaconEnds s ∧ (period s % 20 = 0 ∧ r.cl.phase = .starting ∧ (period r < r.cl.b ∨ clAble r =
      false))) ∧
    (∃ (s : State) (r : _), r = beaconEnds s ∧ (period s % 20 = 0 ∧ r.cl.phase = .starting ∧ r.cl.b ≤ period r ∧ clAble r =
      true ∧ (r.clk.cmd.phase = .calibrating ∨ r.clk.cmd.phase = .searching ∨ r.clk.cmd.phase = .retrying))) ∧
    (∃ (s : State) (r : _), r = beaconEnds s ∧ (period s % 20 = 0 ∧ r.cl.phase = .starting ∧ r.cl.b ≤ period r ∧ clAble r =
      true ∧ r.clk.cmd.phase = .locked ∧ (startFreq r).getD r.clk.cmd.freq = r.clk.cmd.freq)) ∧
    (∃ (s : State) (r : _) (l : _) (t : State), r = beaconEnds s ∧ (period s % 20 = 0 ∧ r.cl.phase = .starting ∧ r.cl.b ≤
      period r ∧ clAble r = true ∧ (r.clk.cmd.phase = .off ∨ (r.clk.cmd.phase = .locked ∧ (startFreq r).getD r.clk.cmd.freq ≠
      r.clk.cmd.freq)) ∧ lockChannel ((startFreq r).getD r.clk.cmd.freq) l r = (some true, t))) :=
  ⟨⟨{ wj with timebase := 61440 * 1001 }, by decide +kernel⟩,
    ⟨wj, _, rfl, by decide +kernel⟩,
    ⟨wcl (fun q => { q with phase := .held }), _, true, _, rfl, by decide +kernel, rfl, by decide +kernel⟩,
    ⟨{ wnoClr with cl := { wj.cl with phase := .held } }, _, true, _, rfl, by decide +kernel, rfl, by decide +kernel⟩,
    ⟨wcl (fun q => { q with phase := .starting, b := 1020 }), _, rfl, by decide +kernel⟩,
    ⟨wstart { Synth.reset with phase := .calibrating }, _, rfl, by decide +kernel⟩,
    ⟨wstart (lockedAt 2441000000), _, rfl, by decide +kernel⟩,
    ⟨woff3, _, true, soughtFrom true woff3, rfl, by decide +kernel⟩⟩

theorem witness_CommandLinkSlots_2 :
    (∃ (s : State) (r : _) (l : _) (t : State), r = beaconEnds s ∧ (period s % 20 = 0 ∧ r.cl.phase = .starting ∧ r.cl.b ≤
      period r ∧ clAble r = true ∧ (r.clk.cmd.phase = .off ∨ (r.clk.cmd.phase = .locked ∧ (startFreq r).getD r.clk.cmd.freq ≠
      r.clk.cmd.freq)) ∧ lockChannel ((startFreq r).getD r.clk.cmd.freq) l r = (some false, t))) ∧
    (∃ (s : State) (r : _) (l : _) (t : State), r = beaconEnds s ∧ (period s % 20 = 0 ∧ r.cl.phase = .starting ∧ r.cl.b ≤
      period r ∧ clAble r = true ∧ (r.clk.cmd.phase = .off ∨ (r.clk.cmd.phase = .locked ∧ (startFreq r).getD r.clk.cmd.freq ≠
      r.clk.cmd.freq)) ∧ lockChannel ((startFreq r).getD r.clk.cmd.freq) l r = (none, t))) ∧
    (∃ (s : State) (r : _), r = beaconEnds s ∧ (period s % 20 = 0 ∧ (r.cl.phase = .stopped ∨ r.cl.phase = .muted))) ∧
    (∃ (s : State) (n : _), ((s.cl.phase ≠ .running ∧ s.cl.phase ≠ .held) ∨ 30 ≤ n)) ∧
    (∃ (s : State) (r : _) (n : _), r = beaconEnds s ∧ ((s.cl.phase = .running ∨ s.cl.phase = .held) ∧ n < 30 ∧ (r.cl.phase ≠
      .running ∨ r.cl.listening = false))) ∧
    (∃ (s : State) (r : _) (n : _) (g : _), r = beaconEnds s ∧ ((s.cl.phase = .running ∨ s.cl.phase = .held) ∧ n < 30 ∧
      r.cl.phase = .running ∧ r.cl.listening = true ∧ slotRequested r n = true ∧ g = false)) ∧
    (∃ (s : State) (r : _) (n : _) (g : _), r = beaconEnds s ∧ ((s.cl.phase = .running ∨ s.cl.phase = .held) ∧ n < 30 ∧
      r.cl.phase = .running ∧ r.cl.listening = true ∧ (slotRequested r n = false ∨ g = true) ∧ (r.cl.acks.testBit n = true ∨
      joinSlot r n = true))) ∧
    (∃ (s : State) (r : _) (n : _) (g : _), r = beaconEnds s ∧ ((s.cl.phase = .running ∨ s.cl.phase = .held) ∧ n < 30 ∧
      r.cl.phase = .running ∧ r.cl.listening = true ∧ (slotRequested r n = false ∨ g = true) ∧ r.cl.acks.testBit n = false ∧
      joinSlot r n = false)) :=
  ⟨⟨woff3, _, false, soughtFrom false woff3, rfl, by decide +kernel⟩,
    ⟨wcal3, _, true, soughtFrom true wcal3, rfl, by decide +kernel⟩,
    ⟨w, _, rfl, by decide +kernel⟩,
    ⟨w, 0, by decide +kernel⟩,
    ⟨wcl (fun q => { q with phase := .held }), _, 0, rfl, by decide +kernel⟩,
    ⟨wcoex wjl, _, 15, false, rfl, by decide +kernel⟩,
    ⟨wcl (fun q => { q with listening := true, acks := 1 }), _, 0, false, rfl, by decide +kernel⟩,
    ⟨wjl, _, 15, false, rfl, by decide +kernel⟩⟩

theorem witness_CommandLinkSlots_3 :
    (∃ (s : State) (r : _) (n : _) (g : _), r = beaconEnds s ∧ ((s.cl.phase = .running ∨ s.cl.phase = .held) ∧ n < 30 ∧
      r.cl.phase = .running ∧ r.cl.listening = true ∧ (slotRequested r n = false ∨ g = true) ∧ r.cl.acks.testBit n = false ∧
      joinSlot r n = false)) ∧
    (∃ (s : State) (g : _), (parGet s P.clCoexCfg = 1 ∧ g = false)) ∧
    (∃ (s : State) (g : _), ((parGet s P.clCoexCfg ≠ 1 ∨ g = true) ∧ (locked s 3 = false ∨ clAble s = false))) ∧
    (∃ (s : State) (g : _), ((parGet s P.clCoexCfg ≠ 1 ∨ g = true) ∧ locked s 3 = true ∧ clAble s = true)) ∧
    (∃ (s : State), (s.cl.phase = .running ∧ s.cl.listening = true)) ∧
    (∃ (s : State), (s.cl.phase ≠ .running ∨ s.cl.listening = false)) ∧
    (∃ (s : State) (h : _) (l : _) (t : _), (s.cl.hop = some h ∧ h.period ≤ period s) ∧ t = lockChannel h.target l s ∧ t.1 ≠
      some false) ∧
    (∃ (s : State) (h : _) (l : _) (t : _), (s.cl.hop = some h ∧ h.period ≤ period s) ∧ t = lockChannel h.target l s ∧ t.1 =
      some false) ∧
    (∃ (s : State), (s.cl.hop = none ∨ (∃ h, s.cl.hop = some h ∧ period s < h.period))) :=
  ⟨⟨wcoex wjl, _, 15, true, rfl, by decide +kernel⟩,
    ⟨wcoex wj, false, by decide +kernel⟩,
    ⟨{ wj with clk := Clocks.reset }, false, by decide +kernel⟩,
    ⟨wj, false, by decide +kernel⟩,
    ⟨wjl, by decide +kernel⟩,
    ⟨wj0, by decide +kernel⟩,
    ⟨wcl (fun q => { q with hop := some (whop2 1000) }), whop2 1000, true, _, by decide +kernel, rfl, by decide +kernel⟩,
    ⟨wcl (fun q => { q with hop := some (whop2 1000) }), whop2 1000, false, _, by decide +kernel, rfl, by decide +kernel⟩,
    ⟨wj, .inl (by decide +kernel)⟩⟩

theorem witness_CommandLinkSlots_4 :
    (∃ (s : State), (s.cl.hop = none ∨ (∃ h, s.cl.hop = some h ∧ period s < h.period))) ∧
    (∃ (s : State), (s.cl.beaconing = true ∧ parGet s P.clCoexCfg = 1)) ∧
    (∃ (s : State), (s.cl.beaconing = false ∨ parGet s P.clCoexCfg ≠ 1)) :=
  ⟨⟨wcl (fun q => { q with hop := some (whop2 1001) }), .inr ⟨whop2 1001, by decide +kernel⟩⟩,
    ⟨{ wj with cl := { wj.cl with beaconing := true }, par := [(P.clCoexCfg, 1)] }, by decide +kernel⟩,
    ⟨wcoex wj, by decide +kernel⟩⟩

theorem witness_CommandLinkPackets_1 :
    (∃ (s : State) (n : Nat) (r : _), r = beaconEnds s ∧ (r.cl.phase ≠ .running ∨ r.cl.listening = false ∨ 30 ≤ n)) ∧
    (∃ (s : State) (n : Nat) (pkt : ClPacket) (r : _), r = beaconEnds s ∧ (r.cl.phase = .running ∧ r.cl.listening = true ∧ n <
      30 ∧ captures pkt r = 0)) ∧
    (∃ (s : State) (n : Nat) (pkt : ClPacket) (r : _), r = beaconEnds s ∧ (r.cl.phase = .running ∧ r.cl.listening = true ∧ n <
      30 ∧ captures pkt r ≠ 0 ∧ parGet r P.clCapture8 = 1)) :=
  ⟨⟨wj, 0, _, rfl, by decide +kernel⟩,
    ⟨wjl, 29, pkt [] [], _, rfl, by decide +kernel⟩,
    ⟨{ wjl with par := [(P.clCapture8, 1)] }, 29, loud, _, rfl, by decide +kernel⟩⟩

theorem witness_CommandLinkPackets_2 :
    (∃ (s : State) (n : Nat) (pkt : ClPacket) (r : _), r = beaconEnds s ∧ (r.cl.phase = .running ∧ r.cl.listening = true ∧ n <
      30 ∧ captures pkt r ≠ 0 ∧ parGet r P.clCapture8 ≠ 1)) ∧
    (∃ (s : State) (pkt : ClPacket) (a : _) (v : _), a = clAirBody (clChannel s.cl.freq) 26 pkt.air ∧ v = crcVerdict 0x80 a.2
      s ∧ v.1 = false) ∧
    (∃ (s : State) (pkt : ClPacket) (a : _) (v : _) (u : _) (sys : _), a = clAirBody (clChannel s.cl.freq) 26 pkt.air ∧ v =
      crcVerdict 0x80 a.2 s ∧ u = v.2 ∧ sys = beNat ((a.1.drop 2).take 3) ∧ (v.1 = true ∧ sys ≠ parGet u P.clSystemId)) ∧
    (∃ (s : State) (n : Nat) (pkt : ClPacket) (a : _) (v : _) (u : _) (sys : _) (mine : _), a = clAirBody (clChannel
      s.cl.freq) 26 pkt.air ∧ v = crcVerdict 0x80 a.2 s ∧ u = v.2 ∧ sys = beNat ((a.1.drop 2).take 3) ∧ mine = slotSession u n ∧
      (v.1 = true ∧ sys = parGet u P.clSystemId ∧ fldAt a.1 0 1 % 16 = 1 ∧ (joinSlot u n = true ∨ fldAt a.1 1 1 ≠ mine))) :=
  ⟨⟨{ wjl with par := [(P.clCapture8, 0)] }, 29, loud, _, rfl, by decide +kernel⟩,
    ⟨wjl, { pkt [] [] with air := [] }, _, _, rfl, rfl, by decide +kernel⟩,
    ⟨wjl, pkt (body22 1 255 1 5) (z 4), _, _, _, _, rfl, rfl, rfl, rfl, by decide +kernel⟩,
    ⟨wjl, 14, pkt poll22 (clMic (z 16) 160 15 poll22), _, _, _, _, _, rfl, rfl, rfl, rfl, rfl, by decide +kernel⟩⟩

theorem witness_CommandLinkPackets_3 :
    (∃ (s : State) (n : Nat) (pkt : ClPacket) (a : _) (v : _) (u : _) (sys : _) (mine : _) (x : _), a = clAirBody (clChannel
      s.cl.freq) 26 pkt.air ∧ v = crcVerdict 0x80 a.2 s ∧ u = v.2 ∧ sys = beNat ((a.1.drop 2).take 3) ∧ mine = slotSession u n ∧
      (v.1 = true ∧ sys = parGet u P.clSystemId ∧ fldAt a.1 0 1 % 16 = 1 ∧ joinSlot u n = false ∧ fldAt a.1 1 1 = mine) ∧ x =
      session u mine ∧ (x.phase = .free ∨ replyKey x (fldAt a.1 5 1) = none)) ∧
    (∃ (s : State) (n : Nat) (pkt : ClPacket) (a : _) (v : _) (u : _) (sys : _) (mine : _) (x : _) (key : List Byte) (epoch :
      _), a = clAirBody (clChannel s.cl.freq) 26 pkt.air ∧ v = crcVerdict 0x80 a.2 s ∧ u = v.2 ∧ sys = beNat ((a.1.drop 2).take
      3) ∧ mine = slotSession u n ∧ (v.1 = true ∧ sys = parGet u P.clSystemId ∧ fldAt a.1 0 1 % 16 = 1 ∧ joinSlot u n = false ∧
      fldAt a.1 1 1 = mine) ∧ x = session u mine ∧ (x.phase ≠ .free ∧ replyKey x (fldAt a.1 5 1) = some (key, epoch) ∧ clMic key
      u.cl.b n (a.1.take 22) ≠ (a.1.drop 22).take 4)) ∧
    (∃ (s : State) (n : Nat) (pkt : ClPacket) (a : _) (v : _) (u : _) (sys : _) (mine : _) (x : _) (key : List Byte) (epoch :
      _), a = clAirBody (clChannel s.cl.freq) 26 pkt.air ∧ v = crcVerdict 0x80 a.2 s ∧ u = v.2 ∧ sys = beNat ((a.1.drop 2).take
      3) ∧ mine = slotSession u n ∧ (v.1 = true ∧ sys = parGet u P.clSystemId ∧ fldAt a.1 0 1 % 16 = 1 ∧ joinSlot u n = false ∧
      fldAt a.1 1 1 = mine) ∧ x = session u mine ∧ (x.phase ≠ .free ∧ replyKey x (fldAt a.1 5 1) = some (key, epoch) ∧ clMic key
      u.cl.b n (a.1.take 22) = (a.1.drop 22).take 4)) ∧
    (∃ (s : State) (n : Nat) (pkt : ClPacket) (a : _) (v : _) (u : _) (sys : _) (mine : _), a = clAirBody (clChannel
      s.cl.freq) 26 pkt.air ∧ v = crcVerdict 0x80 a.2 s ∧ u = v.2 ∧ sys = beNat ((a.1.drop 2).take 3) ∧ mine = slotSession u n ∧
      (v.1 = true ∧ sys = parGet u P.clSystemId ∧ fldAt a.1 0 1 % 16 = 2 ∧ (joinSlot u n = false ∨ fldAt a.1 1 1 ≠ mine))) :=
  ⟨⟨wnos, 15, pkt poll22 (clMic (z 16) 160 15 poll22), _, _, _, _, _, _, rfl, rfl, rfl, rfl, rfl, by decide +kernel, rfl,
      by decide +kernel⟩,
    ⟨wjl, 15, pkt poll22 [1, 2, 3, 4], _, _, _, _, _, _, z 16, 0, rfl, rfl, rfl, rfl, rfl, by decide +kernel, rfl,
      by decide +kernel⟩,
    ⟨wjl, 15, pkt poll22 (clMic (z 16) 160 15 poll22), _, _, _, _, _, _, z 16, 0, rfl, rfl, rfl, rfl, rfl, by decide +kernel,
      rfl, by decide +kernel⟩,
    ⟨wjl, 15, pkt (join22 5) (clMic (z 16) 160 15 (join22 5)), _, _, _, _, _, rfl, rfl, rfl, rfl, rfl, by decide +kernel⟩⟩

theorem witness_CommandLinkPackets_4 :
    (∃ (s : State) (n : Nat) (pkt : ClPacket) (a : _) (v : _) (u : _) (sys : _) (mine : _), a = clAirBody (clChannel
      s.cl.freq) 26 pkt.air ∧ v = crcVerdict 0x80 a.2 s ∧ u = v.2 ∧ sys = beNat ((a.1.drop 2).take 3) ∧ mine = slotSession u n ∧
      (v.1 = true ∧ sys = parGet u P.clSystemId ∧ fldAt a.1 0 1 % 16 = 2 ∧ (joinSlot u n = false ∨ fldAt a.1 1 1 ≠ mine))) ∧
    (∃ (s : State) (n : Nat) (pkt : ClPacket) (a : _) (v : _) (u : _) (sys : _) (mine : _) (tx : _), a = clAirBody (clChannel
      s.cl.freq) 26 pkt.air ∧ v = crcVerdict 0x80 a.2 s ∧ u = v.2 ∧ sys = beNat ((a.1.drop 2).take 3) ∧ mine = slotSession u n ∧
      (v.1 = true ∧ sys = parGet u P.clSystemId ∧ fldAt a.1 0 1 % 16 = 2) ∧ tx = beNat ((a.1.drop 5).take 4) ∧ (joinSlot u n =
      true ∧ fldAt a.1 1 1 = mine ∧ sessionOfTx u tx = none)) ∧
    (∃ (s : State) (n : Nat) (pkt : ClPacket) (a : _) (v : _) (u : _) (sys : _) (mine : _) (tx : _) (m : _), a = clAirBody
      (clChannel s.cl.freq) 26 pkt.air ∧ v = crcVerdict 0x80 a.2 s ∧ u = v.2 ∧ sys = beNat ((a.1.drop 2).take 3) ∧ mine =
      slotSession u n ∧ (v.1 = true ∧ sys = parGet u P.clSystemId ∧ fldAt a.1 0 1 % 16 = 2) ∧ tx = beNat ((a.1.drop 5).take 4) ∧
      (joinSlot u n = true ∧ fldAt a.1 1 1 = mine ∧ sessionOfTx u tx = some m ∧ clMic (session u m).key u.cl.b n (a.1.take 22) ≠
      (a.1.drop 22).take 4)) ∧
    (∃ (s : State) (n : Nat) (pkt : ClPacket) (a : _) (v : _) (u : _) (sys : _) (mine : _) (tx : _) (m : _), a = clAirBody
      (clChannel s.cl.freq) 26 pkt.air ∧ v = crcVerdict 0x80 a.2 s ∧ u = v.2 ∧ sys = beNat ((a.1.drop 2).take 3) ∧ mine =
      slotSession u n ∧ (v.1 = true ∧ sys = parGet u P.clSystemId ∧ fldAt a.1 0 1 % 16 = 2) ∧ tx = beNat ((a.1.drop 5).take 4) ∧
      (joinSlot u n = true ∧ fldAt a.1 1 1 = mine ∧ sessionOfTx u tx = some m ∧ clMic (session u m).key u.cl.b n (a.1.take 22) =
      (a.1.drop 22).take 4 ∧ (session u m).phase = .removing)) ∧
    (∃ (s : State) (n : Nat) (pkt : ClPacket) (a : _) (v : _) (u : _) (sys : _) (mine : _) (tx : _) (m : _), a = clAirBody
      (clChannel s.cl.freq) 26 pkt.air ∧ v = crcVerdict 0x80 a.2 s ∧ u = v.2 ∧ sys = beNat ((a.1.drop 2).take 3) ∧ mine =
      slotSession u n ∧ (v.1 = true ∧ sys = parGet u P.clSystemId ∧ fldAt a.1 0 1 % 16 = 2) ∧ tx = beNat ((a.1.drop 5).take 4) ∧
      (joinSlot u n = true ∧ fldAt a.1 1 1 = mine ∧ sessionOfTx u tx = some m ∧ clMic (session u m).key u.cl.b n (a.1.take 22) =
      (a.1.drop 22).take 4 ∧ (session u m).phase ≠ .removing ∧ (session u m).phase ≠ .joined)) :=
  ⟨⟨wjj, 14, pkt (join22 5) (clMic (z 16) 160 15 (join22 5)), _, _, _, _, _, rfl, rfl, rfl, rfl, rfl, by decide +kernel⟩,
    ⟨wjj, 15, pkt (join22 6) (z 4), _, _, _, _, _, _, rfl, rfl, rfl, rfl, rfl, by decide +kernel, rfl, by decide +kernel⟩,
    ⟨wjj, 15, pkt (join22 5) [1, 2, 3, 4], _, _, _, _, _, _, 255, rfl, rfl, rfl, rfl, rfl, by decide +kernel, rfl,
      by decide +kernel⟩,
    ⟨wjat .removing, 15, pkt (join22 5) (clMic (z 16) 160 15 (join22 5)), _, _, _, _, _, _, 3, rfl, rfl, rfl, rfl, rfl,
      by decide +kernel, rfl, by decide +kernel⟩,
    ⟨wjj, 15, pkt (join22 5) (clMic (z 16) 160 15 (join22 5)), _, _, _, _, _, _, 255, rfl, rfl, rfl, rfl, rfl,
      by decide +kernel, rfl, by decide +kernel⟩⟩

theorem witness_CommandLinkPackets_5 :
    (∃ (s : State) (n : Nat) (pkt : ClPacket) (a : _) (v : _) (u : _) (sys : _) (mine : _) (tx : _) (m : _), a = clAirBody
      (clChannel s.cl.freq) 26 pkt.air ∧ v = crcVerdict 0x80 a.2 s ∧ u = v.2 ∧ sys = beNat ((a.1.drop 2).take 3) ∧ mine =
      slotSession u n ∧ (v.1 = true ∧ sys = parGet u P.clSystemId ∧ fldAt a.1 0 1 % 16 = 2) ∧ tx = beNat ((a.1.drop 5).take 4) ∧
      (joinSlot u n = true ∧ fldAt a.1 1 1 = mine ∧ sessionOfTx u tx = some m ∧ clMic (session u m).key u.cl.b n (a.1.take 22) =
      (a.1.drop 22).take 4 ∧ (session u m).phase = .joined)) ∧
    (∃ (s : State) (pkt : ClPacket) (a : _) (v : _) (u : _) (sys : _), a = clAirBody (clChannel s.cl.freq) 26 pkt.air ∧ v =
      crcVerdict 0x80 a.2 s ∧ u = v.2 ∧ sys = beNat ((a.1.drop 2).take 3) ∧ (v.1 = true ∧ sys = parGet u P.clSystemId ∧ fldAt
      a.1 0 1 % 16 ≠ 1 ∧ fldAt a.1 0 1 % 16 ≠ 2)) :=
  ⟨⟨wjat .joined, 15, pkt (join22 5) (clMic (z 16) 160 15 (join22 5)), _, _, _, _, _, _, 3, rfl, rfl, rfl, rfl, rfl,
      by decide +kernel, rfl, by decide +kernel⟩,
    ⟨wjl, pkt (body22 3 255 7 5) (z 4), _, _, _, _, rfl, rfl, rfl, rfl, by decide +kernel⟩⟩

theorem witness_SessionInstants_1 :
    (∃ (n : Nat) (s : State), ((session s n).phase = .removing ∧ (session s n).remove = false)) ∧
    (∃ (n : Nat) (s : State), ((session s n).phase = .removing ∧ s.cl.phase ≠ .running)) ∧
    (∃ (n : Nat) (s : State), ((session s n).phase = .removing ∧ (session s n).removeAt + sec1 ≤ now s)) ∧
    (∃ (n : Nat) (s : State) (r : _), ((session s n).phase ≠ .removing ∨ r = 0 ∨ 3 < r ∨ (r = 1 ∧ (session s n).remove = true)
      ∨ (r = 2 ∧ s.cl.phase = .running) ∨ (r = 3 ∧ now s < (session s n).removeAt + sec1))) ∧
    (∃ (n : Nat) (s : State) (k : _), ((session s n).change = some k ∧ k.switched = false ∧ k.n ≤ period s ∧ k.confirmed =
      true)) ∧
    (∃ (n : Nat) (s : State) (k : _), ((session s n).change = some k ∧ k.switched = false ∧ k.n ≤ period s ∧ k.confirmed =
      false)) ∧
    (∃ (n : Nat) (s : State) (k : _), ((session s n).change = some k ∧ (k.switched = true ∨ period s < k.n))) :=
  ⟨⟨255, wses (fun x => { x with phase := .removing }), by decide +kernel⟩,
    ⟨255, { wses (fun x => { x with phase := .removing }) with cl := Cl.reset }, by decide +kernel⟩,
    ⟨255, { wses (fun x => { x with phase := .removing }) with timebase := 122880000 }, by decide +kernel⟩,
    ⟨0, w, 1, by decide +kernel⟩,
    ⟨255, wses (fun x => { x with change := some kc }), kc, by decide +kernel⟩,
    ⟨255, wses (fun x => { x with change := some { kc with confirmed := false } }), { kc with confirmed := false },
      by decide +kernel⟩,
    ⟨255, wses (fun x => { x with change := some { kc with switched := true } }), { kc with switched := true },
      by decide +kernel⟩⟩

theorem witness_SessionInstants_2 :
    ∃ (n : Nat) (s : State), (session s n).change = none :=
  ⟨0, w, by decide +kernel⟩

theorem witness_PortInstants_1 :
    (∃ (s : State), unclocked s = true) ∧
    (∃ (p : Nat) (s : State) (t : _), (unclocked s = false ∧ (port s p).phase = .armed ∧ (port s p).startAt = some t ∧ t ≤ now
      s ∧ domOn s Dom.aud = true)) ∧
    (∃ (p : Nat) (s : State) (t : _), (unclocked s = false ∧ (port s p).startAt = some t ∧ now s < t)) ∧
    (∃ (p : Nat) (s : State), (unclocked s = false ∧ ((port s p).phase ≠ .armed ∨ (port s p).startAt = none ∨ domOn s Dom.aud
      = false))) ∧
    (∃ (s : State), (unclocked s = false ∧ domOn s Dom.aud = true ∧ s.supply.ioaOn = true)) ∧
    (∃ (s : State), (unclocked s = false ∧ (domOn s Dom.aud = false ∨ s.supply.ioaOn = false))) ∧
    (∃ (p : Nat) (s : State), (unclocked s = false ∧ (port s p).stopping = true ∧ (port s p).stopAt + 122880 ≤ now s)) ∧
    (∃ (p : Nat) (s : State), (unclocked s = false ∧ ((port s p).stopping = false ∨ now s < (port s p).stopAt + 122880))) :=
  ⟨⟨wclkOff, by decide +kernel⟩,
    ⟨5, wport (fun q => { q with phase := .armed, startAt := some (now w) }), now w, by decide +kernel⟩,
    ⟨5, wport (fun q => { q with phase := .armed, startAt := some (now w + 1) }), now w + 1, by decide +kernel⟩,
    ⟨5, w, by decide +kernel⟩,
    ⟨w, by decide +kernel⟩,
    ⟨noPower, by decide +kernel⟩,
    ⟨5, wport (fun q => { q with stopping := true, stopAt := now w - 122880 }), by decide +kernel⟩,
    ⟨5, w, by decide +kernel⟩⟩

theorem witness_PortInstants_2 :
    (∃ (p : Nat) (s : State), (unclocked s = false ∧ ((port s p).stopping = false ∨ now s < (port s p).stopAt + 122880))) ∧
    (∃ (p : Nat) (s : State), (unclocked s = false ∧ (port s p).cfg.role = 1 ∧ ((port s p).phase = .running ∨ (port s p).phase
      = .reacquiring ∨ (port s p).phase = .rateMuted))) ∧
    (∃ (p : Nat) (s : State), (unclocked s = false ∧ clocked (port s p) = false)) ∧
    (∃ (p : Nat) (s : State), (unclocked s = false ∧ (port s p).phase = .lost)) ∧
    (∃ (p : Nat) (s : State), (unclocked s = false ∧ (port s p).phase ≠ .lost)) ∧
    (∃ (p : Nat) (s : State), (unclocked s = false ∧ (port s p).phase = .reacquiring)) ∧
    (∃ (p : Nat) (s : State), (unclocked s = false ∧ (port s p).phase ≠ .reacquiring)) ∧
    (∃ (p : Nat) (s : State), (unclocked s = false ∧ (port s p).phase = .running ∧ isSlip (port s p).cfg = false)) ∧
    (∃ (p : Nat) (s : State), (unclocked s = false ∧ ((port s p).phase ≠ .running ∨ isSlip (port s p).cfg = true))) :=
  ⟨⟨5, wport (fun q => { q with stopping := true, stopAt := now w - 122879 }), by decide +kernel⟩,
    ⟨5, wpo (fun q => { q with phase := .running }), by decide +kernel⟩,
    ⟨5, w, by decide +kernel⟩,
    ⟨5, wpo (fun q => { q with phase := .lost }), by decide +kernel⟩,
    ⟨5, w, by decide +kernel⟩,
    ⟨5, wpo (fun q => { q with phase := .reacquiring }), by decide +kernel⟩,
    ⟨5, w, by decide +kernel⟩,
    ⟨5, wpo (fun q => { q with phase := .running }), by decide +kernel⟩,
    ⟨5, w, by decide +kernel⟩⟩

theorem witness_PortInstants_3 :
    (∃ (p : Nat) (s : State), (unclocked s = false ∧ ((port s p).phase ≠ .running ∨ isSlip (port s p).cfg = true))) ∧
    (∃ (p : Nat) (s : State), (unclocked s = false ∧ (port s p).cfg.role = 1 ∧ (port s p).phase = .running)) ∧
    (∃ (p : Nat) (s : State), (unclocked s = false ∧ ((port s p).cfg.role ≠ 1 ∨ (port s p).phase ≠ .running))) ∧
    (∃ (p : Nat) (s : State), (unclocked s = false ∧ isSlip (port s p).cfg = true ∧ (port s p).cfg.role = 1 ∧ (port s p).phase
      = .running)) ∧
    (∃ (p : Nat) (s : State), (unclocked s = false ∧ isSlip (port s p).cfg = false)) ∧
    (∃ (p : Nat) (s : State) (r : _) (x : _) (o : _) (u : _) (same : Prop), (unclocked s = false ∧ clocked (port s p) = true)
      ∧ u = onPort p (measuredPort r x o) s ∧ same = (portClass (port u p) = cfgClass (port s p).cfg) ∧ ((port s p).phase =
      .running ∧ same)) ∧
    (∃ (p : Nat) (s : State) (r : _) (x : _) (o : _) (u : _) (same : Prop), (unclocked s = false ∧ clocked (port s p) = true)
      ∧ u = onPort p (measuredPort r x o) s ∧ same = (portClass (port u p) = cfgClass (port s p).cfg) ∧ ((port s p).phase =
      .running ∧ ¬ same ∧ (port s p).differs = 0)) ∧
    (∃ (p : Nat) (s : State) (r : _) (x : _) (o : _) (u : _) (same : Prop), (unclocked s = false ∧ clocked (port s p) = true)
      ∧ u = onPort p (measuredPort r x o) s ∧ same = (portClass (port u p) = cfgClass (port s p).cfg) ∧ ((port s p).phase =
      .running ∧ ¬ same ∧ (port s p).differs ≠ 0)) ∧
    (∃ (p : Nat) (s : State) (r : _) (x : _) (o : _) (u : _) (same : Prop), (unclocked s = false ∧ clocked (port s p) = true)
      ∧ u = onPort p (measuredPort r x o) s ∧ same = (portClass (port u p) = cfgClass (port s p).cfg) ∧ ((port s p).phase =
      .reacquiring ∧ same)) ∧
    (∃ (p : Nat) (s : State) (r : _) (x : _) (o : _) (u : _) (same : Prop), (unclocked s = false ∧ clocked (port s p) = true)
      ∧ u = onPort p (measuredPort r x o) s ∧ same = (portClass (port u p) = cfgClass (port s p).cfg) ∧ ((port s p).phase =
      .reacquiring ∧ ¬ same)) ∧
    (∃ (p : Nat) (s : State) (r : _) (x : _) (o : _) (u : _) (same : Prop), (unclocked s = false ∧ clocked (port s p) = true)
      ∧ u = onPort p (measuredPort r x o) s ∧ same = (portClass (port u p) = cfgClass (port s p).cfg) ∧ ((port s p).phase =
      .rateMuted ∧ same)) :=
  ⟨⟨5, wport (fun q => { q with phase := .running, cfg := cs }), by decide +kernel⟩,
    ⟨5, wpo (fun q => { q with phase := .running }), by decide +kernel⟩,
    ⟨5, w, by decide +kernel⟩,
    ⟨5, wport (fun q => { q with phase := .running, cfg := cs }), by decide +kernel⟩,
    ⟨5, w, by decide +kernel⟩,
    ⟨5, pRun id, 48000000, 0, 0, _, _, by decide +kernel, rfl, rfl, by decide +kernel⟩,
    ⟨5, pRun id, 96000000, 0, 0, _, _, by decide +kernel, rfl, rfl, by decide +kernel⟩,
    ⟨5, pRun (fun q => { q with differs := 1 }), 96000000, 0, 0, _, _, by decide +kernel, rfl, rfl, by decide +kernel⟩,
    ⟨5, pIn .reacquiring 0, 48000000, 0, 0, _, _, by decide +kernel, rfl, rfl, by decide +kernel⟩,
    ⟨5, pIn .reacquiring 0, 96000000, 0, 0, _, _, by decide +kernel, rfl, rfl, by decide +kernel⟩,
    ⟨5, pIn .rateMuted 0, 48000000, 0, 0, _, _, by decide +kernel, rfl, rfl, by decide +kernel⟩⟩

theorem witness_PortInstants_4 :
    (∃ (p : Nat) (s : State) (r : _) (x : _) (o : _) (u : _) (same : Prop), (unclocked s = false ∧ clocked (port s p) = true)
      ∧ u = onPort p (measuredPort r x o) s ∧ same = (portClass (port u p) = cfgClass (port s p).cfg) ∧ ((port s p).phase =
      .rateMuted ∧ ¬ same ∧ portClass (port u p) = portClass (port s p))) ∧
    (∃ (p : Nat) (s : State) (r : _) (x : _) (o : _) (u : _) (same : Prop), (unclocked s = false ∧ clocked (port s p) = true)
      ∧ u = onPort p (measuredPort r x o) s ∧ same = (portClass (port u p) = cfgClass (port s p).cfg) ∧ ((port s p).phase =
      .rateMuted ∧ ¬ same ∧ portClass (port u p) ≠ portClass (port s p))) :=
  ⟨⟨5, pIn .rateMuted 0, 1, 0, 0, _, _, by decide +kernel, rfl, rfl, by decide +kernel⟩,
    ⟨5, pIn .rateMuted 0, 96000000, 0, 0, _, _, by decide +kernel, rfl, rfl, by decide +kernel⟩⟩

theorem witness_RouterInstants :
    (∃ (b : Bool) (n : Nat) (s : State) (i : _), ((rampOf s b n).phase = 1 ∧ firstCrossing (rampOf s b n).edge (zcChannel s b
      n) = some i)) ∧
    (∃ (b : Bool) (n : Nat) (s : State) (i : _), ((rampOf s b n).phase ≠ 1 ∨ firstCrossing (rampOf s b n).edge (zcChannel s b
      n) ≠ some i)) ∧
    (∃ (b : Bool) (n : Nat) (s : State), ((rampOf s b n).phase = 1 ∧ (rampOf s b n).since + zcLimit s ≤ now s)) ∧
    (∃ (b : Bool) (n : Nat) (s : State), ((rampOf s b n).phase ≠ 1 ∨ now s < (rampOf s b n).since + zcLimit s)) ∧
    (∃ (n : Nat) (s : State), ((route s n).fading = true ∧ (route s n).ramp.endsNow = true)) ∧
    (∃ (n : Nat) (s : State), ((route s n).fading = false ∨ (route s n).ramp.endsNow = false)) :=
  ⟨⟨true, 15, wbus 0, 1, by decide +kernel⟩,
    ⟨true, 15, w, 0, by decide +kernel⟩,
    ⟨true, 15, wbus 0, by decide +kernel⟩,
    ⟨true, 15, w, by decide +kernel⟩,
    ⟨511, { w with audio := { w.audio with routes := [(511, { Route.reset with inUse := true, fading := true })] } },
      by decide +kernel⟩,
    ⟨511, w, by decide +kernel⟩⟩

theorem witness_AnalogInstants_1 :
    (∃ (s : State) (t : _), (((ana s t).phase = 1 ∨ (ana s t).phase = 3) ∧ (ana s t).endAt ≤ now s ∧ (ana s t).up = true ∧ t <
      6)) ∧
    (∃ (s : State) (t : _), (((ana s t).phase = 1 ∨ (ana s t).phase = 3) ∧ (ana s t).endAt ≤ now s ∧ (ana s t).up = true ∧ 6 ≤
      t)) ∧
    (∃ (s : State) (t : _), (((ana s t).phase = 1 ∨ (ana s t).phase = 3) ∧ (ana s t).endAt ≤ now s ∧ (ana s t).up = false)) ∧
    (∃ (s : State) (t : _), (((ana s t).phase ≠ 1 ∧ (ana s t).phase ≠ 3) ∨ now s < (ana s t).endAt)) ∧
    (∃ (s : State) (b : _), (domDown s Dom.ana = false ∧ s.ana.jack1 ≠ b ∧ s.ana.jack1At + msTicks (parGet s P.audJackState8)
      ≤ now s)) ∧
    (∃ (s : State) (b : _), (domDown s Dom.ana = false ∧ s.ana.jack2 ≠ b ∧ s.ana.jack2At + msTicks (parGet s P.audJackState8)
      ≤ now s)) ∧
    (∃ (s : State) (j : _) (b : _), (domDown s Dom.ana = true ∨ (j ≠ 1 ∧ j ≠ 2) ∨ (j = 1 ∧ (s.ana.jack1 = b ∨ now s <
      s.ana.jack1At + msTicks (parGet s P.audJackState8))) ∨ (j = 2 ∧ (s.ana.jack2 = b ∨ now s < s.ana.jack2At + msTicks (parGet
      s P.audJackState8))))) :=
  ⟨⟨wana 5 (ao 1 true), 5, by decide +kernel⟩,
    ⟨wana 9 (ao 3 true), 9, by decide +kernel⟩,
    ⟨wana 6 (ao 3 false), 6, by decide +kernel⟩,
    ⟨w, 0, by decide +kernel⟩,
    ⟨w, true, by decide +kernel⟩,
    ⟨w, true, by decide +kernel⟩,
    ⟨noPower, 1, true, by decide +kernel⟩⟩

theorem witness_AnalogInstants_2 :
    (∃ (s : State) (j : _) (b : _), (domDown s Dom.ana = true ∨ (j ≠ 1 ∧ j ≠ 2) ∨ (j = 1 ∧ (s.ana.jack1 = b ∨ now s <
      s.ana.jack1At + msTicks (parGet s P.audJackState8))) ∨ (j = 2 ∧ (s.ana.jack2 = b ∨ now s < s.ana.jack2At + msTicks (parGet
      s P.audJackState8))))) ∧
    (∃ (s : State), (speakerLive s = true ∧ (s.ana.spkFaults.filter (fun t => now s < t + sec1)).length ≤ 1)) ∧
    (∃ (s : State), (speakerLive s = true ∧ 2 ≤ (s.ana.spkFaults.filter (fun t => now s < t + sec1)).length)) ∧
    (∃ (s : State), speakerLive s = true) ∧
    (∃ (s : State), speakerLive s = false) ∧
    (∃ (s : State), (s.ana.spkRestart = true ∧ domDown s Dom.ana = false ∧ s.ana.spkDue ≤ now s)) ∧
    (∃ (s : State), (s.ana.spkRestart = false ∨ domDown s Dom.ana = true ∨ now s < s.ana.spkDue)) :=
  ⟨⟨w, 1, false, by decide +kernel⟩,
    ⟨{ wspk [0, 1] with timebase := 122880000 }, by decide +kernel⟩,
    ⟨wspk [now w, now w], by decide +kernel⟩,
    ⟨wspk [], by decide +kernel⟩,
    ⟨w, by decide +kernel⟩,
    ⟨wanf (fun q => { q with spkRestart := true, spkDue := now w }), by decide +kernel⟩,
    ⟨w, by decide +kernel⟩⟩

theorem witness_AnalogInstants_3 :
    (∃ (s : State) (n : _), ((n = 1 ∨ n = 2) ∧ domDown s Dom.ana = false ∧ (ana s (3 + n)).phase ≠ 0 ∧ (ana s (3 + n)).limit =
      false)) ∧
    (∃ (s : State) (n : _), (domDown s Dom.ana = true ∨ (n ≠ 1 ∧ n ≠ 2) ∨ (ana s (3 + n)).phase = 0 ∨ (ana s (3 + n)).limit =
      true)) ∧
    (∃ (n : _), (n = 1 ∨ n = 2)) ∧
    (∃ (n : _), (n ≠ 1 ∧ n ≠ 2)) :=
  ⟨⟨wana 4 (ao 2 true), 1, by decide +kernel⟩,
    ⟨noPower, 1, by decide +kernel⟩,
    ⟨1, by decide +kernel⟩,
    ⟨0, by decide +kernel⟩⟩

theorem witness_InstrumentInstants_1 :
    (∃ (s : State) (t : _), (domDown s Dom.ana = false ∧ t ≤ 3 ∧ timerOn s t = true ∧ now s % (10 * parGet s (P.measTmPeriod
      t)) = 10 * parGet s (P.measTmPhase t))) ∧
    (∃ (s : State) (t : _), (domDown s Dom.ana = false ∧ (3 < t ∨ timerOn s t = false ∨ now s % (10 * parGet s (P.measTmPeriod
      t)) ≠ 10 * parGet s (P.measTmPhase t)))) ∧
    (∃ (s : State) (p : _), (domDown s Dom.ana = false ∧ p ≤ 3 ∧ parGet s (P.measPwmCfg p) = 1 ∧ (pwmNow s p).rises (parGet s
      (P.measPwmCfg1 p) == 1) = some (now s))) ∧
    (∃ (s : State) (p : _), (domDown s Dom.ana = false ∧ (3 < p ∨ parGet s (P.measPwmCfg p) ≠ 1 ∨ (pwmNow s p).rises (parGet s
      (P.measPwmCfg1 p) == 1) ≠ some (now s)))) ∧
    (∃ (s : State) (n : _) (c : _), (domDown s Dom.ana = false ∧ n ≤ 1 ∧ (fine s n).conv = some c ∧ c.due ≤ now s ∧ c.urgent =
      false ∧ ((fine s n).trigger = 1 → refReady s = true))) ∧
    (∃ (s : State) (n : _) (c : _), (domDown s Dom.ana = false ∧ n ≤ 1 ∧ (fine s n).conv = some c ∧ c.due ≤ now s ∧ c.urgent =
      false ∧ (fine s n).trigger = 1 ∧ refReady s = false)) ∧
    (∃ (s : State) (n : _) (c : _), (domDown s Dom.ana = false ∧ n ≤ 1 ∧ (fine s n).conv = some c ∧ c.due ≤ now s ∧ c.urgent =
      true)) :=
  ⟨⟨wpar [(P.measTmCfg 3, 1), (P.measTmPeriod 3, 6144)], 3, by decide +kernel⟩,
    ⟨w, 4, by decide +kernel⟩,
    ⟨{ winst (fun q => { q with pwm := [(3, { Pwm.reset with since := now w, period := 1000, duty := 491 })] }) with par := [(P.measPwmCfg 3, 1)] },
      3, by decide +kernel⟩,
    ⟨w, 4, by decide +kernel⟩,
    ⟨wfa (fun q => { q with conv := some (cv false) }), 0, cv false, by decide +kernel⟩,
    ⟨wfa (fun q => { q with conv := some (cv false), trigger := 1 }), 0, cv false, by decide +kernel⟩,
    ⟨wfa (fun q => { q with conv := some (cv true) }), 0, cv true, by decide +kernel⟩⟩

theorem witness_InstrumentInstants_2 :
    (∃ (s : State) (n : _), (domDown s Dom.ana = false ∧ (fine s n).conv = none)) ∧
    (∃ (s : State) (n : _) (c : _), (domDown s Dom.ana = false ∧ (fine s n).conv = some c ∧ (1 < n ∨ now s < c.due))) ∧
    (∃ (s : State), (domDown s Dom.ana = false ∧ parGet s P.measRefEn = 1 ∧ s.inst.refAt + msTicks 5 ≤ now s)) ∧
    (∃ (s : State), (domDown s Dom.ana = false ∧ (parGet s P.measRefEn ≠ 1 ∨ now s < s.inst.refAt + msTicks 5))) ∧
    (∃ (s : State), (domDown s Dom.ana = false ∧ s.inst.slewAt + usTicks 1 ≤ now s)) ∧
    (∃ (s : State), (domDown s Dom.ana = false ∧ now s < s.inst.slewAt + usTicks 1)) ∧
    (∃ (s : State) (c : _), (domDown s Dom.ana = false ∧ (cdac s c).phase = 2 ∧ (cdac s c).out = 0)) ∧
    (∃ (s : State) (c : _), (domDown s Dom.ana = false ∧ (cdac s c).phase = 3 ∧ (cdac s c).phaseAt + usTicks 50 ≤ now s)) ∧
    (∃ (s : State) (c : _), (domDown s Dom.ana = false ∧ (cdac s c).phase = 4 ∧ (cdac s c).out = (cdac s c).target)) ∧
    (∃ (s : State) (c : _), (domDown s Dom.ana = false ∧ ((cdac s c).phase ≤ 1 ∨ 4 < (cdac s c).phase ∨ ((cdac s c).phase = 2
      ∧ (cdac s c).out ≠ 0) ∨ ((cdac s c).phase = 3 ∧ now s < (cdac s c).phaseAt + usTicks 50) ∨ ((cdac s c).phase = 4 ∧ (cdac s
      c).out ≠ (cdac s c).target)))) :=
  ⟨⟨w, 1, by decide +kernel⟩,
    ⟨wfa (fun q => { q with conv := some { cv true with due := now w + 1 } }), 0, { cv true with due := now w + 1 },
      by decide +kernel⟩,
    ⟨wpar [(P.measRefEn, 1)], by decide +kernel⟩,
    ⟨w, by decide +kernel⟩,
    ⟨w, by decide +kernel⟩,
    ⟨winst (fun q => { q with slewAt := now w }), by decide +kernel⟩,
    ⟨wcd (fun q => { q with phase := 2 }), 7, by decide +kernel⟩,
    ⟨wcd (fun q => { q with phase := 3 }), 7, by decide +kernel⟩,
    ⟨wcd (fun q => { q with phase := 4, out := 5, target := 5 }), 7, by decide +kernel⟩,
    ⟨w, 7, by decide +kernel⟩⟩

theorem witness_InstrumentInstants_3 :
    ∃ (s : State) (c : _), (domDown s Dom.ana = false ∧ ((cdac s c).phase ≤ 1 ∨ 4 < (cdac s c).phase ∨ ((cdac s c).phase = 2
      ∧ (cdac s c).out ≠ 0) ∨ ((cdac s c).phase = 3 ∧ now s < (cdac s c).phaseAt + usTicks 50) ∨ ((cdac s c).phase = 4 ∧ (cdac s
      c).out ≠ (cdac s c).target))) :=
  ⟨wcd (fun q => { q with phase := 2, out := 1 }), 7, by decide +kernel⟩

theorem witness_DeadlineInstants_1 :
    (∃ (d : Nat) (s : State), (d ≤ 11 ∧ domOn s d = true ∧ restarting s d = false)) ∧
    (∃ (d : Nat) (s : State), (11 < d ∨ domOn s d = false ∨ restarting s d = true)) ∧
    (∃ (d : Nat) (s : State), (2 ≤ d ∧ d ≤ 11 ∧ domOn s d = true ∧ restarting s d = false ∧ s.rck.wdog.contains d = false) ∧
      (∀ t, smFind s.rck.servedAt d = some t → t + 1228800 ≤ now s)) ∧
    (∃ (d : Nat) (s : State), (d < 2 ∨ 11 < d ∨ domOn s d = false ∨ restarting s d = true ∨ s.rck.wdog.contains d = true ∨ (∃
      t, smFind s.rck.servedAt d = some t ∧ now s < t + 1228800))) :=
  ⟨⟨11, w, by decide +kernel⟩,
    ⟨12, w, by decide +kernel⟩,
    ⟨11, w, by decide +kernel, (fun _ h => nomatch h)⟩,
    ⟨1, w, .inl (by decide +kernel)⟩⟩

theorem witness_DeadlineInstants_2 :
    (∃ (d : Nat) (s : State), (restarting s d = true ∧ (d = Dom.ckg → s.clk.pllLocked = true))) ∧
    (∃ (s : State), (restarting s Dom.ckg = true ∧ s.clk.pllLocked = false)) ∧
    (∃ (d : Nat) (s : State), restarting s d = false) :=
  ⟨⟨11, wre [11], by decide +kernel⟩,
    ⟨{ wre [Dom.ckg] with clk := Clocks.reset }, by decide +kernel⟩,
    ⟨5, w, by decide +kernel⟩⟩

theorem witness_DueInstants_1 :
    (∃ (s : State) (x : TopRead), (s.seq.running = true ∧ (s.age.countAt = 0 ∨ elapsed s (s.age.countAt + 1228800) = true) ∧
      domOn s (topDomain x.top) = true ∧ x.top < 32 ∧ topExcluded s x.top = false) ∧ topFaulty s x.top x.reading = false) ∧
    (∃ (s : State) (x : TopRead), (s.seq.running = true ∧ (s.age.countAt = 0 ∨ elapsed s (s.age.countAt + 1228800) = true) ∧
      domOn s (topDomain x.top) = true ∧ x.top < 32 ∧ topExcluded s x.top = false) ∧ topFaulty s x.top x.reading = true) ∧
    (∃ (s : State) (x : TopRead), (s.seq.running = true ∧ (s.age.countAt = 0 ∨ elapsed s (s.age.countAt + 1228800) = true) ∧
      domOn s (topDomain x.top) = false ∧ x.top < 32)) ∧
    (∃ (s : State), (s.seq.running = true ∧ (s.age.countAt = 0 ∨ elapsed s (s.age.countAt + 1228800) = true))) ∧
    (∃ (s : State), (s.seq.running = false ∨ (s.age.countAt ≠ 0 ∧ elapsed s (s.age.countAt + 1228800) = false))) ∧
    (∃ (s : State), (1440 ≤ parGet s P.rckHoursSincePlan ∧ s.age.plan = none ∧ s.supply.brown = false ∧ s.power.entry = none ∧
      s.power.state ≤ 2)) ∧
    (∃ (s : State), 1440 ≤ parGet s P.rckHoursSincePlan ∧ (∀ p, s.age.plan = some p → p.kind ≠ 2 ∧ p.kind ≠ 3) ∧
      (s.age.plan.isSome = true ∨ s.supply.brown = true ∨ s.power.entry.isSome = true ∨ 2 < s.power.state)) :=
  ⟨⟨wage 0, ⟨0, Config.topBaseline 0⟩, by decide +kernel, sound_top⟩,
    ⟨wage (-1 - baseline 0), ⟨0, 0⟩, by decide +kernel, faulty_top⟩,
    ⟨noPower, ⟨31, 0⟩, by decide +kernel⟩,
    ⟨w, by decide +kernel⟩,
    ⟨woff, by decide +kernel⟩,
    ⟨whours 1440, by decide +kernel⟩,
    ⟨{ wpln { pl none with kind := 1 } with par := [(P.rckHoursSincePlan, 1440)] }, by decide +kernel, fun _ h =>
      Option.some.inj h ▸ ⟨nofun, nofun⟩, by decide +kernel⟩⟩

theorem witness_DueInstants_2 :
    (∃ (s : State), 1440 ≤ parGet s P.rckHoursSincePlan ∧ (∀ p, s.age.plan = some p → p.kind ≠ 2 ∧ p.kind ≠ 3) ∧
      (s.age.plan.isSome = true ∨ s.supply.brown = true ∨ s.power.entry.isSome = true ∨ 2 < s.power.state)) ∧
    (∃ (s : State), (parGet s P.rckHoursSincePlan < 1440 ∨ (∃ p, s.age.plan = some p ∧ (p.kind = 2 ∨ p.kind = 3)))) ∧
    (∃ (s : State) (p : _), (s.age.plan = some p ∧ elapsed s (p.stepAt + usTicks (parGet s P.rckVselSettle + 1000)) = false)) ∧
    (∃ (s : State), (∀ p, s.age.plan = some p → p.verifying = none ∧ elapsed s (p.stepAt + usTicks (parGet s P.rckVselSettle +
      1000)) = true)) ∧
    (∃ (s : State) (p : _), (s.age.plan = some p ∧ elapsed s (p.stepAt + usTicks (parGet s P.rckVselSettle + 1000)) = true)) ∧
    (∃ (s : State) (l : List TopRead) (p : _) (tops : _), (s.age.plan = some p ∧ elapsed s (p.stepAt + usTicks (parGet s
      P.rckVselSettle + 1000)) = true ∧ p.verifying = some true) ∧ tops = l.filter (fun x => decide (x.top < 32) && domOn s
      (topDomain x.top) && !topExcluded s x.top) ∧ p.u * |gainOf (vselNow s) (biasNow s) - gainOf (vselNow s - 1) (biasNow s)| /
      4 ≤ changeSeen tops s ∧ (takeReadings tops s).age.plan = some p) ∧
    (∃ (s : State) (p : _), (s.prot.proposal = some p ∧ p.patch = none ∧ p.made + sec30 ≤ now s)) ∧
    (∃ (s : State) (p : _), (s.prot.proposal = some p ∧ p.patch.isSome = true ∧ p.patchAt + sec30 ≤ now s)) ∧
    (∃ (s : State), (∀ p, s.prot.proposal = some p → p.patch.isSome = true ∨ now s < p.made + sec30)) :=
  ⟨⟨{ wpow (fun q => { q with state := 3 }) with par := [(P.rckHoursSincePlan, 1440)] }, by decide +kernel, (fun _ h =>
      nomatch h), by decide +kernel⟩,
    ⟨whours 1439, .inl (by decide +kernel)⟩,
    ⟨wpln (plAt (some true) (now w)), plAt (some true) (now w), by decide +kernel⟩,
    ⟨w, (fun _ h => nomatch h)⟩,
    ⟨wpln (plAt (some true) 0), plAt (some true) 0, by decide +kernel⟩,
    ⟨wpln (plAt (some true) 0), [], plAt (some true) 0, _, by decide +kernel, rfl, step_seen _ _, by decide +kernel⟩,
    ⟨wcos p0, p0, by decide +kernel⟩,
    ⟨wcos p9, p9, by decide +kernel⟩,
    ⟨w, (fun _ h => nomatch h)⟩⟩

theorem witness_DueInstants_3 :
    (∃ (s : State), (∀ p, s.prot.proposal = some p → p.patch.isSome = true ∨ now s < p.made + sec30)) ∧
    (∃ (s : State), (∀ p, s.prot.proposal = some p → p.patch = none ∨ now s < p.patchAt + sec30)) ∧
    (∃ (s : State) (n : _) (p : _), (smFind s.rattle.armed n = some p ∧ p.isArmed = true ∧ p.again.elim p.armedAt (fun x => x.2.2) + sec1 * parGet s
      P.tstArmLimit ≤ now s)) ∧
    (∃ (s : State) (n : _), (∀ p, smFind s.rattle.armed n = some p → p.isArmed = false ∨ now s < p.again.elim p.armedAt (fun x => x.2.2) + sec1 *
      parGet s P.tstArmLimit)) :=
  ⟨⟨wcos { p9 with made := 0 }, fun _ h => Option.some.inj h ▸ .inl rfl⟩,
    ⟨w, (fun _ h => nomatch h)⟩,
    ⟨warm pt, 9, pt, by decide +kernel⟩,
    ⟨w, 0, (fun _ h => nomatch h)⟩⟩

theorem witness_PeriodBoundary :
    (∃ (s : State), tbRuns s = true) ∧
    (∃ (s : State), (s.clk.pllLocked = false ∨ s.clk.bridging = true)) :=
  ⟨⟨w, by decide +kernel⟩,
    ⟨{ w with clk := Clocks.reset }, by decide +kernel⟩⟩

theorem witness_MemoryFrame :
    ∃ (c : Instr) (s : State) (t : State), memWriter c = false ∧ exec c s = .next t :=
  ⟨.xtalQualified, w, _, rfl, rfl⟩

theorem witness_MemoryFormKept :
    ∃ (s : State) (t : State), Memory.wf s.mem ∧ step s = .next t :=
  ⟨{ w with mem := [(3, 5)], pending := [.xtalQualified] }, _, by decide +kernel, rfl⟩

theorem witness_IdleStep :
    (∃ (s : State), (s.pending = [] ∧ s.clk.pllLocked = true ∧ s.clk.bridging = false ∧ (s.timebase.toNat + 1) % 61440 ≠ 0)) ∧
    (∃ (s : State), (s.pending = [] ∧ (s.clk.pllLocked = false ∨ s.clk.bridging = true ∨ (s.timebase.toNat + 1) % 61440 = 0))) :=
  ⟨⟨w, by decide +kernel⟩,
    ⟨{ w with timebase := 61439 }, by decide +kernel⟩⟩

theorem witness_PacketRoundTrip :
    ∃ (c : Instr) (h : Hdr) (op : Nat) (params : List Byte), (c.wf = true ∧ fitsPacket c = true) ∧ encodeCmd c = some (h, op,
      params) :=
  ⟨.linkOpen hd 63 500000000 2 1 0xFFFF 1023, hd, _, _, by decide +kernel, rfl⟩

theorem witness_PacketCrc :
    ∃ (body : List Byte), 4 ≤ body.length :=
  ⟨[1, 2, 3, 4], by decide +kernel⟩

theorem witness_PacketAssembly :
    ∃ (k : Chan) (params : List Byte) (s : State), (params.length ≤ 1024 ∧ (chan s k).discard = false ∧ (chan s k).asm = [] ∧
      cmdLevel s k + 6 + params.length ≤ 2048) :=
  ⟨.operator, [], w, by decide +kernel⟩

theorem witness_SpectrumReply :
    (∃ (h : Hdr) (f : Nat) (n : Nat) (s : State), (470000000 ≤ f ∧ 1 ≤ n ∧ n ≤ 1024) ∧ Starts (.rfGetSpectrum h f n) h 0x25 s
      ∧ (f - 470000000) / 130000 + n ≤ 4096) ∧
    (∃ (h : Hdr) (f : Nat) (n : Nat) (s : State), (470000000 ≤ f ∧ 1 ≤ n ∧ n ≤ 1024) ∧ Starts (.rfGetSpectrum h f n) h 0x25 s
      ∧ 4096 < (f - 470000000) / 130000 + n) :=
  ⟨⟨hd, 470000000, 1024, w, by decide +kernel, starts_of (by decide +kernel), by decide +kernel⟩,
    ⟨hd, 1002510000, 1, w, by decide +kernel, starts_of (by decide +kernel), by decide +kernel⟩⟩

theorem witness_PointerPostModify :
    (∃ (r : Rod) (p : Nat) (q : _), (p < 4 ∧ r.ap.length = 4 ∧ r.ba.length = 4 ∧ q < 4)) ∧
    (∃ (r : Rod) (p : Nat) (m : _) (b : Bead), (p < 4 ∧ r.ap.length = 4 ∧ r.ba.length = 4 ∧ (b = .mpy m ∨ b = .mac m ∨ b =
      .msu m ∨ b = .macl m))) ∧
    (∃ (r : Rod) (p : Nat) (o : _) (b : Bead), (p < 4 ∧ r.ap.length = 4 ∧ r.ba.length = 4 ∧ (b = .ld o ∨ b = .ldx o ∨ b = .add
      o ∨ b = .sub o ∨ b = .max o ∨ b = .min o ∨ b = .st o ∨ b = .stx o))) ∧
    (∃ (r : Rod) (p : Nat), (p < 4 ∧ r.ap.length = 4 ∧ r.ba.length = 4)) :=
  ⟨⟨Rod.reset, 0, 3, by decide +kernel⟩,
    ⟨Rod.reset, 3, ⟨0, 3, true, 3, true, 1, true⟩, .macl ⟨0, 3, true, 3, true, 1, true⟩, by decide +kernel⟩,
    ⟨Rod.reset, 3, ⟨3, true, 3, true, 31⟩, .stx ⟨3, true, 3, true, 31⟩, by decide +kernel⟩,
    ⟨Rod.reset, 3, by decide +kernel⟩⟩

theorem witness_RefusedCommands :
    (∃ (c : Instr) (h : Hdr) (op : Nat) (s : State) (u : State) (st : Status), c.wf = true ∧ Starts c h op s ∧ ((ownChecks
      (progOf c) (started h s) = (st, u) ∧ st ≠ .ok) ∨ (ownChecks (progOf c) (started h s) = (.ok, u) ∧ (∃ extra, (progOf
      c).guard (started h s) = some extra) ∧ h.cosign = false ∧ st = .needsCosign ∧ u = started h s)) ∧ (∀ g t, c ≠
      .powerStateRequest g t) ∧ (∀ g o, c ≠ .badOpcode g o)) ∧
    (∃ (c : Instr) (h : Hdr) (op : Nat) (s : State) (u : State) (st : Status) (g : _) (t : _), c.wf = true ∧ Starts c h op s ∧
      ((ownChecks (progOf c) (started h s) = (st, u) ∧ st ≠ .ok) ∨ (ownChecks (progOf c) (started h s) = (.ok, u) ∧ (∃ extra,
      (progOf c).guard (started h s) = some extra) ∧ h.cosign = false ∧ st = .needsCosign ∧ u = started h s)) ∧ c =
      .powerStateRequest g t) :=
  ⟨⟨.linkClose hd 63, hd, 0x31, w, (seen (.linkClose hd 63) w).2, (seen (.linkClose hd 63) w).1, by decide +kernel, starts_of
      (by decide +kernel), .inl (not_ok (by decide +kernel)), (fun _ _ h => nomatch h), (fun _ _ h => nomatch h)⟩,
    ⟨.powerStateRequest hd 5, hd, 0x90, w, (seen (.powerStateRequest hd 5) w).2, (seen (.powerStateRequest hd 5) w).1, hd, 5,
      by decide +kernel, starts_of (by decide +kernel), .inl (not_ok (by decide +kernel)), rfl⟩⟩

end Sys2Proof.Tests
end

section
/-! SUPPORT. The CRC-16 of packets as a register that takes in one bit at a time, and the fields of a packet that has
arrived whole (02 R45, R46, R50). -/

namespace Sys2Proof.Machine

/-- The register of the CRC after the bytes: `crc16` is its value. -/
def crcReg (bs : List Byte) : BitVec 16 := (bitsOf bs).foldl crcBit 0xFFFF#16

theorem crc16_eq_toNat_crcReg (bs : List Byte) : crc16 bs = (crcReg bs).toNat := rfl

theorem ofNat_crc16 (bs : List Byte) : BitVec.ofNat 16 (crc16 bs) = crcReg bs := by
  rw [crc16_eq_toNat_crcReg, BitVec.ofNat_toNat, BitVec.setWidth_eq]

theorem bitsOf_append_singleton (bs : List Byte) (b : Byte) : bitsOf (bs ++ [b]) = bitsOf bs ++ msbBits b := by
  simp [bitsOf]

/-- One more byte shifts its eight bits into the register, most significant first. -/
theorem crcReg_append_singleton (bs : List Byte) (b : Byte) :
    crcReg (bs ++ [b]) = (List.range 8).foldl (fun r i => crcBit r (b.getLsbD (7 - i))) (crcReg bs) := by
  simp only [crcReg, bitsOf_append_singleton, List.foldl_append, msbBits, List.foldl_map]

theorem crcBit_eq_ite (r : BitVec 16) (x : Bool) :
    crcBit r x = if r.getLsbD 15 = x then r <<< 1 else (r <<< 1) ^^^ 0x1021#16 := by
  simp only [crcBit, beq_iff_eq]

/-- The check value of 02 R46. -/
theorem crc16_check_value : crc16 [0x31, 0x32, 0x33, 0x34, 0x35, 0x36, 0x37, 0x38, 0x39] = 0x29B1 := by decide +kernel

/-- A field that lies inside the front part of a packet reads the same without the bytes behind it. -/
theorem fldAt_append_left {bs : List Byte} (tail : List Byte) {off n : Nat} (h : off + n ≤ bs.length) :
    fldAt (bs ++ tail) off n = fldAt bs off n := by
  rw [fldAt, List.drop_append_of_le_length (by omega), List.take_append_of_le_length (by rw [List.length_drop]; omega), fldAt]

/-- The two bytes behind the body, read as a little-endian field. -/
theorem fldAt_append_two (body : List Byte) (lo hi : Byte) :
    fldAt (body ++ [lo, hi]) body.length 2 = lo.toNat + 256 * hi.toNat := by
  simp [fldAt, leNat]

theorem hdrOf_append_left (k : Chan) {body : List Byte} (tail : List Byte) (h : 2 ≤ body.length) :
    hdrOf k (body ++ tail) = hdrOf k body := by
  have hflags : fldAt (body ++ tail) 1 1 = fldAt body 1 1 := fldAt_append_left tail h
  simp only [hdrOf, hflags]

theorem badCrcReply_append_left {body : List Byte} (tail : List Byte) (h : 2 ≤ body.length) :
    badCrcReply (body ++ tail) = badCrcReply body := by
  simp only [badCrcReply, List.take_append_of_le_length h]

/-- A reply is a body, from its opcode to its payload, and the little-endian CRC of that body (02 R48). -/
theorem replyBytes_eq_append_crc (op tag : Nat) (done : Bool) (st : Nat) (payload : List Byte) :
    ∃ body, replyBytes op tag done st payload =
      body ++ [BitVec.ofNat 8 (crc16 body), BitVec.ofNat 8 (crc16 body / 256)] :=
  ⟨[BitVec.ofNat 8 op, BitVec.ofNat 8 (tag % 16 + 16 * b2n done), BitVec.ofNat 8 st] ++ leBytes 2 payload.length ++ payload, rfl⟩

/-- What a packet of a body and two CRC bytes does as its last byte arrives: it waits to start where the CRC is that of the
body, and is counted and answered with BAD_CRC where it is not. -/
theorem packetIn_append_two (k : Chan) (body : List Byte) (lo hi : Byte) (s : State) (h : 4 ≤ body.length) :
    packetIn k (body ++ [lo, hi]) s = if crc16 body = lo.toNat + 256 * hi.toNat then
      pump { s with waiting := s.waiting ++ [⟨hdrOf k body, fldAt body 0 1, body.drop 4,
        decodeCmd (hdrOf k body) (fldAt body 0 1) (body.drop 4), body.length + 2⟩] }
    else bump P.sysBadCrcCount (onChan k (placeReply (badCrcReply body) none) s) := by
  have hlen : (body ++ [lo, hi]).length = body.length + 2 := by simp
  have hop : fldAt (body ++ [lo, hi]) 0 1 = fldAt body 0 1 := fldAt_append_left _ (by omega)
  have hhdr : hdrOf k (body ++ [lo, hi]) = hdrOf k body := hdrOf_append_left k _ (by omega)
  have hreply : badCrcReply (body ++ [lo, hi]) = badCrcReply body := badCrcReply_append_left _ (by omega)
  simp only [packetIn, hlen, Nat.add_sub_cancel, List.take_left, fldAt_append_two, hop, hhdr, hreply, ne_eq, ite_not]

end Sys2Proof.Machine

namespace Sys2Proof

open Machine

/-- Settles O56: a byte is eight steps of the CRC's register (`crcReg_append_singleton`), and the CRC is read from and written
to the two bytes behind the body (`packetIn_append_two`). -/
theorem packetCrc : Obligations.PacketCrc := by
  unfold Obligations.PacketCrc
  refine ⟨crc16_check_value, rfl, fun bs b => ?_, replyBytes_eq_append_crc, packetIn_append_two⟩
  rw [crc16_eq_toNat_crcReg, crcReg_append_singleton, ofNat_crc16]
  simp only [crcBit_eq_ite]

end Sys2Proof
end

section
/-! SUPPORT. RF_GET_SPECTRUM (05 R153): the level of a bin, and the answers of the command where its packet starts at once. -/

namespace Sys2Proof.Machine

/-- The level of a bin rests on the bins of the plan alone. -/
theorem spectrumLevel_congr {s t : State} (hb : t.rf.bins = s.rf.bins) (b : Nat) : spectrumLevel t b = spectrumLevel s b := by
  simp only [spectrumLevel, hb]

@[simp] theorem spectrumLevel_started (h : Hdr) (s : State) (b : Nat) : spectrumLevel (started h s) b = spectrumLevel s b :=
  spectrumLevel_congr (by simp) b

/-- The payload of a reply to RF_GET_SPECTRUM: the levels of `n` bins from bin `b`. -/
def spectrumPayload (s : State) (b n : Nat) : List Byte :=
  (List.range n).flatMap (fun i => sBytes 2 (spectrumLevel s (b + i)))

variable {h : Hdr} {f n : Nat} {s : State}

/-- A request that the plan holds is answered with the levels of its bins. -/
theorem exec_rfGetSpectrum_of_le (hf : 470000000 ≤ f) (hn : 1 ≤ n) (hn' : n ≤ 1024)
    (hs : Starts (.rfGetSpectrum h f n) h 0x25 s) (hlast : (f - 470000000) / 130000 + n ≤ 4096) :
    exec (.rfGetSpectrum h f n) s =
      .next (replied h 0x25 (spectrumPayload s ((f - 470000000) / 130000) n) (started h s)) := by
  have hcheck : (progRfGetSpectrum f n).check (started h s) = (.ok, started h s) := by
    have hrange : 470000000 ≤ f ∧ 1 ≤ n ∧ n ≤ 1024 ∧ (f - 470000000) / 130000 + n ≤ 4096 := ⟨hf, hn, hn', hlast⟩
    simp only [progRfGetSpectrum, Prog.direct, if_pos hrange]
  have happly : (progRfGetSpectrum f n).apply 0 (started h s) =
      (.ok, spectrumPayload s ((f - 470000000) / 130000) n, started h s) := by
    simp only [progRfGetSpectrum, Prog.direct, spectrumPayload, spectrumLevel_started]
  exact congrArg _ (submit_direct hs rfl (fun _ => rfl) (fun _ => rfl) rfl hcheck (by simp) happly)

/-- A request that runs past the last bin is refused. -/
theorem exec_rfGetSpectrum_of_lt (hs : Starts (.rfGetSpectrum h f n) h 0x25 s) (hlast : 4096 < (f - 470000000) / 130000 + n) :
    exec (.rfGetSpectrum h f n) s = .next (turnedAway h 0x25 .badParam (started h s)) := by
  have hcheck : ownChecks (progRfGetSpectrum f n) (started h s) = (.badParam, started h s) := by
    have hrange : ¬(470000000 ≤ f ∧ 1 ≤ n ∧ n ≤ 1024 ∧ (f - 470000000) / 130000 + n ≤ 4096) :=
      fun ⟨_, _, _, hle⟩ => Nat.not_le.2 hlast hle
    simp only [ownChecks, progRfGetSpectrum, Prog.direct, if_neg hrange, if_true]
  exact congrArg _ (submit_refused hs hcheck nofun)

end Sys2Proof.Machine

namespace Sys2Proof

open Machine

/-- Settles O58: the checks of RF_GET_SPECTRUM pass exactly up to bin 4095 (`exec_rfGetSpectrum_of_le`,
`exec_rfGetSpectrum_of_lt`), and the level of a bin is that of 05 R153. -/
theorem spectrumReply : Obligations.SpectrumReply := by
  unfold Obligations.SpectrumReply
  intro h f n s hf hn hn' hs
  refine ⟨fun hlast => ?_, exec_rfGetSpectrum_of_lt hs⟩
  rw [exec_rfGetSpectrum_of_le hf hn hn' hs hlast]
  simp only [spectrumPayload, spectrumLevel, ge_iff_le, or_comm (a := _ = 0)]

end Sys2Proof
end

section
/-! SUPPORT. The pointers of a rod (10 R288): what a post-modify changes and leaves, and the rod that each Abacus instruction
with pointers hands to it, with the words it accessed through the pointers as they were. -/

namespace Sys2Proof.Machine

variable {r : Rod} {p : Nat}

theorem getD_set {l : List Int} (h : p < l.length) (q : Nat) (v : Int) :
    (l.set q v).getD p 0 = if q = p then v else l.getD p 0 := by
  simp only [List.getD_eq_getElem?_getD, List.getElem?_set]
  split
  case isTrue hq => rw [hq, if_pos h, Option.getD_some]
  case isFalse => rfl

/-! ### Post-modify -/

@[simp] theorem postModify_ba (q : Nat) (on : Bool) (r : Rod) : (postModify q on r).ba = r.ba := by cases on <;> rfl
@[simp] theorem postModify_md (q : Nat) (on : Bool) (r : Rod) : (postModify q on r).md = r.md := by cases on <;> rfl
@[simp] theorem postModify_ml (q : Nat) (on : Bool) (r : Rod) : (postModify q on r).ml = r.ml := by cases on <;> rfl
@[simp] theorem postModify_acc (q : Nat) (on : Bool) (r : Rod) : (postModify q on r).acc = r.acc := by cases on <;> rfl
@[simp] theorem postModify_data (q : Nat) (on : Bool) (r : Rod) : (postModify q on r).data = r.data := by cases on <;> rfl
@[simp] theorem postModify_ap_length (q : Nat) (on : Bool) (r : Rod) :
    (postModify q on r).ap.length = r.ap.length := by
  cases on
  case false => rfl
  case true => exact List.length_set

theorem postModify_ap_getD (hp : p < r.ap.length) (q : Nat) (on : Bool) :
    (postModify q on r).ap.getD p 0 =
      if q = p ∧ on = true then stepPtr r p (r.md.getD p 0) else r.ap.getD p 0 := by
  cases on
  case false => simp [postModify]
  case true =>
    simp only [postModify, if_true, getD_set hp, and_true]
    by_cases hq : q = p
    · rw [hq]
    · rw [if_neg hq, if_neg hq]

/-- The post-modify of another pointer does not change where a pointer steps to. -/
theorem stepPtr_postModify_of_ne (hp : p < r.ap.length) {q : Nat} (hq : q ≠ p) (on : Bool) (md : Int) :
    stepPtr (postModify q on r) p md = stepPtr r p md := by
  have hap : (postModify q on r).ap.getD p 0 = r.ap.getD p 0 := by
    rw [postModify_ap_getD hp, if_neg (fun ⟨h, _⟩ => hq h)]
  simp only [stepPtr, hap, postModify_ba, postModify_ml]

/-- The post-modify of an M-format instruction: of both pointers, or once of a pointer that is named twice. -/
def postModifyM (m : FmtM) (r : Rod) : Rod :=
  if m.xp = m.yp then postModify m.xp (m.xm || m.ym) r else postModify m.yp m.ym (postModify m.xp m.xm r)

@[simp] theorem postModifyM_ba (m : FmtM) (r : Rod) : (postModifyM m r).ba = r.ba := by
  unfold postModifyM; split <;> simp
@[simp] theorem postModifyM_md (m : FmtM) (r : Rod) : (postModifyM m r).md = r.md := by
  unfold postModifyM; split <;> simp
@[simp] theorem postModifyM_ml (m : FmtM) (r : Rod) : (postModifyM m r).ml = r.ml := by
  unfold postModifyM; split <;> simp
@[simp] theorem postModifyM_acc (m : FmtM) (r : Rod) : (postModifyM m r).acc = r.acc := by
  unfold postModifyM; split <;> simp

theorem postModifyM_ap_getD (hp : p < r.ap.length) (m : FmtM) :
    (postModifyM m r).ap.getD p 0 =
      if (m.xp = p ∧ m.xm = true) ∨ (m.yp = p ∧ m.ym = true) then stepPtr r p (r.md.getD p 0) else r.ap.getD p 0 := by
  unfold postModifyM
  split
  case isTrue hxy => simp only [postModify_ap_getD hp, hxy, Bool.or_eq_true, and_or_left]
  case isFalse hxy =>
    rw [postModify_ap_getD (by simpa using hp), postModify_ap_getD hp, postModify_md]
    by_cases hy : m.yp = p
    · have hx : m.xp ≠ p := hy ▸ hxy
      simp only [stepPtr_postModify_of_ne hp hx, hx, false_and, false_or, if_false]
    · simp only [hy, false_and, or_false, if_false]

/-! ### The rod that an instruction hands to its post-modify -/

/-- An M-format instruction reads through the pointers as they were, and then modifies them. -/
theorem runM_fst (m : FmtM) (f : Int → Int → Int → Int → Int) (x : Rod × Sats) :
    (runM m f x).1 = postModifyM m { x.1 with acc := beads.map (fun b => acc40 (f (accOf x.1 b)
      (readWord x.1 true (beadAddr true m.xs b (x.1.ap.getD m.xp 0)))
      (readWord x.1 true (beadAddr true m.xs b (stepPtr x.1 m.xp 1)) % 65536)
      (readWord x.1 m.yData (beadAddr m.yData m.ys b (x.1.ap.getD m.yp 0))))) } := by
  simp only [runM, postModifyM, setAcc, List.map_map, Function.comp_def]

/-- An O-format instruction of one word reads through the pointer as it was. -/
theorem runO_fst (o : FmtO) (f : Int → Int → Int) (x : Rod × Sats) :
    (runO o f x).1 = postModify o.p o.pm { x.1 with acc := beads.map (fun b => acc40 (f (accOf x.1 b)
      (readWord x.1 o.flag (beadAddr o.flag o.sp b (x.1.ap.getD o.p 0)) * 2 ^ o.sh))) } := by
  simp only [runO, setAcc, List.map_map, Function.comp_def]

theorem runBead_ldx_fst (o : FmtO) (r : Rod) (c : Sats) :
    (runBead (.ldx o) (r, c)).1 = postModify o.p o.pm { r with acc := beads.map (fun b => acc40
      ((readWord r true (beadAddr true o.sp b (r.ap.getD o.p 0)) * 256 +
        readWord r true (beadAddr true o.sp b (stepPtr r o.p 1)) % 256) * 2 ^ o.sh)) } := by
  simp only [runBead, setAcc, List.map_map, Function.comp_def]

/-- Stores of the beads, each of its own value, gathered into one new data memory. -/
theorem beads_foldl_data (v : Nat → Int) (store : SMap Int → Nat → Int → SMap Int) (r : Rod) :
    beads.foldl (fun r b => { r with data := store r.data b ((beads.map v).getD b 0) }) r =
      { r with data := beads.foldl (fun d b => store d b (v b)) r.data } := rfl

theorem runBead_st_fst (o : FmtO) (r : Rod) (c : Sats) :
    (runBead (.st o) (r, c)).1 = postModify o.p o.pm { r with data := beads.foldl (fun d b =>
      smSet 0 d (beadAddr true o.sp b (r.ap.getD o.p 0))
        (clampI (-32768) 32767 (storeRound o.flag o.sh (accOf r b)))) r.data } := by
  simp only [runBead, writeWord]
  exact congrArg _ (beads_foldl_data _ (fun d b v =>
    smSet 0 d (beadAddr true o.sp b (r.ap.getD o.p 0)) (clampI (-32768) 32767 v)) r)

theorem runBead_stx_fst (o : FmtO) (r : Rod) (c : Sats) :
    (runBead (.stx o) (r, c)).1 = postModify o.p o.pm { r with data := beads.foldl (fun d b =>
      smSet 0 (smSet 0 d (beadAddr true o.sp b (r.ap.getD o.p 0))
          (clampI (-8388608) 8388607 (storeRound o.flag o.sh (accOf r b)) / 256))
        (beadAddr true o.sp b (stepPtr r o.p 1))
        (clampI (-8388608) 8388607 (storeRound o.flag o.sh (accOf r b)) % 256)) r.data } := by
  simp only [runBead, writeWord]
  exact congrArg _ (beads_foldl_data _ (fun d b v =>
    smSet 0 (smSet 0 d (beadAddr true o.sp b (r.ap.getD o.p 0)) (clampI (-8388608) 8388607 v / 256))
      (beadAddr true o.sp b (stepPtr r o.p 1)) (clampI (-8388608) 8388607 v % 256)) r)

/-- Before its post-modify, an M-format instruction changes the accumulators alone. -/
theorem runBead_fst_of_fmtM {m : FmtM} {b : Bead} (hb : b = .mpy m ∨ b = .mac m ∨ b = .msu m ∨ b = .macl m) (r : Rod)
    (c : Sats) : ∃ acc, (runBead b (r, c)).1 = postModifyM m { r with acc := acc } := by
  rcases hb with rfl | rfl | rfl | rfl 
  · exact ⟨_, runM_fst m (fun _ x _ y => x * y) (r, c)⟩
  · exact ⟨_, runM_fst m (fun a x _ y => a + x * y) (r, c)⟩
  · exact ⟨_, runM_fst m (fun a x _ y => a - x * y) (r, c)⟩
  · exact ⟨_, runM_fst m (fun a _ x2 y => a + x2 * y / 256) (r, c)⟩

/-- Before its post-modify, an O- or S-format instruction changes the accumulators and the data memory alone. -/
theorem runBead_fst_of_fmtO {o : FmtO} {b : Bead} (hb : b = .ld o ∨ b = .ldx o ∨ b = .add o ∨ b = .sub o ∨
    b = .max o ∨ b = .min o ∨ b = .st o ∨ b = .stx o) (r : Rod) (c : Sats) :
    ∃ acc data, (runBead b (r, c)).1 = postModify o.p o.pm { r with acc := acc, data := data } := by
  rcases hb with rfl | rfl | rfl | rfl | rfl | rfl | rfl | rfl
  · exact ⟨_, r.data, runO_fst o (fun _ v => v) (r, c)⟩
  · exact ⟨_, r.data, runBead_ldx_fst o r c⟩
  · exact ⟨_, r.data, runO_fst o (fun a v => a + v) (r, c)⟩
  · exact ⟨_, r.data, runO_fst o (fun a v => a - v) (r, c)⟩
  · exact ⟨_, r.data, runO_fst o (fun a v => max a v) (r, c)⟩
  · exact ⟨_, r.data, runO_fst o (fun a v => min a v) (r, c)⟩
  · exact ⟨r.acc, _, runBead_st_fst o r c⟩
  · exact ⟨r.acc, _, runBead_stx_fst o r c⟩

theorem runM_acc (m : FmtM) (f : Int → Int → Int → Int → Int) (r : Rod) (c : Sats) :
    (runM m f (r, c)).1.acc = beads.map (fun b => acc40 (f (accOf r b)
      (readWord r true (beadAddr true m.xs b (r.ap.getD m.xp 0)))
      (readWord r true (beadAddr true m.xs b (stepPtr r m.xp 1)) % 65536)
      (readWord r m.yData (beadAddr m.yData m.ys b (r.ap.getD m.yp 0))))) := by
  rw [runM_fst, postModifyM_acc]

theorem runO_acc (o : FmtO) (f : Int → Int → Int) (r : Rod) (c : Sats) :
    (runO o f (r, c)).1.acc = beads.map (fun b => acc40 (f (accOf r b)
      (readWord r o.flag (beadAddr o.flag o.sp b (r.ap.getD o.p 0)) * 2 ^ o.sh))) := by
  rw [runO_fst, postModify_acc]

end Sys2Proof.Machine

namespace Sys2Proof

open Machine

/-- Settles O59: each instruction accesses its words through the pointers as they were and hands the rod to its post-modify
(`runBead_fst_of_fmtM`, `runBead_fst_of_fmtO`), which steps a pointer named with post-modify once (`postModifyM_ap_getD`,
`postModify_ap_getD`). -/
theorem pointerPostModify : Obligations.PointerPostModify := by
  unfold Obligations.PointerPostModify
  intro r c p hp hap hba
  have hpa : p < r.ap.length := hap ▸ hp
  have hpb : p < r.ba.length := hba ▸ hp
  refine ⟨fun v q _ => ⟨getD_set hpa q v, getD_set hpb q v⟩, fun m b hb => ?_, fun o b hb => ?_, fun m => ?_, fun o => ?_⟩
  · obtain ⟨acc, hrun⟩ := runBead_fst_of_fmtM hb r c
    rw [hrun]
    exact ⟨postModifyM_ap_getD (r := { r with acc := acc }) hpa m,
      postModifyM_ba .., postModifyM_md .., postModifyM_ml ..⟩
  · obtain ⟨acc, data, hrun⟩ := runBead_fst_of_fmtO hb r c
    rw [hrun]
    exact ⟨postModify_ap_getD (r := { r with acc := acc, data := data }) hpa o.p o.pm,
      postModify_ba .., postModify_md .., postModify_ml ..⟩
  · simp only [runBead, runM_acc, and_self]
  · simp only [runBead_ldx_fst, runBead_st_fst, runBead_stx_fst, postModify_acc, postModify_data]
    simp only [runBead, runO_acc, and_self]

end Sys2Proof
end

section
/-! SUPPORT. What every command leaves of the queue, and what it does to the RAM of the MEM domain: unchanged, or kept in its
canonical form. -/

namespace Sys2Proof.Machine

theorem execTimebaseLatch_quiet (s : State) : Quiet s (execTimebaseLatch s) := by
  have hread : (frontRead .operator 0x18 s).2.mem = s.mem := by simp [frontRead]
  rw [execTimebaseLatch, quiet_next]
  split <;> simp [hread]

/-- A command outside `memWriter` leaves the RAM and the queue. -/
theorem exec_quiet {c : Instr} (s : State) (h : memWriter c = false) : Quiet s (exec c s) := by
  revert h
  cases c <;> simp [exec, memWriter, execTimebaseLatch_quiet]

/-- No command ends in a fault or a refusal. -/
theorem exec_next (c : Instr) (s : State) : ∃ t, exec c s = .next t := by
  cases c <;> exact ⟨_, rfl⟩

theorem exec_still (c : Instr) (s : State) : Still s (exec c s) := by
  by_cases h : memWriter c = false
  · exact fun t ht => (exec_quiet s h t ht).1
  · revert h
    cases c <;> simp [exec, memWriter]

theorem exec_wfAfter (c : Instr) {s : State} (hm : MemWf s.mem) : WfAfter (exec c s) := by
  by_cases h : memWriter c = false
  · exact fun t ht => (exec_quiet s h t ht).2 ▸ hm
  · revert h
    cases c <;> simp [exec, memWriter, hm]

theorem memory_wf_iff (m : SMap Nat) : Memory.wf m ↔ MemWf m := Iff.rfl

/-- A step is the front command, or the idle tick where none waits. -/
theorem step_cons {c : Instr} {cs : List Instr} {s : State} (h : s.pending = c :: cs) :
    step s = exec c { s with pending := cs } := by
  simp only [step, h]

theorem step_nil {s : State} (h : s.pending = []) : step s = .next (idleTick s) := by
  simp only [step, h]

theorem step_wfAfter {s : State} (hm : MemWf s.mem) : WfAfter (step s) := by
  match hp : s.pending with
  | [] =>
    rw [step_nil hp, wfAfter_next, (idleTick_frame s).2]
    exact hm
  | c :: cs =>
    rw [step_cons hp]
    exact exec_wfAfter c hm

end Sys2Proof.Machine

namespace Sys2Proof

open Machine

/-- Settles O51: each command keeps the form (`exec_wfAfter`) and the idle tick leaves the RAM. -/
theorem memoryFormKept : Obligations.MemoryFormKept := by
  unfold Obligations.MemoryFormKept
  intro s t hm ht
  exact step_wfAfter hm t ht

/-- Settles O50: a command outside `memWriter` leaves the RAM as it is (`exec_quiet`). -/
theorem memoryFrame : Obligations.MemoryFrame := by
  unfold Obligations.MemoryFrame
  intro c s t hw ht a
  rw [(exec_quiet s hw t ht).2]

/-- Settles O49: no command stops the machine (`exec_next`), and none touches the queue (`exec_still`). -/
theorem everyCommandCompletes : Obligations.EveryCommandCompletes := by
  unfold Obligations.EveryCommandCompletes
  intro c s
  obtain ⟨t, ht⟩ := exec_next c s
  exact ⟨t, ht, exec_still c s t ht⟩

/-- Settles O1: `step_cons` on a queue that is written out. -/
theorem stepRunsFront : Obligations.StepRunsFront := by
  unfold Obligations.StepRunsFront
  intro c cs s
  exact step_cons rfl

/-- Settles O52: the idle tick counts where the timebase runs and does not reach a boundary. -/
theorem idleStep : Obligations.IdleStep := by
  unfold Obligations.IdleStep
  intro s hp
  rw [step_nil hp]
  refine ⟨fun hl hb ht => ?_, fun h => ?_⟩
  · have hcount : (tbRuns s && (s.timebase.toNat + 1) % periodTicks != 0) = true := by simp [tbRuns, periodTicks, hl, hb, ht]
    rw [idleTick, if_pos hcount]
  · have hrest : ¬(tbRuns s && (s.timebase.toNat + 1) % periodTicks != 0) = true := by
      rcases h with h | h | h <;> simp [tbRuns, periodTicks, h]
    rw [idleTick, if_neg hrest]

/-- Settles O55: the RAM holds no byte at reset. -/
theorem resetMemoryForm : Obligations.ResetMemoryForm := by
  unfold Obligations.ResetMemoryForm
  exact memWf_nil

end Sys2Proof
end

section
/-! SUPPORT. Packet layouts (02 R45, R58): a field reads back what was written in it, wherever it stands. -/

namespace Sys2Proof.Machine

@[simp] theorem length_leBytes (n v : Nat) : (leBytes n v).length = n := by
  induction n generalizing v with
  | zero => rfl
  | succ n ih => simp [leBytes, ih]

@[simp] theorem length_sBytes (n : Nat) (v : Int) : (sBytes n v).length = n := length_leBytes n _

theorem leNat_leBytes (n v : Nat) : leNat (leBytes n v) = v % 256 ^ n := by
  induction n generalizing v with
  | zero => simp [leBytes, leNat, Nat.mod_one]
  | succ n ih => 
    rw [leBytes, leNat, ih, BitVec.toNat_ofNat, show 256 ^ (n + 1) = 256 * 256 ^ n from Nat.pow_succ']
    exact (Nat.mod_mul (x := v) (a := 256) (b := 256 ^ n)).symm

/-! ### Fields at an offset -/

/-- A field behind a front part stands in the rest. -/
theorem fldAt_append_right {a b : List Byte} {off n : Nat} (h : a.length ≤ off) :
    fldAt (a ++ b) off n = fldAt b (off - a.length) n := by
  rw [fldAt, List.drop_append, List.drop_eq_nil_of_le h, List.nil_append, fldAt]

theorem sfldAt_append_right {a b : List Byte} {off n : Nat} (h : a.length ≤ off) :
    sfldAt (a ++ b) off n = sfldAt b (off - a.length) n := by
  rw [sfldAt, fldAt_append_right h, sfldAt]

theorem fldsAt_append_right {a b : List Byte} {off n k : Nat} (h : a.length ≤ off) :
    fldsAt (a ++ b) off n k = fldsAt b (off - a.length) n k := by
  refine List.map_congr_left fun i _ => ?_
  rw [fldAt_append_right (by omega), Nat.sub_add_comm h]

theorem fldAt_of_length {bs : List Byte} {n : Nat} (h : bs.length = n) : fldAt bs 0 n = leNat bs := by
  rw [fldAt, List.drop_zero, List.take_of_length_le h.le]

@[simp] theorem fldAt_leBytes (n v : Nat) : fldAt (leBytes n v) 0 n = v % 256 ^ n := by
  rw [fldAt_of_length (length_leBytes n v), leNat_leBytes]

@[simp] theorem fldAt_leBytes_append (n v : Nat) (b : List Byte) : fldAt (leBytes n v ++ b) 0 n = v % 256 ^ n := by
  rw [fldAt_append_left _ (by simp), fldAt_leBytes]

/-! ### The widths of the fields -/

theorem mod_of_fitsU {w v : Nat} (h : fitsU w v = true) : v % 2 ^ w = v := Nat.mod_eq_of_lt (of_decide_eq_true h)

/-- A value that fits `n` bytes is what its field reads as. -/
theorem mod_256_of_fitsU {n v : Nat} (h : fitsU (8 * n) v = true) : v % 256 ^ n = v := by
  rw [show 256 = 2 ^ 8 from rfl, ← Nat.pow_mul, mod_of_fitsU h]

theorem uint_lt (w : Nat) (v : Int) : uint w v < 2 ^ w := by
  have hpos : (0 : Int) < 2 ^ w := by positivity
  have hlt := Int.emod_lt_of_pos v hpos
  have hnn := Int.emod_nonneg v hpos.ne'
  have hcast : ((2 ^ w : Nat) : Int) = 2 ^ w := by push_cast; rfl
  rw [uint]
  omega

/-- Two's complement reads back every value of its range (00 R10). -/
theorem sint_uint {w : Nat} {v : Int} (hw : 0 < w) (h : fitsS w v = true) : sint w (uint w v) = v := by
  obtain ⟨k, rfl⟩ : ∃ k, w = k + 1 := ⟨w - 1, by omega⟩
  have hv := of_decide_eq_true h
  simp only [Nat.add_sub_cancel] at hv
  have hcode : ((uint (k + 1) v : Nat) : Int) = if 0 ≤ v then v else v + 2 ^ (k + 1) := by
    rw [uint, Int.toNat_of_nonneg (Int.emod_nonneg _ (by positivity)), pow_succ]
    split
    · exact Int.emod_eq_of_lt ‹_› (by omega)
    · rw [← Int.add_emod_right, Int.emod_eq_of_lt] <;> omega
  have hcast : ((2 ^ k : Nat) : Int) = 2 ^ k := by push_cast; rfl
  rw [pow_succ] at hcode
  rw [sint, Nat.mod_eq_of_lt (uint_lt _ _), Nat.add_sub_cancel, pow_succ]
  split at hcode <;> split <;> omega

theorem sfldAt_sBytes {n : Nat} {v : Int} (hn : 0 < n) (h : fitsS (8 * n) v = true) : sfldAt (sBytes n v) 0 n = v := by
  have hmod : uint (8 * n) v % 256 ^ n = uint (8 * n) v := mod_256_of_fitsU (decide_eq_true (uint_lt _ _))
  rw [sfldAt, sBytes, fldAt_leBytes, hmod, sint_uint (by omega) h]

theorem mod_u8 {v : Nat} (h : fitsU 8 v = true) : v % 256 ^ 1 = v := mod_256_of_fitsU h
theorem mod_u16 {v : Nat} (h : fitsU 16 v = true) : v % 256 ^ 2 = v := mod_256_of_fitsU h
theorem mod_u32 {v : Nat} (h : fitsU 32 v = true) : v % 256 ^ 4 = v := mod_256_of_fitsU h
theorem mod_u64 {v : Nat} (h : fitsU 64 v = true) : v % 256 ^ 8 = v := mod_256_of_fitsU h
theorem sfldAt_s8 {v : Int} (h : fitsS 8 v = true) : sfldAt (sBytes 1 v) 0 1 = v := sfldAt_sBytes (by decide) h
theorem sfldAt_s16 {v : Int} (h : fitsS 16 v = true) : sfldAt (sBytes 2 v) 0 2 = v := sfldAt_sBytes (by decide) h
theorem sfldAt_s32 {v : Int} (h : fitsS 32 v = true) : sfldAt (sBytes 4 v) 0 4 = v := sfldAt_sBytes (by decide) h

/-! ### Lists of records of one length -/

variable {α : Type} {enc : α → List Byte} {k : Nat}

/-- A field of a record in a list of records. -/
theorem fldAt_flatMap (hk : ∀ x, (enc x).length = k) {l : List α} {i : Nat} (hi : i < l.length) {j n : Nat} (hj : j + n ≤ k) :
    fldAt (l.flatMap enc) (j + k * i) n = fldAt (enc l[i]) j n := by
  induction l generalizing i with
  | nil => simp at hi
  | cons x l ih =>
    rw [List.flatMap_cons]
    match i with
    | 0 => exact fldAt_append_left _ (by rw [hk]; simpa using hj)
    | i + 1 =>
      rw [fldAt_append_right (by rw [hk, Nat.mul_succ]; omega), hk,
        show j + k * (i + 1) - k = j + k * i by rw [Nat.mul_succ]; omega]
      exact ih (by simpa using hi)

/-- Consecutive fields read back the records of a list. -/
theorem fldsAt_flatMap (hk : ∀ x, (enc x).length = k) (l : List α) :
    fldsAt (l.flatMap enc) 0 k l.length = l.map (fun x => leNat (enc x)) := by
  refine List.ext_getElem (by simp [fldsAt]) fun i hi _ => ?_
  have hil : i < l.length := by simpa [fldsAt] using hi
  simp only [fldsAt, List.getElem_map, List.getElem_range]
  rw [fldAt_flatMap hk hil (by omega), fldAt_of_length (hk _)]

theorem length_flatMap_of_length (hk : ∀ x, (enc x).length = k) (l : List α) : (l.flatMap enc).length = k * l.length := by
  simp [List.length_flatMap, hk, Nat.mul_comm]

/-- A list of unsigned fields reads back. -/
theorem fldsAt_leBytes {n : Nat} {l : List Nat} (h : ∀ v ∈ l, fitsU (8 * n) v = true) :
    fldsAt (l.flatMap (leBytes n)) 0 n l.length = l := by
  rw [fldsAt_flatMap (length_leBytes n), List.map_congr_left (g := id), List.map_id]
  exact fun v hv => by rw [leNat_leBytes, mod_256_of_fitsU (h v hv), id]

/-- A list of signed fields reads back. -/
theorem fldsAt_sBytes {n : Nat} {l : List Int} (hn : 0 < n) (h : ∀ v ∈ l, fitsS (8 * n) v = true) :
    (fldsAt (l.flatMap (sBytes n)) 0 n l.length).map (sint (8 * n)) = l := by
  rw [fldsAt_flatMap (length_sBytes n), List.map_map, List.map_congr_left (g := id), List.map_id]
  intro v hv
  have hfield := sfldAt_sBytes hn (h v hv)
  rwa [sfldAt, fldAt_of_length (length_sBytes n v)] at hfield

/-! ### Decoding -/

/-- A reserved opcode decodes as such. -/
theorem decodeCmd_reserved (h : Hdr) {op : Nat} (b : List Byte) (hop : op ∉ opcodes) :
    decodeCmd h op b = some (.badOpcode h op) := by
  unfold decodeCmd
  split <;> first | rfl | exact absurd (by decide) hop

/-- A layout of fixed length reads a packet of that length. -/
theorem fixed_eq_some {n : Nat} {bs : List Byte} {c d : Instr} (hl : bs.length = n) (hc : c = d) : fixed n bs c = some d := by
  rw [fixed, if_pos hl, hc]

/-- A layout with a count reads a packet whose count and length match. -/
theorem ite_eq_some {p : Prop} [Decidable p] {c d : Instr} (hp : p) (hc : c = d) : (if p then some c else none) = some d := by
  rw [if_pos hp, hc]

variable (h : Hdr)

theorem decodeCmd_paramSet {p v : Nat} (hp : fitsU 16 p = true) (hv : fitsU 32 v = true) :
    decodeCmd h 0x11 (leBytes 2 p ++ leBytes 4 v) = some (.paramSet h p v) := by
  refine fixed_eq_some (by simp) ?_
  simp (disch := simp) only [fldAt_append_right, fldAt_leBytes, fldAt_leBytes_append, length_leBytes, Nat.sub_self,
    mod_u16 hp, mod_u32 hv]

/-! Layouts that end in bytes of any number. -/

theorem decodeCmd_fwPatchData {o : Nat} {d : List Byte} (ho : fitsU 32 o = true) (hd : 1 ≤ d.length ∧ d.length ≤ 1020) :
    decodeCmd h 0x09 (leBytes 4 o ++ d) = some (.fwPatchData h o d) := by
  refine ite_eq_some (by simp only [List.length_append, length_leBytes]; omega) ?_
  rw [fldAt_leBytes_append, mod_u32 ho, List.drop_left' (length_leBytes 4 o)]

theorem decodeCmd_tableWrite {t f n : Nat} {d : List Byte} (ht : fitsU 8 t = true) (hf : fitsU 16 f = true)
    (hn : fitsU 16 n = true) :
    decodeCmd h 0x14 (leBytes 1 t ++ leBytes 2 f ++ leBytes 2 n ++ d) = some (.tableWrite h t f n d) := by
  have hlen : 5 ≤ (leBytes 1 t ++ leBytes 2 f ++ leBytes 2 n ++ d).length := by simp; omega
  refine ite_eq_some hlen ?_
  rw [List.drop_left' (by simp)]
  simp (disch := simp) only [List.append_assoc, fldAt_append_right, fldAt_leBytes_append, length_leBytes, Nat.reduceSub,
    Nat.sub_self, mod_u8 ht, mod_u16 hf, mod_u16 hn]

/-! Layouts with a count in front of their list. -/

theorem decodeCmd_paramSetMany {l : List (Nat × Nat)} (hl : ∀ p ∈ l, fitsU 16 p.1 = true ∧ fitsU 32 p.2 = true)
    (hn : 1 ≤ l.length ∧ l.length ≤ 64) :
    decodeCmd h 0x12 (leBytes 1 l.length ++ l.flatMap (fun p => leBytes 2 p.1 ++ leBytes 4 p.2)) = some (.paramSetMany h l) := by
  have hk (p : Nat × Nat) : (leBytes 2 p.1 ++ leBytes 4 p.2).length = 6 := by simp
  have hcount (b : List Byte) : fldAt (leBytes 1 l.length ++ b) 0 1 = l.length := by
    rw [fldAt_leBytes_append, mod_u8 (decide_eq_true (by omega))]
  refine ite_eq_some ?_ ?_
  · rw [hcount, List.length_append, length_leBytes, length_flatMap_of_length hk]
    exact ⟨rfl, hn⟩
  · rw [hcount]
    congr 1
    refine List.ext_getElem (by simp) fun i hi _ => ?_
    have hil : i < l.length := by simpa using hi
    obtain ⟨hp, hv⟩ := hl l[i] (List.getElem_mem hil)
    simp only [List.getElem_map, List.getElem_range]
    rw [fldAt_append_right (by simp), fldAt_append_right (by simp; omega), length_leBytes, Nat.add_sub_cancel_left,
      show 3 + 6 * i - 1 = 2 + 6 * i by omega, ← Nat.zero_add (6 * i), fldAt_flatMap hk hil (by omega), Nat.zero_add,
      fldAt_flatMap hk hil (by omega), fldAt_leBytes_append, fldAt_append_right (by simp), length_leBytes, fldAt_leBytes,
      mod_u16 hp, mod_u32 hv]

theorem decodeCmd_linkSetAlt {n : Nat} {fs : List Nat} (hn : fitsU 8 n = true) (hf : ∀ f ∈ fs, fitsU 32 f = true)
    (hl : fs.length ≤ 8) :
    decodeCmd h 0x34 (leBytes 1 n ++ leBytes 1 fs.length ++ fs.flatMap (leBytes 4)) = some (.linkSetAlt h n fs) := by
  have hcount (b : List Byte) : fldAt (leBytes 1 n ++ leBytes 1 fs.length ++ b) 1 1 = fs.length := by
    rw [List.append_assoc, fldAt_append_right (by simp), length_leBytes, fldAt_leBytes_append,
      mod_u8 (decide_eq_true (by omega))]
  refine ite_eq_some ?_ ?_
  · simp only [hcount, List.length_append, length_leBytes, length_flatMap_of_length (length_leBytes 4)]
    exact ⟨trivial, hl⟩
  · rw [hcount, fldsAt_append_right (by simp)]
    simp only [List.append_assoc, fldAt_leBytes_append, mod_u8 hn, List.length_append, length_leBytes, Nat.reduceAdd,
      Nat.sub_self, fldsAt_leBytes (n := 4) hf]

theorem decodeCmd_sessionSend {n : Nat} {d : List Byte} (hn : fitsU 8 n = true) (hd : 1 ≤ d.length ∧ d.length ≤ 64) :
    decodeCmd h 0x54 (leBytes 1 n ++ leBytes 2 d.length ++ d) = some (.sessionSend h n d) := by
  have hcount : fldAt (leBytes 1 n ++ leBytes 2 d.length ++ d) 1 2 = d.length := by
    rw [List.append_assoc, fldAt_append_right (by simp), length_leBytes, fldAt_leBytes_append,
      mod_u16 (decide_eq_true (by omega))]
  refine ite_eq_some ?_ ?_
  · rw [hcount]
    simpa only [List.length_append, length_leBytes] using ⟨trivial, hd⟩
  · rw [List.drop_left' (by simp), List.append_assoc, fldAt_leBytes_append, mod_u8 hn]

theorem decodeCmd_progLoad {r f : Nat} {w : List Nat} (hr : fitsU 8 r = true) (hf : fitsU 16 f = true)
    (hw : ∀ v ∈ w, fitsU 32 v = true) (hl : 1 ≤ w.length ∧ w.length ≤ 254) :
    decodeCmd h 0x70 (leBytes 1 r ++ leBytes 2 f ++ leBytes 2 w.length ++ w.flatMap (leBytes 4)) =
      some (.progLoad h r f w) := by
  have hcount (b : List Byte) : fldAt (leBytes 1 r ++ leBytes 2 f ++ leBytes 2 w.length ++ b) 3 2 = w.length := by
    rw [List.append_assoc, fldAt_append_right (by simp), List.length_append, length_leBytes, length_leBytes,
      fldAt_leBytes_append, mod_u16 (decide_eq_true (by omega))]
  refine ite_eq_some ?_ ?_
  · simp only [hcount, List.length_append, length_leBytes, length_flatMap_of_length (length_leBytes 4)]
    exact ⟨trivial, hl⟩
  · rw [hcount, fldsAt_append_right (by simp)]
    simp (disch := simp) only [List.append_assoc, fldAt_append_right, fldAt_leBytes_append, mod_u8 hr, mod_u16 hf,
      List.length_append, length_leBytes, Nat.reduceAdd, Nat.sub_self, fldsAt_leBytes (n := 4) hw]

theorem decodeCmd_coefWrite {r b f : Nat} {w : List Int} (hr : fitsU 8 r = true) (hb : fitsU 8 b = true)
    (hf : fitsU 16 f = true) (hw : ∀ v ∈ w, fitsS 16 v = true) (hl : 1 ≤ w.length ∧ w.length ≤ 509) :
    decodeCmd h 0x73 (leBytes 1 r ++ leBytes 1 b ++ leBytes 2 f ++ leBytes 2 w.length ++ w.flatMap (sBytes 2)) =
      some (.coefWrite h r b f w) := by
  have hcount (d : List Byte) : fldAt (leBytes 1 r ++ leBytes 1 b ++ leBytes 2 f ++ leBytes 2 w.length ++ d) 4 2 = w.length := by
    rw [List.append_assoc, fldAt_append_right (by simp), List.length_append, List.length_append, length_leBytes,
      length_leBytes, length_leBytes, fldAt_leBytes_append, mod_u16 (decide_eq_true (by omega))]
  refine ite_eq_some ?_ ?_
  · simp only [hcount, List.length_append, length_leBytes, length_flatMap_of_length (length_sBytes 2)]
    exact ⟨trivial, hl⟩
  · rw [hcount, fldsAt_append_right (by simp)]
    simp (disch := simp) only [List.append_assoc, fldAt_append_right, fldAt_leBytes_append, mod_u8 hr, mod_u8 hb, mod_u16 hf,
      List.length_append, length_leBytes, Nat.reduceAdd, Nat.reduceSub, Nat.sub_self, fldsAt_sBytes (n := 2) (by decide) hw]

end Sys2Proof.Machine

namespace Sys2Proof

open Machine

/-- Settles O53: each layout reads back its fields where they stand (`fldAt_append_right`, `fldAt_leBytes_append`), at every
value that fits (`mod_256_of_fitsU`, `sint_uint`), and the lists that their counts announce (`fldsAt_flatMap`). -/
theorem packetRoundTrip : Obligations.PacketRoundTrip := by
  unfold Obligations.PacketRoundTrip
  intro c h op params hw hf he
  cases c <;> simp only [encodeCmd, Option.some.injEq, Prod.mk.injEq, reduceCtorEq] at he <;> obtain ⟨rfl, rfl, rfl⟩ := he <;>
    simp only [Instr.wf, Bool.and_eq_true, decide_eq_true_eq, beq_iff_eq] at hw
  case syncArmOneShot => exact decodeCmd_paramSet _ (by decide) (by decide)
  case syncArmMonitor => exact decodeCmd_paramSet _ (by decide) (by decide)
  case syncDisarm => exact decodeCmd_paramSet _ (by decide) (by decide)
  case poweredHoursWrite => exact decodeCmd_paramSet _ (by decide) hw.2
  case txMsgSend => exact decodeCmd_paramSet _ (decide_eq_true (by omega)) hw.2
  case badOpcode => exact decodeCmd_reserved _ _ (by simpa [fitsPacket] using hf)
  case fwPatchData => exact decodeCmd_fwPatchData _ hw.1.2 hw.2
  case tableWrite => exact decodeCmd_tableWrite _ hw.1.1.1.2 hw.1.1.2 hw.1.2
  case sessionSend => exact decodeCmd_sessionSend _ hw.1.2 (of_decide_eq_true (by exact hf))
  case paramSetMany =>
    simp only [List.all_eq_true, Bool.and_eq_true] at hw
    exact decodeCmd_paramSetMany _ hw.1.2 (of_decide_eq_true (by exact hf))
  case linkSetAlt =>
    simp only [List.all_eq_true] at hw
    exact decodeCmd_linkSetAlt _ hw.1.1.2 hw.1.2 (of_decide_eq_true (by exact hf))
  case progLoad =>
    simp only [List.all_eq_true] at hw
    exact decodeCmd_progLoad _ hw.1.1.1.2 hw.1.1.2 hw.1.2 (of_decide_eq_true (by exact hf))
  case coefWrite =>
    simp only [List.all_eq_true] at hw
    exact decodeCmd_coefWrite _ hw.1.1.1.1.2 hw.1.1.1.2 hw.1.1.2 hw.1.2 (of_decide_eq_true (by exact hf))
  all_goals
    refine fixed_eq_some (by simp [hw]) ?_
    simp (disch := simp [hw]) only [canonical, List.append_assoc, fldAt_append_right, sfldAt_append_right, fldAt_leBytes, fldAt_leBytes_append,
      length_leBytes, Nat.reduceSub, List.drop_append, List.drop_eq_nil_of_le, List.drop_zero, List.nil_append, mod_u8, mod_u16, mod_u32, mod_u64,
      sfldAt_s8, sfldAt_s16, sfldAt_s32]

end Sys2Proof
end

section
/-! SUPPORT. What a packet's start and its ACCEPTED leave readable of the machine, and the rules of commands that end at once
(02 R49, R52). -/

namespace Sys2Proof.Machine

/-- Commands that answer equal states answer alike. -/
theorem next_congr {a b : State} (e : a = b) : (.next a : Host.Outcome State Fault Refusal) = .next b := congrArg _ e

variable (h : Hdr) (op : Nat) (s : State) (n : Nat)

/-! ### Reads after a start and after ACCEPTED -/

@[simp] theorem now_started : now (started h s) = now s := by simp [now]
@[simp] theorem now_acceptedBy : now (acceptedBy h op s) = now s := by simp [now]
@[simp] theorem period_started : period (started h s) = period s := by simp [period]
@[simp] theorem period_acceptedBy : period (acceptedBy h op s) = period s := by simp [period]
@[simp] theorem link_started : link (started h s) n = link s n := by simp [link]
@[simp] theorem link_acceptedBy : link (acceptedBy h op s) n = link s n := by simp [link]
@[simp] theorem carrier_started : carrier (started h s) n = carrier s n := by simp [carrier]
@[simp] theorem carrier_acceptedBy : carrier (acceptedBy h op s) n = carrier s n := by simp [carrier]
@[simp] theorem session_started : session (started h s) n = session s n := by simp [session]
@[simp] theorem session_acceptedBy : session (acceptedBy h op s) n = session s n := by simp [session]
@[simp] theorem rod_started : rod (started h s) n = rod s n := by simp [rod]
@[simp] theorem rod_acceptedBy : rod (acceptedBy h op s) n = rod s n := by simp [rod]
@[simp] theorem port_started : port (started h s) n = port s n := by simp [port]
@[simp] theorem port_acceptedBy : port (acceptedBy h op s) n = port s n := by simp [port]
@[simp] theorem route_started : route (started h s) n = route s n := by simp [route]
@[simp] theorem route_acceptedBy : route (acceptedBy h op s) n = route s n := by simp [route]
@[simp] theorem bus_started : bus (started h s) n = bus s n := by simp [bus]
@[simp] theorem bus_acceptedBy : bus (acceptedBy h op s) n = bus s n := by simp [bus]
@[simp] theorem tap_started : tap (started h s) n = tap s n := by simp [tap]
@[simp] theorem tap_acceptedBy : tap (acceptedBy h op s) n = tap s n := by simp [tap]
@[simp] theorem ana_started : ana (started h s) n = ana s n := by simp [ana]
@[simp] theorem ana_acceptedBy : ana (acceptedBy h op s) n = ana s n := by simp [ana]
@[simp] theorem cdac_started : cdac (started h s) n = cdac s n := by simp [cdac]
@[simp] theorem cdac_acceptedBy : cdac (acceptedBy h op s) n = cdac s n := by simp [cdac]
@[simp] theorem fine_started : fine (started h s) n = fine s n := by simp [fine]
@[simp] theorem fine_acceptedBy : fine (acceptedBy h op s) n = fine s n := by simp [fine]
@[simp] theorem synth_started : synth (started h s) n = synth s n := by simp [synth]
@[simp] theorem synth_acceptedBy : synth (acceptedBy h op s) n = synth s n := by simp [synth]
@[simp] theorem domOn_started : domOn (started h s) n = domOn s n := by simp [domOn]
@[simp] theorem domOn_acceptedBy : domOn (acceptedBy h op s) n = domOn s n := by simp [domOn]
@[simp] theorem labPart_started : labPart (started h s) = labPart s := by simp [labPart, otpAt]
@[simp] theorem protState_started : protState (started h s) = protState s := by simp [protState]

/-- A started packet's tag changes neither the replies nor the mode of its channel. -/
theorem chan_started (c : Chan) : ∃ t, chan (started h s) c = { chan s c with tags := t } := by
  have hb : ∀ u : State, chan (bump P.sysCmdsExecuted u) c = chan u c := fun u => by cases c <;> simp [chan]
  rw [started, hb]
  refine ⟨if c = h.ch then (chan s c).tags ||| tagBit h.tag else (chan s c).tags, ?_⟩
  cases c <;> cases h.ch <;> simp [chan, onChan]

@[simp] theorem replies_chan_started (c : Chan) : (chan (started h s) c).replies = (chan s c).replies := by
  obtain ⟨t, e⟩ := chan_started h s c
  rw [e]

@[simp] theorem held_chan_started (c : Chan) : (chan (started h s) c).held = (chan s c).held := by
  obtain ⟨t, e⟩ := chan_started h s c
  rw [e]

/-! ### The first failing check -/

@[simp] theorem firstFail_nil : firstFail [] = .ok := rfl
@[simp] theorem firstFail_cons (b : Bool) (st : Status) (l : List (Bool × Status)) :
    firstFail ((b, st) :: l) = if b then st else firstFail l := rfl

/-! ### Commands that end at once -/

variable {h op s} {c : Instr} {p : Prog} {st : Status} {u : State}

theorem ownChecks_of_no_needs (hn : ∀ v, p.needs v = []) : ownChecks p s = p.check s := by
  simp only [ownChecks, hn, List.all_nil, if_true]
  split <;> rfl

theorem ownChecks_badParam (hc : p.check s = (.badParam, u)) : ownChecks p s = (.badParam, u) := by
  simp only [ownChecks, hc, if_true]

/-- A command that needs no domain ends with the status of its first check that fails. -/
theorem submit_fails (hs : Starts c h op s) (hn : ∀ v, p.needs v = []) (hc : p.check (started h s) = (st, u)) (hst : st ≠ .ok) :
    submit p c s = turnedAway h op st u :=
  submit_refused hs (by rw [ownChecks_of_no_needs hn, hc]) hst

/-- A field out of range ends a command, whatever domains it needs. -/
theorem submit_badParam (hs : Starts c h op s) (hc : p.check (started h s) = (.badParam, u)) :
    submit p c s = turnedAway h op .badParam u :=
  submit_refused hs (ownChecks_badParam hc) nofun

/-- A class A command without waits replies with its payload and does its effect. -/
theorem submit_prog_direct {check : State → Status} {apply : State → List Byte × State} (hs : Starts c h op s)
    (hcl : classOf op = 1) (hc : check (started h s) = .ok) :
    submit (.direct check apply) c s = replied h op (apply (started h s)).1 (apply (started h s)).2 :=
  submit_direct hs hcl (fun _ => rfl) (fun _ => rfl) rfl (by simp only [Prog.direct, hc]) (by simp) rfl

theorem submit_prog_direct_fails {check : State → Status} {apply : State → List Byte × State} (hs : Starts c h op s)
    (hc : check (started h s) = st) (hst : st ≠ .ok) :
    submit (.direct check apply) c s = turnedAway h op st (started h s) :=
  submit_fails hs (fun _ => rfl) (by simp only [Prog.direct, hc]) hst

/-- A packet that starts at once starts under every row that spells it and names the same objects. -/
theorem Starts.congr {d : Instr} (hs : Starts c h op s) (he : encodeCmd d = encodeCmd c) (ho : objectsOf d = objectsOf c) :
    Starts d h op s :=
  { packet := he ▸ hs.packet, runs := hs.runs, listens := hs.listens, first := hs.first, room := hs.room, tag := hs.tag,
    free := hs.free, turn := by simpa only [mustWait, ho] using hs.turn, prompt := hs.prompt }

end Sys2Proof.Machine
end

section
/-! SUPPORT. The System commands (02 R58 to R63). -/

namespace Sys2Proof

open Machine

/-- Settles O2: each command is a direct one but RESET, and its checks decide by its operands alone. -/
theorem systemCommands : Obligations.SystemCommands := by
  unfold Obligations.SystemCommands
  intro h s
  refine ⟨fun hs => ?_, fun hs => ?_, fun hs hp => ?_, fun k hk hs => ?_, fun n h1 h64 hl hs => ?_, fun n h1 h64 hl hq hs => ?_,
    fun n hn hs => ?_, fun b m hb hm hs => ?_, fun b m hbm hs => ?_, fun p n h1 h128 hp hs => ?_, fun p n hpn hs => ?_, fun hs => ?_,
    fun a ha hs => ?_, fun t a ha ht hs => ?_, fun t a h0 ht hs => ?_, fun t a ha hs => ?_, fun o hs => ?_⟩
  · exact next_congr (submit_prog_direct hs rfl rfl)
  · refine next_congr ((submit_prog_direct hs rfl rfl).trans ?_)
    simp only [infoBytes, started_prot, started_front, labPart_started]
  · have hg : (progReset h 3).guard (started h s) = none := by simp [progReset, hp]
    refine next_congr (submit_direct hs rfl (fun _ => rfl) (fun _ => rfl) hg rfl (by simp) ?_)
    simp only [progReset, replyLevel, replies_chan_started, held_chan_started, started_seq]
  · exact next_congr (submit_fails hs (fun _ => rfl) (by rw [progReset, if_neg hk]) nofun)
  · refine next_congr ((submit_prog_direct hs rfl (if_pos ⟨h1, h64⟩)).trans ?_)
    simp only [started_events, reportLost]
    rcases hl with hl | hl <;> simp [hl]
  · refine next_congr ((submit_prog_direct hs rfl (if_pos ⟨h1, h64⟩)).trans ?_)
    have hout : (s.events.queue.take n).isEmpty = false := by simp [hq]; omega
    simp [reportLost, hl, hout]
  · exact next_congr (submit_prog_direct_fails hs (if_neg (by omega)) nofun)
  · refine next_congr ((submit_prog_direct hs rfl (if_pos (by simpa using ⟨hb, hm⟩))).trans ?_)
    simp only [started_events]
  · exact next_congr (submit_prog_direct_fails hs (if_neg (by simpa [imp_iff_not_or] using hbm)) nofun)
  · exact next_congr (submit_prog_direct hs rfl (if_pos ⟨h1, h128, hp⟩))
  · exact next_congr (submit_prog_direct_fails hs (if_neg (by omega)) nofun)
  · refine next_congr ((submit_prog_direct hs rfl rfl).trans ?_)
    simp only [now_started, period, periodLen]
  · exact next_congr (submit_prog_direct hs rfl (by simp; omega))
  · refine next_congr ((submit_prog_direct hs rfl (by simp [Nat.not_lt.2 ha, Nat.not_le.2 ht])).trans ?_)
    rw [if_neg (by omega)]
  · exact next_congr (submit_prog_direct_fails hs (by simp [h0, ht]) nofun)
  · exact next_congr (submit_prog_direct_fails hs (by simp [ha]) nofun)
  · exact next_congr (submit_fails hs (fun _ => rfl) rfl nofun)

end Sys2Proof
end

section
/-! SUPPORT. Parameter writes (00 R524): the order of their checks, the fields of the PIDs that have a row of their own, and what
a write of each of them stores (04 R116 to R118, 08 R233, 17 R454). -/

namespace Sys2Proof.Machine

variable {h : Hdr} {op : Nat} {s : State} {pid v : Nat}

/-! ### The order of the checks -/

theorem writeCheck_of_readOnly (hf : ∀ f ∈ fieldsOf pid, f.acc = .ro) : writeCheck s pid v = .badParam := by
  rw [writeCheck, if_pos (by simpa using hf)]

theorem writeCheck_of_outOfRange (hr : rangesOk s pid v = false) : writeCheck s pid v = .badParam := by
  simp only [writeCheck, hr, Bool.not_false, if_true, ite_self]

theorem writeCheck_of_writable (hf : ∃ f ∈ fieldsOf pid, f.acc ≠ .ro) (hr : rangesOk s pid v = true) :
    writeCheck s pid v = writeState s pid v := by
  rw [writeCheck, if_neg (by simpa using hf), if_neg (by simp [hr])]

theorem writeState_of_ownerRuns
    (hf : ∃ f ∈ fieldsOf pid, f.acc = .rws ∧ written f v ≠ parGet s (key pid f.lo) ∧ ownerRuns s pid f.lo = true) :
    writeState s pid v = .badState := by
  have hany : (fieldsOf pid).any (fun f => f.acc == .rws && written f v != parGet s (key pid f.lo) && ownerRuns s pid f.lo) = true := by
    simpa [and_assoc] using hf
  simp only [writeState, hany, if_true]

/-- PARAM_SET does the write where its checks pass, and nothing where one fails. -/
theorem submit_paramSet {c : Instr} (hs : Starts c h 0x11 s) (hc : writeCheck (started h s) pid v = .ok) :
    submit (progParamSet pid v) c s = replied h 0x11 [] (paramStore pid v (started h s)) :=
  submit_direct hs rfl (fun _ => rfl) (fun _ => rfl) rfl (by simp only [progParamSet, hc]) (by simp) rfl

theorem submit_paramSet_fails {c : Instr} {st : Status} (hs : Starts c h 0x11 s) (hc : writeCheck (started h s) pid v = st)
    (hst : st ≠ .ok) : submit (progParamSet pid v) c s = turnedAway h 0x11 st (started h s) :=
  submit_fails hs (fun _ => rfl) (by simp only [progParamSet, hc]) hst

/-! ### CLK.SYNC_ARM (04 R116 to R118) -/

theorem fieldsOf_syncArm : fieldsOf 0x1013 = [⟨0x1013, 0, 2, .rw, .none, 0⟩] := by decide +kernel

theorem pidObjects_syncArm : pidObjects 0x1013 = [] := by decide +kernel

theorem paramStore_syncArm (hv : v < 4) (s : State) : paramStore 0x1013 v s = parSet P.clkSyncArm v s := by
  have hw : v % 4 = v := Nat.mod_eq_of_lt hv
  have hcanon : canonPid 0x1013 = (0x1013, 0) := by decide +kernel
  have hb : atBoundary 0x1013 = false := by decide +kernel
  simp [paramStore, fieldsOf_syncArm, hcanon, each, storeField, hb, written, hw, writeEffect, P.clkSyncArm]

theorem rangesOk_syncArm (hv : v < 4) (hv1 : v ≠ 1) (hv3 : v ≠ 3) (s : State) : rangesOk s 0x1013 v = true := by
  have hw : v % 4 = v := Nat.mod_eq_of_lt hv
  have hcanon : canonPid 0x1013 = (0x1013, 0) := by decide +kernel
  simp [rangesOk, hcanon, fieldsOf_syncArm, rangeOk, written, hw, hv1]
  omega

theorem writeState_syncArm (s : State) (v : Nat) :
    writeState s 0x1013 v = if v % 4 = 1 ∧ serviceRuns s = true then .badState else .ok := by
  have hcanon : canonPid 0x1013 = (0x1013, 0) := by decide +kernel
  simp [writeState, hcanon, fieldsOf_syncArm]

theorem writeCheck_syncArm (s : State) (hr : rangesOk s 0x1013 v = true) : writeCheck s 0x1013 v = writeState s 0x1013 v :=
  writeCheck_of_writable (by simp [fieldsOf_syncArm]) hr

/-! ### TX.MSG_LEN (08 R233) -/

theorem canonPid_msgLen {c : Nat} (hc : c < 16) : canonPid (0x4047 + 0x40 * c) = (0x4047, c) := by
  interval_cases c <;> decide +kernel

theorem fieldTable_msgLen : fieldTable.filter (fun f => f.pid == 0x4047) =
    [⟨0x4047, 0, 7, .rw, .none, 0⟩, ⟨0x4047, 8, 1, .ro, .none, 0⟩] := by decide +kernel

theorem fieldsOf_msgLen {c : Nat} (hc : c < 16) :
    fieldsOf (0x4047 + 0x40 * c) = [⟨0x4047, 0, 7, .rw, .none, 0⟩, ⟨0x4047, 8, 1, .ro, .none, 0⟩] := by
  rw [fieldsOf, canonPid_msgLen hc]
  exact fieldTable_msgLen

theorem pidObjects_msgLen {c : Nat} (hc : c < 16) : pidObjects (0x4047 + 0x40 * c) = [.carrier c] := by
  rw [pidObjects, canonPid_msgLen hc, if_neg (by omega), if_pos (by omega)]

theorem rangesOk_msgLen {c : Nat} (hc : c < 16) (s : State) (n : Nat) :
    rangesOk s (0x4047 + 0x40 * c) n = decide (1 ≤ n % 128 ∧ n % 128 ≤ 64) := by
  have hout : 0x101D < 0x4047 + 0x40 * c := by omega
  simp [rangesOk, canonPid_msgLen hc, fieldsOf_msgLen hc, rangeOk, written, hout]

theorem writeState_msgLen {c : Nat} (hc : c < 16) (s : State) (n : Nat) :
    writeState s (0x4047 + 0x40 * c) n = if (carrier s c).msg.isSome then .badState else .ok := by
  simp [writeState, canonPid_msgLen hc, fieldsOf_msgLen hc]

theorem writeCheck_msgLen {c n : Nat} (hc : c < 16) (hn : 1 ≤ n % 128 ∧ n % 128 ≤ 64) (s : State) :
    writeCheck s (0x4047 + 0x40 * c) n = if (carrier s c).msg.isSome then .badState else .ok := by
  rw [writeCheck_of_writable (by simp [fieldsOf_msgLen hc]) (by simp [rangesOk_msgLen hc, hn]), writeState_msgLen hc]

theorem paramStore_msgLen {c n : Nat} (hc : c < 16) (hn : n < 128) (s : State) :
    paramStore (0x4047 + 0x40 * c) n s = if (carrier s c).phase = .closed then parSet (P.txMsgLen c) n s
      else onCarrier c (fun k => { k with msg := some ⟨txMsgBytes (parSet (P.txMsgLen c) n s) c n, 0, false⟩ })
        (parSet (P.txMsgLen c) n s) := by
  have hw : n % 128 = n := Nat.mod_eq_of_lt hn
  have hb : atBoundary (0x4047 + 0x40 * c) = false := by
    simp [atBoundary, canonPid_msgLen hc]
    omega
  have hcarrier (k : Nat) : carrier (parSet k n s) c = carrier s c := rfl
  by_cases hp : (carrier s c).phase = .closed <;>
    simp [paramStore, fieldsOf_msgLen hc, canonPid_msgLen hc, each, storeField, hb, written, hw, writeEffect, P.txMsgLen, hcarrier, hp]

/-! ### RCK.POWERED_HOURS (17 R454) -/

theorem fieldsOf_poweredHours : fieldsOf 0xA022 = [⟨0xA022, 0, 32, .rw, .keep, 0⟩] := by decide +kernel

theorem pidObjects_poweredHours : pidObjects 0xA022 = [] := by decide +kernel

theorem canonPid_poweredHours : canonPid 0xA022 = (0xA022, 0) := by decide +kernel

theorem writeCheck_poweredHours (s : State) (v : Nat) :
    writeCheck s 0xA022 v = if parGet s P.rckPlanLimits2 = 0 then .badState else .ok := by
  rw [writeCheck_of_writable (by simp [fieldsOf_poweredHours])
    (by simp [rangesOk, canonPid_poweredHours, fieldsOf_poweredHours, rangeOk])]
  simp [writeState, canonPid_poweredHours, fieldsOf_poweredHours]

theorem paramStore_poweredHours (hv : v < 2 ^ 32) (s : State) :
    paramStore 0xA022 v s = parSet P.rckPlanLimits2 0 (parSet P.rckPoweredHours v s) := by
  have hw : v % 4294967296 = v := Nat.mod_eq_of_lt hv
  have hb : atBoundary 0xA022 = false := by decide +kernel
  simp [paramStore, fieldsOf_poweredHours, canonPid_poweredHours, each, storeField, hb, written, hw, writeEffect, P.rckPoweredHours]

/-! ### The rows as writes -/

variable {c n : Nat}

theorem Starts.syncArmOneShot (hs : Starts (.syncArmOneShot h) h op s) : Starts (.paramSet h 0x1013 1) h op s :=
  hs.congr rfl pidObjects_syncArm

theorem Starts.syncArmMonitor (hs : Starts (.syncArmMonitor h) h op s) : Starts (.paramSet h 0x1013 2) h op s :=
  hs.congr rfl pidObjects_syncArm

theorem Starts.syncDisarm (hs : Starts (.syncDisarm h) h op s) : Starts (.paramSet h 0x1013 0) h op s :=
  hs.congr rfl pidObjects_syncArm

theorem Starts.txMsgSend (hc : c < 16) (hs : Starts (.txMsgSend h c n) h op s) :
    Starts (.paramSet h (0x4047 + 0x40 * c) n) h op s := hs.congr rfl (pidObjects_msgLen hc)

theorem Starts.poweredHoursWrite (hs : Starts (.poweredHoursWrite h v) h op s) : Starts (.paramSet h 0xA022 v) h op s :=
  hs.congr rfl pidObjects_poweredHours

/-- PARAM_SET_MANY ends with the status of its first pair that fails. -/
theorem submit_paramSetMany_fails {ps : List (Nat × Nat)} {st : Status} (hs : Starts (.paramSetMany h ps) h 0x12 s)
    (hl : 1 ≤ ps.length ∧ ps.length ≤ 64) (hc : (writeMany ps (started h s)).1 = st) (hst : st ≠ .ok) :
    submit (progParamSetMany ps) (.paramSetMany h ps) s = turnedAway h 0x12 st (started h s) :=
  submit_fails hs (fun _ => rfl) (by simp only [progParamSetMany, if_pos hl, hc]) hst

end Sys2Proof.Machine

namespace Sys2Proof

open Machine

/-- Settles O4: `writeCheck` judges access, ranges and owners in that order, and a failing check writes nothing. -/
theorem paramRefusals : Obligations.ParamRefusals := by
  unfold Obligations.ParamRefusals
  intro h s
  refine ⟨fun pid v hf hs => ?_, fun pid v _ hr hs => ?_, fun pid v hf hr hs => ?_, fun ps st hst hc h1 h64 hs => ?_⟩
  · exact next_congr (submit_paramSet_fails hs (writeCheck_of_readOnly hf) nofun)
  · exact next_congr (submit_paramSet_fails hs (writeCheck_of_outOfRange hr) nofun)
  · have hw : ∃ f ∈ fieldsOf pid, f.acc ≠ .ro := by
      obtain ⟨f, hm, hacc, _⟩ := hf
      exact ⟨f, hm, by simp [hacc]⟩
    have hc : writeCheck (started h s) pid v = .badState := by
      rw [writeCheck_of_writable hw hr, writeState_of_ownerRuns hf]
    exact next_congr (submit_paramSet_fails hs hc nofun)
  · exact next_congr (submit_paramSetMany_fails hs ⟨h1, h64⟩ hc hst)

/-- Settles O3: PARAM_SET stores what passes `writeCheck`, and each row that is one write is that write (`Starts.congr`). -/
theorem paramCommands : Obligations.ParamCommands := by
  unfold Obligations.ParamCommands
  intro h s
  refine ⟨fun pid v hv hs => ?_, fun pid hv hs => ?_, fun pid v hc hs => ?_, fun ps t h1 h64 hc ht hs => ?_, fun hw hr hs => ?_,
    fun hr hsv hs => ?_, fun hr hs => ?_, fun hs => ?_, fun hs => ?_, fun c n hc h1 h64 hph hm hs => ?_,
    fun c n hc h1 h64 hph hm hs => ?_, fun c n hc h1 h64 hm hs => ?_, fun c n hc hn hs => ?_, fun v hv hl hs => ?_, fun v hl hs => ?_⟩
  · refine next_congr ((submit_prog_direct hs rfl (if_pos (by rw [hv]; rfl))).trans ?_)
    simp only [hv, Option.getD_some]
  · exact next_congr (submit_prog_direct_fails hs (if_neg (by simp [hv])) nofun)
  · exact next_congr (submit_paramSet hs hc)
  · have hcheck : (progParamSetMany ps).check (started h s) = (.ok, started h s) := by
      simp only [progParamSetMany, h1, h64, and_self, if_true, hc]
    have happly : (progParamSetMany ps).apply 0 (acceptedBy h 0x12 (started h s)) = (.ok, [], t) := by
      simp only [progParamSetMany, ht, if_true]
    exact next_congr (submit_done hs (by decide) hcheck rfl nofun nofun rfl (by simp) (by simp) happly)
  · refine next_congr ((submit_paramSet hs.syncArmOneShot ((writeCheck_syncArm _ hr).trans hw)).trans ?_)
    rw [paramStore_syncArm (by decide)]
  · refine next_congr (submit_paramSet_fails hs.syncArmOneShot ?_ nofun)
    simp [writeCheck_syncArm _ hr, writeState_syncArm, hsv]
  · exact next_congr (submit_paramSet_fails hs.syncArmOneShot (writeCheck_of_outOfRange hr) nofun)
  · refine next_congr ((submit_paramSet hs.syncArmMonitor ?_).trans (by rw [paramStore_syncArm (by decide)]))
    simp [writeCheck_syncArm _ (rangesOk_syncArm (v := 2) _ _ _ _), writeState_syncArm]
  · refine next_congr ((submit_paramSet hs.syncDisarm ?_).trans (by rw [paramStore_syncArm (by decide)]))
    simp [writeCheck_syncArm _ (rangesOk_syncArm (v := 0) _ _ _ _), writeState_syncArm]
  · refine next_congr ((submit_paramSet (hs.txMsgSend hc) ?_).trans ?_)
    · simp [writeCheck_msgLen hc (n := n) (by omega), hm]
    · rw [paramStore_msgLen hc (by omega), if_neg (by simpa using hph)]
  · refine next_congr ((submit_paramSet (hs.txMsgSend hc) ?_).trans ?_)
    · simp [writeCheck_msgLen hc (n := n) (by omega), hm]
    · rw [paramStore_msgLen hc (by omega), if_pos (by simpa using hph)]
  · refine next_congr (submit_paramSet_fails (hs.txMsgSend hc) ?_ nofun)
    simp [writeCheck_msgLen hc (n := n) (by omega), Option.isSome_iff_ne_none.2 hm]
  · refine next_congr (submit_paramSet_fails (hs.txMsgSend hc) (writeCheck_of_outOfRange ?_) nofun)
    rw [rangesOk_msgLen hc, decide_eq_false]
    omega
  · refine next_congr ((submit_paramSet hs.poweredHoursWrite ?_).trans (by rw [paramStore_poweredHours hv]))
    rw [writeCheck_poweredHours, hl, if_neg (by decide)]
  · refine next_congr (submit_paramSet_fails hs.poweredHoursWrite ?_ nofun)
    rw [writeCheck_poweredHours, if_pos hl]

end Sys2Proof
end


section
/-! SUPPORT. Table commands and protected commits (02 R525, R56, 16 R428 to R434). -/

namespace Sys2Proof.Machine

variable {c : Instr} {h : Hdr} {op : Nat} {s u t : State} {p : Prog} {pl : List Byte} {st : Status}

/-! ### Class B and C commands that need no domain -/

theorem Awake.nil (s : State) : Awake [] s := nofun

/-- A class B or C command whose work ends with another status than OK, and whose sender asked for its completion. -/
theorem submit_ends {v : State} {aux : Nat} (hs : Starts c h op s) (hcl : classOf op ≠ 1) (hroc : h.roc = true)
    (hc : p.check (started h s) = (.ok, u)) (hg : p.guard (started h s) = none)
    (hn : Awake (p.needs (started h s)) (started h s)) (hv : Awake (p.needs u) u)
    (hb : p.begin u = (none, aux, v)) (hr : v.running = s.running) (hd : v.rattle.armed = s.rattle.armed)
    (ha : p.apply aux (acceptedBy h op v) = (st, pl, t)) (hst : st ≠ .ok) :
    submit p c s = sendReply h op true st pl true (p.drop (p.undo aux t)) := by
  rw [submit_awake hs hc hg hn hv]
  unfold beginWork
  rw [hb]
  dsimp only
  have h1 : ({ runningOf c h op with aux := aux } : Running).cls ≠ 1 := hcl
  rw [proceed_accepts _ _ _ h1 rfl (by rw [hd]; exact hs.prompt)]
  rw [stopRunning_absent _ _ (by simp only [sendReply_running, hr]; exact hs.free)]
  have ha' : p.apply aux (sendReply h op false .accepted [] false v) = (st, pl, t) := ha
  cases st <;> first
    | exact absurd rfl hst
    | simp [complete, runningOf, ha', finish, hcl, hroc]

/-- A class B or C command without waits, domains and protection. -/
theorem submit_plain (hs : Starts c h op s) (hcl : classOf op ≠ 1) (hn : ∀ v, p.needs v = [])
    (hb : ∀ v, p.begin v = (none, 0, v)) (hg : p.guard (started h s) = none)
    (hc : p.check (started h s) = (.ok, started h s)) (ha : p.apply 0 (acceptedBy h op (started h s)) = (.ok, pl, t)) :
    submit p c s = completed h op pl t :=
  submit_done hs hcl hc hg (by rw [hn]; exact .nil _) (by rw [hn]; exact .nil _) (hb _) (by simp) (by simp) ha

/-! ### TABLE_READ and TABLE_WRITE -/

variable {tb first count n w : Nat}

theorem spanBad_eq_false (ht : tableSize tb = some (n, w)) (h1 : 1 ≤ count) (hn : first + count ≤ n) :
    spanBad tb first count = false := by
  have h0 : (count == 0) = false := by rw [beq_eq_false_iff_ne]; omega
  simp [spanBad, ht, h0, hn]

theorem tableEntry_size_pos (ht : tableSize tb = some (n, w)) : (tableSize tb).isNone = false := by rw [ht]; rfl

/-! ### The commits of TABLE_COMMIT -/

theorem submit_tableCommit (hs : Starts (.tableCommit h tb) h 0x15 s) (h3 : tb ≠ 3)
    (hc : (progTableCommit h tb).check (started h s) = (.ok, started h s))
    (hg : (progTableCommit h tb).guard (started h s) = none)
    (ha : (progTableCommit h tb).apply 0 (acceptedBy h 0x15 (started h s)) = (.ok, pl, t)) :
    submit (progTableCommit h tb) (.tableCommit h tb) s = completed h 0x15 pl t :=
  submit_plain hs (by decide) (fun _ => if_neg h3) (fun _ => rfl) hg hc ha

theorem progTableCommit_check_readOnly (ht : tableWritable tb = false) (s : State) :
    (progTableCommit h tb).check s = (.badParam, s) := by
  simp only [tableWritable, Bool.or_eq_false_iff, beq_eq_false_iff_ne, ne_eq] at ht
  obtain ⟨⟨⟨⟨h1, h3⟩, h4⟩, h5⟩, h7⟩ := ht
  simp only [progTableCommit]

end Sys2Proof.Machine

namespace Sys2Proof

open Machine

/-- Settles O5: a commit starts like every plain command (`submit_tableCommit`), and its table alone decides what it does.
-/
theorem tableCommands : Obligations.TableCommands := by
  unfold Obligations.TableCommands
  intro h s
  refine ⟨fun t n w first count ht h1 hn hs => ?_, fun t n w first count data hw ht h1 hn hl hs => ?_, fun m hm hc hs => ?_,
    fun t hc hr hd hn hv hs => ?_, fun p hp hc hpr hs => ?_, fun hc hpr hs => ⟨fun t hb => ?_, fun t hb hroc => ?_⟩, fun t ht hs => ?_⟩
  · have hcheck : firstFail [((tableSize t).isNone, .badParam), (spanBad t first count, .badParam)] = .ok := by
      simp [ht, spanBad_eq_false ht h1 hn]
    refine next_congr ((submit_prog_direct hs rfl hcheck).trans ?_)
    simp only [ht, Option.getD_some, started_inst]
  · have hcheck : (progTableWrite t first count data).check (started h s) = (.ok, started h s) := by
      simp [progTableWrite, ht, hw, spanBad_eq_false ht h1 hn, hl]
    refine next_congr (submit_plain hs (by decide) (fun _ => rfl) (fun _ => rfl) rfl hcheck ?_)
    simp only [progTableWrite, ht, Option.getD_some]
  · refine next_congr (submit_tableCommit hs (by decide) ?_ rfl ?_)
    · simp [progTableCommit, hm, hc]
    · simp [progTableCommit, hm]
  · exact next_congr (submit_done hs (by decide) hc rfl hn hv rfl hr hd rfl)
  · refine next_congr (submit_tableCommit hs (by decide) ?_ ?_ ?_)
    · simp [progTableCommit, hp, hc]
    · simpa [progTableCommit, hp, stepsNow] using hpr
    · simp [progTableCommit, hp]
  · refine next_congr (submit_tableCommit hs (by decide) ?_ ?_ ?_)
    · simp [progTableCommit, hc]
    · simp [progTableCommit, hpr]
    · simp only [progTableCommit, hb, if_true, period_acceptedBy, period_started]
  · refine next_congr (submit_ends (u := started h s) (v := started h s) (aux := 0) (t := t) hs (by decide) hroc ?_ ?_ (.nil _) (.nil _)
      rfl (by simp) (by simp) ?_ nofun)
    · simp [progTableCommit, hc]
    · simp [progTableCommit, hpr]
    · simp [progTableCommit, hb]
  · exact next_congr (submit_badParam hs (progTableCommit_check_readOnly ht _))

end Sys2Proof
end

section
/-! SUPPORT. Every row that spells a packet is that packet's submission (02 R50 to R56, 16 R428 to R434). -/

namespace Sys2Proof.Machine

variable {c : Instr} {h : Hdr} {op : Nat} {s u : State} {params : List Byte}

/-- Every row of a packet but POWER_STATE_REQUEST and the reserved opcodes submits its program. -/
theorem exec_eq_submit (he : encodeCmd c = some (h, op, params)) (hp : ∀ g t, c ≠ .powerStateRequest g t)
    (hb : ∀ g o, c ≠ .badOpcode g o) : exec c s = .next (submit (progOf c) (canonical c) s) := by
  cases c with
  | powerStateRequest g t => exact absurd rfl (hp g t)
  | badOpcode g o => exact absurd rfl (hb g o)
  | _ => first | rfl | exact absurd he nofun

/-- A packet that starts at once starts under the row that spells it in the opcode table. -/
theorem Starts.canonical (hw : c.wf = true) (hs : Starts c h op s) : Starts (canonical c) h op s := by
  obtain ⟨params, he, _⟩ := hs.packet
  cases c with
  | syncArmOneShot g => exact hs.congr rfl pidObjects_syncArm
  | syncArmMonitor g => exact hs.congr rfl pidObjects_syncArm
  | syncDisarm g => exact hs.congr rfl pidObjects_syncArm
  | poweredHoursWrite g v => exact hs.congr rfl pidObjects_poweredHours
  | txMsgSend g k n =>
    have hk : k < 16 := by
      simp only [Instr.wf, Bool.and_eq_true, decide_eq_true_eq] at hw
      exact hw.1.2
    exact hs.congr rfl (pidObjects_msgLen hk)
  | _ => exact hs

theorem encodeCmd_canonical : encodeCmd (canonical c) = encodeCmd c := by cases c <;> rfl

/-- A command whose checks fail, or that lacks the COSIGN flag it needs, ends with their status, whatever row spells it. -/
theorem submit_ends_at_checks {p : Prog} {st : Status} (hs : Starts c h op s)
    (hc : (ownChecks p (started h s) = (st, u) ∧ st ≠ .ok) ∨ (ownChecks p (started h s) = (.ok, u) ∧
      (∃ extra, p.guard (started h s) = some extra) ∧ h.cosign = false ∧ st = .needsCosign ∧ u = started h s)) :
    submit p c s = turnedAway h op st u := by
  rcases hc with ⟨hc, hst⟩ | ⟨hc, ⟨extra, hg⟩, hf, rfl, rfl⟩
  · exact submit_refused hs hc hst
  · exact submit_uncosigned hs hf hc hg

/-! ### The cosign check of a live approval (16 R434) -/

theorem judgeExpiry_none (hp : s.prot.proposal = none) : judgeExpiry s = s := by
  simp [judgeExpiry, hp]

theorem judgeExpiry_live {p : Proposal} (hp : s.prot.proposal = some p) (hn : p.patch = none) (hl : now s < p.made + sec30) :
    judgeExpiry s = s := by
  simp [judgeExpiry, hp, hn, Nat.not_le.2 hl]

theorem cosignCheck_approved {p : Proposal} {image : List Byte} (hf : h.cosign = true) (hp : s.prot.proposal = some p)
    (ha : p.approved = true) (hn : p.patch = none) (hl : now s < p.made + sec30) (hd : sha256 image = p.digest) :
    cosignCheck h image s = (.ok, some (digestWord p.digest), setProposal none s) := by
  simp [cosignCheck, judgeExpiry_live hp hn hl, hf, hp, ha, hn, hd]

end Sys2Proof.Machine

namespace Sys2Proof

open Machine

/-- Settles O60: every row of a packet submits its program, and a submission ends at the checks that fail. -/
theorem refusedCommands : Obligations.RefusedCommands := by
  unfold Obligations.RefusedCommands
  intro c h op s u st hw hs hc
  refine ⟨fun hp hb => ?_, fun g t hp => ?_⟩
  · obtain ⟨params, he, _⟩ := hs.packet
    rw [exec_eq_submit he hp hb]
    exact next_congr (submit_ends_at_checks (hs.canonical hw) hc)
  · subst hp
    exact next_congr (congrArg settle (submit_ends_at_checks hs hc))

/-- Settles O6: the check of SPECTRUM_PLAN's commit and of any command of the set passes the approval on to its end. -/
theorem cosignedCommit : Obligations.CosignedCommit := by
  unfold Obligations.CosignedCommit
  intro h s
  have hcheck (hc : planCommitCheck (started h s) = .ok) :
      (progTableCommit h 1).check (started h s) = (.ok, started h s) := by simp [progTableCommit, hc]
  refine ⟨fun hc hf hs => ?_, fun hc hf p hp ha hn hl hd hs => ?_,
    fun c op params extra u w v d aux pl t he hw hp hb hcl hc hg hk hn hv hbeg hr har ha hs => ?_⟩
  · refine next_congr (submit_uncosigned hs hf (u := started h s) ?_ rfl)
    rw [ownChecks_of_no_needs (fun _ => rfl), hcheck hc]
  · refine next_congr (submit_cosigned (u := started h s) (w := setProposal none (started h s)) (aux := 0)
      (v := setProposal none (started h s)) hs (by decide) rfl (hcheck hc) rfl
      (cosignCheck_approved hf ?_ ha hn ?_ hd) (.nil _) (.nil _) rfl ?_ ?_ ?_)
    · simpa using hp
    · simpa using hl
    · simp
    · simp
    · have hper : period (setProposal none (started h s)) = period s := period_started h s
      simp [progTableCommit, hper]
  · rw [exec_eq_submit he hp hb]
    exact next_congr (submit_cosigned (hs.canonical hw) hcl (encodeCmd_canonical.trans he) hc hg hk hn hv hbeg hr har ha)

end Sys2Proof
end

section
/-! SUPPORT. The cosign and patch commands (16 R431 to R438). -/

namespace Sys2Proof.Machine

variable {c : Instr} {h : Hdr} {op : Nat} {s u t : State} {p : Proposal} {q : PatchSeq}

/-! ### The judgement of expiry at a command's start (16 R436) -/

theorem judgeExpiry_patching (hp : s.prot.proposal = some p) (hq : p.patch = some q) (hl : now s < p.patchAt + sec30) :
    judgeExpiry s = s := by
  simp [judgeExpiry, hp, hq, Nat.not_le.2 hl]

theorem judgeExpiry_started_none (h : Hdr) (hp : s.prot.proposal = none) : judgeExpiry (started h s) = started h s :=
  judgeExpiry_none (by simpa using hp)

theorem judgeExpiry_started_live (h : Hdr) (hp : s.prot.proposal = some p) (hn : p.patch = none) (hl : now s < p.made + sec30) :
    judgeExpiry (started h s) = started h s := judgeExpiry_live (by simpa using hp) hn (by simpa using hl)

theorem judgeExpiry_started_patching (h : Hdr) (hp : s.prot.proposal = some p) (hq : p.patch = some q)
    (hl : now s < p.patchAt + sec30) : judgeExpiry (started h s) = started h s :=
  judgeExpiry_patching (by simpa using hp) hq (by simpa using hl)

theorem protState_pending (hp : s.prot.proposal = some p) (hn : p.patch = none) :
    protState s = if p.approved then 2 else 1 := by simp [protState, hp, hn]

theorem protState_patching (hp : s.prot.proposal = some p) (hq : p.patch = some q) : protState s = 3 := by
  simp [protState, hp, hq]

theorem cosignLeft_started (h : Hdr) (s : State) : cosignLeft (started h s) = cosignLeft s := by
  simp [cosignLeft]

theorem mayPropose_started (h : Hdr) (s : State) (k : Chan) : mayPropose (started h s) k = mayPropose s k := by
  simp [mayPropose]

/-- No packet of the sequence runs, so its cancel ends none. -/
theorem abortPatch_of_none (hr : ∀ r ∈ s.running, r.op ≠ 0x08 ∧ r.op ≠ 0x09 ∧ r.op ≠ 0x0A) : abortPatch s = s := by
  have hf : s.running.filter (fun r => r.op == 0x08 || r.op == 0x09 || r.op == 0x0A) = [] := by
    rw [List.filter_eq_nil_iff]
    intro r hm
    simpa [and_assoc] using hr r hm
  simp [abortPatch, hf, each]

/-! ### Class A commands that need no domain -/

theorem submit_query {pl : List Byte} {p : Prog} (hs : Starts c h op s) (hcl : classOf op = 1) (hn : ∀ v, p.needs v = [])
    (hb : ∀ v, p.begin v = (none, 0, v)) (hg : p.guard (started h s) = none) (hc : p.check (started h s) = (.ok, started h s))
    (ha : p.apply 0 (started h s) = (.ok, pl, t)) : submit p c s = replied h op pl t :=
  submit_direct hs hcl hn hb hg hc (by simp) ha

/-! ### COSIGN_CANCEL, COSIGN_STATUS and NONCE_GET by the proposal's state -/

theorem submit_cosignCancel (hs : Starts (.cosignCancel h) h 0xB2 s) (hj : judgeExpiry (started h s) = started h s)
    (hp : s.prot.proposal = some p) (hr : protState s = 3 → ∀ r ∈ s.running, r.op ≠ 0x08 ∧ r.op ≠ 0x09 ∧ r.op ≠ 0x0A) :
    submit (progCosignCancel h) (.cosignCancel h) s = replied h 0xB2 [] (alertCosign (queueEvent 0xB005 (roleNo h.ch)
      (protState s) (bump P.protCancels (setProposal none (started h s))))) := by
  refine submit_query hs rfl (fun _ => rfl) (fun _ => rfl) rfl ?_ ?_
  · simp [progCosignCancel, judged, hj, hp]
  · simp only [progCosignCancel, protState_started]
    split
    · next h3 => rw [abortPatch_of_none (by simpa using hr h3)]
    · rfl

theorem submit_cosignStatus (hs : Starts (.cosignStatus h) h 0xB3 s) (hj : judgeExpiry (started h s) = started h s) :
    submit progCosignStatus (.cosignStatus h) s = replied h 0xB3 (leBytes 1 (protState s) ++
      leBytes 1 (s.prot.proposal.elim 0 (fun p => roleNo p.role)) ++ leBytes 2 (cosignLeft s)) (started h s) := by
  refine submit_query hs rfl (fun _ => rfl) (fun _ => rfl) rfl ?_ ?_
  · simp [progCosignStatus, judged, hj]
  · simp [progCosignStatus, cosignLeft_started]

theorem submit_nonceGet (hs : Starts (.nonceGet h) h 0xB4 s) (hj : judgeExpiry (started h s) = started h s)
    (hp : s.prot.proposal = some p) : submit progNonceGet (.nonceGet h) s = replied h 0xB4 p.nonce (started h s) := by
  refine submit_query hs rfl (fun _ => rfl) (fun _ => rfl) rfl ?_ ?_
  · simp [progNonceGet, judged, hj, hp]
  · simp [progNonceGet, hp]

/-! ### A packet of a patch sequence -/

theorem patchPacket_patching {image : List Byte} (hf : h.cosign = true) (hj : judgeExpiry s = s) (hp : s.prot.proposal = some p)
    (hq : p.patch = some q) : patchPacket h image .ok s = (.ok, setProposal (some { p with patchAt := now s }) s) := by
  simp [patchPacket, hj, protState_patching hp hq, hf, hp]

end Sys2Proof.Machine

namespace Sys2Proof

open Machine

/-- Settles O7: a proposal that is live at a command's start is judged as it stands. -/
theorem cosignCommands : Obligations.CosignCommands := by
  unfold Obligations.CosignCommands
  intro h s
  refine ⟨fun d ho hp hm ho1 hc1 hs => ?_, fun p k hp ha hn hl hr hk hs => ?_, fun p k tag hp ha hn hl hr hk ht hs => ?_,
    fun p tag hp ha hn hl hr hs => ?_, fun p hp hn hl hs => ?_, fun p q hp hq hl hr hs => ?_, fun p q hp hq hl hs => ?_,
    fun p q hp hq hl hs => ?_, fun hp hs => ?_, fun p hp hn hl hs => ?_, fun p hp hn hl hs => ?_, fun hp hs => ?_⟩
  · have hj := judgeExpiry_started_none h hp
    refine next_congr (submit_query hs rfl (fun _ => rfl) (fun _ => rfl) rfl ?_ ?_)
    · simp [progCosignPropose, judged, hj, ho, hp, mayPropose_started, hm, Option.isSome_iff_ne_none.1 ho1, Option.isSome_iff_ne_none.1 hc1]
    · simp [progCosignPropose, draw, now]
  · have hj := judgeExpiry_started_live h hp hn hl
    refine next_congr (submit_query hs rfl (fun _ => rfl) (fun _ => rfl) rfl ?_ ?_)
    · simp [progCosignApprove, approveCheck, hj, hp, ha, hn, hr, hk, approvalTag]
    · simp [progCosignApprove, hp]
  · have hj := judgeExpiry_started_live h hp hn hl
    refine next_congr (submit_fails hs (fun _ => rfl) ?_ nofun)
    simp [progCosignApprove, approveCheck, hj, hp, ha, hn, hr, hk, approvalTag, cosignReject, Ne.symm ht]
  · have hj := judgeExpiry_started_live h hp hn hl
    refine next_congr (submit_fails hs (fun _ => rfl) ?_ nofun)
    simp [progCosignApprove, approveCheck, hj, hp, ha, hn, hr, cosignReject]
  · refine next_congr ((submit_cosignCancel hs (judgeExpiry_started_live h hp hn hl) hp ?_).trans ?_)
    · rw [protState_pending hp hn]
      split <;> nofun
    · rw [protState_pending hp hn]
  · refine next_congr ((submit_cosignCancel hs (judgeExpiry_started_patching h hp hq hl) hp (fun _ => hr)).trans ?_)
    rw [protState_patching hp hq]
  · refine next_congr ((submit_cosignStatus hs (judgeExpiry_started_patching h hp hq hl)).trans ?_)
    simp [protState_patching hp hq, hp, cosignLeft, hq, leBytes]
  · exact next_congr (submit_nonceGet hs (judgeExpiry_started_patching h hp hq hl) hp)
  · refine next_congr ((submit_cosignStatus hs (judgeExpiry_started_none h hp)).trans ?_)
    simp [protState, hp, cosignLeft, leBytes]
  · refine next_congr ((submit_cosignStatus hs (judgeExpiry_started_live h hp hn hl)).trans ?_)
    simp [protState_pending hp hn, hp, cosignLeft, hn]
  · exact next_congr (submit_nonceGet hs (judgeExpiry_started_live h hp hn hl) hp)
  · refine next_congr (submit_fails hs (fun _ => rfl) ?_ nofun)
    simp [progNonceGet, judged, judgeExpiry_started_none h hp, hp]

/-- Settles O8: each packet passes the check of its sequence, which restarts the limit for the next one. -/
theorem patchCommands : Obligations.PatchCommands := by
  unfold Obligations.PatchCommands
  intro h s p hf hp
  refine ⟨fun n d h1 hn ha hnp hl hd hs => ?_, fun q o d hq hl hn hs => ?_, fun q hq hl hd hs => ?_⟩
  · refine next_congr (submit_done (u := setProposal (some { p with patch := some ⟨n, d, []⟩, patchAt := now s }) (setProposal none (started h s))) (aux := 0) hs (by decide) ?_ rfl (.nil _) (.nil _) rfl (by simp) (by simp) rfl)
    have hk := cosignCheck_approved hf (s := started h s) (by simpa using hp) ha hnp (by simpa using hl) hd
    have hj := judgeExpiry_started_live h hp hnp hl
    simp [progFwPatchBegin, patchBeginCheck, patchMemory, hk, hj, hp]
    omega
  · have hj := judgeExpiry_started_patching h hp hq hl
    have hc : (progFwPatchData h o d).check (started h s) = (.ok, setProposal (some { p with patchAt := now s }) (started h s)) := by
      have hown : patchDataOwn o d.length (started h s) = .ok := by simp [patchDataOwn, patchSeq, hp, hq, hn]
      have := patchPacket_patching (image := canonicalImage 0x09 (leBytes 4 o ++ d)) hf hj (s := started h s) (by simpa using hp) hq
      simpa [progFwPatchData, hj, hown] using this
    refine next_congr (submit_done (aux := 0) hs (by decide) hc rfl (.nil _) (.nil _) rfl (by simp) (by simp) ?_)
    simp [progFwPatchData, hq]
  · have hj := judgeExpiry_started_patching h hp hq hl
    have hc : (progFwPatchCommit h).check (started h s) = (.ok, setProposal (some { p with patchAt := now s }) (started h s)) := by
      have := patchPacket_patching (image := canonicalImage 0x0A []) hf hj (s := started h s) (by simpa using hp) hq
      simp [progFwPatchCommit, this, patchSeq, hq, hd]
    refine next_congr (submit_done (aux := 0) hs (by decide) hc rfl (.nil _) (.nil _) rfl (by simp) (by simp) ?_)
    simp [progFwPatchCommit, patchSeq, hq, endPatch, protState]

end Sys2Proof
end

section
/-! SUPPORT. Budget, plan, ageing and perturbation commands (03 R71, 17 R455 to R462, 18 R465 to R471). -/

namespace Sys2Proof.Machine

variable {h : Hdr} {s t : State} {n : Nat} {p : Pert}

/-! ### Parameters and windows read as before after a start and after ACCEPTED -/

theorem parGet_started (h : Hdr) (s : State) {k : Nat} (hk : k ≠ P.sysCmdsExecuted) : parGet (started h s) k = parGet s k := by
  refine (parGet_parSet_other _ _ _ _ hk).trans ?_
  simp [parGet]

@[simp] theorem parGet_acceptedBy (h : Hdr) (op : Nat) (s : State) (k : Nat) : parGet (acceptedBy h op s) k = parGet s k := by
  simp [parGet]

@[simp] theorem rxEdge_started (h : Hdr) (s : State) : rxEdge (started h s) = rxEdge s := parGet_started h s (by decide)
@[simp] theorem txEdge_started (h : Hdr) (s : State) : txEdge (started h s) = txEdge s := parGet_started h s (by decide)
@[simp] theorem openLinks_started (h : Hdr) (s : State) : openLinks (started h s) = openLinks s := by simp [openLinks]
@[simp] theorem openCarriers_started (h : Hdr) (s : State) : openCarriers (started h s) = openCarriers s := by
  simp [openCarriers]

/-! ### Perturbations and loopbacks -/

theorem disarm_armed (cause : Nat) (hp : smFind s.rattle.armed n = some p) (ha : p.isArmed = true) :
    disarm cause n s = queueEvent 0xF002 n cause (setArmed (smPut s.rattle.armed n { p with stopping := true, again := none }) s) := by
  simp [disarm, hp, ha]

theorem pertArmed_started (h : Hdr) (s : State) (n : Nat) : pertArmed (started h s) n = pertArmed s n := by simp [pertArmed]

theorem progRattleArm_check {target v : Nat} (hok : pertOk n target v = true) (hn : pertArmed s n = false)
    (h4 : (s.rattle.armed.filter (fun x => x.2.isArmed)).length < 4) :
    (progRattleArm n target v).check (started h s) = (.ok, started h s) := by
  simp [progRattleArm, pertArmed_started, hok, hn, h4]

theorem submit_testLoopback {kind index : Nat} (hs : Starts (.testLoopback h kind index) h 0xF2 s)
    (hc : ((progTestLoopback kind index).check (started h s)).1 = .ok) :
    submit (progTestLoopback kind index) (.testLoopback h kind index) s =
      completed h 0xF2 [] ((progTestLoopback kind index).apply 0 (acceptedBy h 0xF2 (started h s))).2.2 :=
  submit_plain hs (by decide) (fun _ => rfl) (fun _ => rfl) rfl ((Prod.ext hc rfl)) rfl

end Sys2Proof.Machine

namespace Sys2Proof

open Machine

/-- Settles O9: direct programs complete at their start; MARGIN_REPLAN waits for its plan. -/
theorem reckonerCommands : Obligations.ReckonerCommands := by
  unfold Obligations.ReckonerCommands
  intro h s
  refine ⟨fun r i b hb hs => ?_, fun hb hr hs => ?_, fun hb hs => ?_, fun hs => ?_, fun n t v hok hn h4 hl hs => ?_,
    fun n t v hok hn h4 hl hf hs => ?_, fun n p h1 h9 hp ha hs => ?_, fun hs => ?_, fun p hp hph hr hs => ?_,
    fun i hc hw hs => ?_, fun i hs => ?_⟩
  · refine next_congr ((submit_prog_direct hs rfl (by rw [hb]; rfl)).trans ?_)
    simp only [hb, Option.getD_some]
  · exact next_congr (submit_waits hs (by decide) (by simp [progMarginReplan, hb]) rfl (.nil _) (.nil _) rfl hr nofun)
  · exact next_congr (submit_fails hs (fun _ => rfl) (by simp [progMarginReplan, hb]) nofun)
  · exact next_congr (submit_prog_direct hs rfl rfl)
  · refine next_congr (submit_plain hs (by decide) (fun _ => rfl) (fun _ => rfl) ?_ (progRattleArm_check hok hn h4) ?_)
    · simp [progRattleArm, hl]
    · cases hm : smFind s.rattle.armed n <;> simp [progRattleArm, hm, each, freshPert]
  · refine next_congr (submit_uncosigned (u := started h s) (extra := []) hs hf ?_ ?_)
    · rw [ownChecks_of_no_needs (fun _ => rfl), progRattleArm_check hok hn h4]
    · simp [progRattleArm, hl]
  · refine next_congr ((submit_prog_direct hs rfl (if_pos (.inr ⟨h1, h9⟩))).trans ?_)
    simp only [if_neg (show n ≠ 0xFF by omega), each, List.foldl_cons, List.foldl_nil]
    rw [disarm_armed 1 (s := started h s) (by simpa using hp) ha, started_rattle]
  · refine next_congr ((submit_prog_direct hs rfl (if_pos (.inl rfl))).trans ?_)
    have hall : (List.range 9).map (· + 1) = [1, 2, 3, 4, 5, 6, 7, 8, 9] := by decide
    simp only [if_true, hall]
  · refine next_congr ((submit_testLoopback hs ?_).trans rfl)
    simp [progTestLoopback, Prog.direct, hph, hr]
    omega
  · refine next_congr ((submit_testLoopback hs ?_).trans ?_)
    · simp only [progTestLoopback, Prog.direct, openCarriers_started, hc, hw]
      rfl
    · simp [progTestLoopback, Prog.direct]
  · refine next_congr ((submit_testLoopback hs rfl).trans ?_)
    simp [progTestLoopback, Prog.direct, onAudio]

end Sys2Proof
end

section
/-! SUPPORT. Power commands (15 R407 to R412). -/

namespace Sys2Proof.Machine

variable {h : Hdr} {s t : State} {g d hold : Nat}

@[simp] theorem entryAsks_started (h : Hdr) (s : State) (g : Nat) : entryAsks g (started h s) = entryAsks g s := by
  simp [entryAsks]

@[simp] theorem moving_started (h : Hdr) (s : State) : moving (started h s) = moving s := by simp [moving]

theorem progPowerStateRequest_check (hg : g ≤ 4) (ho : 2 < g → othersInFlight s = false) :
    (progPowerStateRequest g).check s = (.ok, s) := by
  have h4 : ¬4 < g := by omega
  by_cases h2 : 2 < g <;> simp [progPowerStateRequest, h4, h2, ho]

theorem progPowerStateRequest_guard (hg : g = 4 → (policy s).testBit 9 = false) :
    (progPowerStateRequest g).guard (started h s) = none := by
  by_cases h4 : g = 4
  · simp [progPowerStateRequest, hg h4]
  · simp [progPowerStateRequest, h4]

/-- The value that a refused request keeps names the domain and the cause. -/
theorem progPowerStateRequest_apply_refused {c : Nat} (hd : d < 16) (s : State) :
    (progPowerStateRequest g).apply (1 + d + 16 * c) s = (.badState, [BitVec.ofNat 8 d], entryRefused g d c s) := by
  have h1 : (1 + d + 16 * c - 1) % 16 = d := by omega
  have h2 : (1 + d + 16 * c - 1) / 16 = c := by omega
  have h0 : 1 + d + 16 * c ≠ 0 := by omega
  simp only [progPowerStateRequest, h1, h2, h0, if_false]

theorem rollback_of_no_entry (hn : s.power.entry = none) : rollback s = s := by simp [rollback, hn]

theorem progDomainHold_check (h1 : 1 ≤ d) (h11 : d ≤ 11) (hh : hold ≤ 1) (hm : moving s = false)
    (ha : domAllowed s.power.state d = true) : (progDomainHold d hold).check (started h s) = (.ok, started h s) := by
  have hb : ¬(d = 0 ∨ 11 < d ∨ 1 < hold) := by omega
  simp [progDomainHold, hb, hm, ha]

end Sys2Proof.Machine

namespace Sys2Proof

open Machine

/-- Settles O10: a request asks the first domain that its state does not allow; its value tells how it ends. -/
theorem powerCommands : Obligations.PowerCommands := by
  unfold Obligations.PowerCommands
  intro h s
  refine ⟨fun g hg ho hp he hs => ⟨fun hn => ?_, fun d ds hn hr => ?_, fun d ds c hn hd hr hc hroc => ?_⟩, fun g hg hs => ?_,
    fun hs => ?_, fun d h1 h11 hm ha hs => ?_, fun d h1 h11 hm ha hs => ?_⟩
  · refine next_congr (congrArg settle (submit_done (v := started h s) (aux := 0) hs (by decide) (progPowerStateRequest_check hg ho)
      (progPowerStateRequest_guard hp) (.nil _) (.nil _) ?_ (by simp) (by simp) ?_))
    · simp only [progPowerStateRequest, hn]
    · simp only [progPowerStateRequest, if_true]
  · intro e v hv
    refine next_congr (congrArg settle (submit_waits (v := v) (aux := 0) hs (by decide) (progPowerStateRequest_check hg ho)
      (progPowerStateRequest_guard hp) (.nil _) (.nil _) ?_ hv nofun))
    simp only [progPowerStateRequest, hn, hr, ne_eq, not_true_eq_false, if_false, now_started, started_power, v, e]
  · have hb : (progPowerStateRequest g).begin (started h s) = (none, 1 + d + 16 * c, started h s) := by
      simp only [progPowerStateRequest, hn, hr, ne_eq, hc, not_false_eq_true, if_true]
    have e := submit_ends hs (by decide) hroc (progPowerStateRequest_check hg ho) (progPowerStateRequest_guard hp) (.nil _) (.nil _)
      hb (by simp) (by simp) (progPowerStateRequest_apply_refused hd _) nofun
    have hu : (progPowerStateRequest g).drop ((progPowerStateRequest g).undo (1 + d + 16 * c)
        (entryRefused g d c (acceptedBy h 0x90 (started h s)))) = entryRefused g d c (acceptedBy h 0x90 (started h s)) :=
      rollback_of_no_entry (by simp [entryRefused, each, he])
    rw [hu] at e
    exact next_congr (congrArg settle e)
  · exact next_congr (congrArg settle (submit_badParam hs (by simp [progPowerStateRequest, hg])))
  · refine next_congr ((submit_prog_direct hs rfl rfl).trans ?_)
    simp only [started_power]
  · have hc := progDomainHold_check (h := h) (hold := 1) h1 h11 (by decide) hm (ha d (by simp)).1
    refine next_congr (submit_done hs (by decide) hc rfl (ha.started h) (ha.started h) rfl (by simp) (by simp) ?_)
    simp [progDomainHold]
  · have hc := progDomainHold_check (h := h) (hold := 0) h1 h11 (by decide) hm ha
    refine next_congr (submit_done hs (by decide) hc rfl (.nil _) (.nil _) rfl (by simp) (by simp) ?_)
    simp [progDomainHold]

end Sys2Proof
end

section
/-! SUPPORT. RF commands (04 R107, R112, 05 R125 to R156, 08 R227). -/

namespace Sys2Proof.Machine

variable {h : Hdr} {s t u : State} {path e a b c n : Nat}

@[simp] theorem locked_started (h : Hdr) (s : State) (id : Nat) : locked (started h s) id = locked s id := by simp [locked]
@[simp] theorem locked_acceptedBy (h : Hdr) (op : Nat) (s : State) (id : Nat) : locked (acceptedBy h op s) id = locked s id := by
  simp [locked]
@[simp] theorem loFree_started (h : Hdr) (s : State) : loFree (started h s) = loFree s := by simp [loFree]
@[simp] theorem rxEdge_acceptedBy (h : Hdr) (op : Nat) (s : State) : rxEdge (acceptedBy h op s) = rxEdge s := by simp [rxEdge]
@[simp] theorem openLinks_acceptedBy (h : Hdr) (op : Nat) (s : State) : openLinks (acceptedBy h op s) = openLinks s := by
  simp [openLinks]

/-! ### A command whose domains run -/

theorem ownChecks_awake {p : Prog} {st : Status} (hn : Awake (p.needs s) s) (hc : p.check s = (st, u)) :
    ownChecks p s = (st, u) := by
  have hall : (p.needs s).all (domAllowed s.power.state) = true := List.all_eq_true.2 (fun d hd => (hn d hd).1)
  simp only [ownChecks, hc, hall, if_true, ite_self]

theorem submit_fails_awake {p : Prog} {c : Instr} {op : Nat} {st : Status} (hs : Starts c h op s)
    (hn : Awake (p.needs (started h s)) (started h s)) (hc : p.check (started h s) = (st, u)) (hst : st ≠ .ok) :
    submit p c s = turnedAway h op st u := submit_refused hs (ownChecks_awake hn hc) hst

/-! ### A command that needs an LO at its window (04 R107) -/

theorem needLock_of_locked {id : Nat} (hl : locked s id = true) : needLock id s = (none, 0, s) := by simp [needLock, hl]

theorem needLock_of_unlocked {id : Nat} (hl : locked s id = false) :
    needLock id s = (some (.lock id), 0, if (synth s id).phase = .off then relockWindow id s else s) := by
  simp only [needLock, hl, Bool.false_eq_true, if_false]
  split <;> rfl

/-! ### RF_TUNE_WINDOW -/

theorem tuneCheck_rx (h1 : 470000000 ≤ e) (h2 : e ≤ 904000000) (hl : openLinks s = []) (hsc : s.rf.scan = none) :
    tuneCheck 0 e s = .ok := by simp [tuneCheck, h1, h2, hl, hsc]

theorem tuneCheck_tx (h1 : 470000000 ≤ e) (h2 : e ≤ 952000000) (hc : openCarriers s = []) : tuneCheck 1 e s = .ok := by
  simp [tuneCheck, h1, h2, hc]

theorem tuneCheck_rx_linked (h1 : 470000000 ≤ e) (h2 : e ≤ 904000000) (hl : openLinks s ≠ []) : tuneCheck 0 e s = .badState := by
  simp [tuneCheck, h1, h2, hl]

/-! ### RF_CALIBRATE -/

theorem startFullCal_inCal (s : State) : (startFullCal s).clk.rx.inCal = true ∧ (startFullCal s).clk.tx.inCal = true := by
  simp [startFullCal, each, onSynth]

/-- The synthesisers come first, then the work of the first item asked for begins. -/
theorem progRfCalibrate_begin (i : Nat) (s : State) (hi : (i.testBit 0 || i.testBit 1 || i.testBit 2) = true) :
    (progRfCalibrate i).begin s = (some .calibrate, b2n (i.testBit 0) + 2 * b2n (i.testBit 1) + 4 * b2n (i.testBit 2),
      if i.testBit 0 then startFullCal s
        else if i.testBit 2 then startQcal (if i.testBit 1 then startImageWork s else s) else startImageWork s) := by
  obtain ⟨h1, h2⟩ := startFullCal_inCal s
  cases h0 : i.testBit 0 <;> cases h3 : i.testBit 1 <;> cases h4 : i.testBit 2 <;>
    simp_all [progRfCalibrate, calPending, b2n]

theorem startFullCal_running (s : State) : (startFullCal s).running = s.running := by simp [startFullCal, each]

theorem startQcal_running (s : State) : (startQcal s).running = s.running := rfl

theorem startImageWork_running (s : State) : (startImageWork s).running = s.running := by
  unfold startImageWork withTone
  dsimp only
  split <;> rfl

/-! ### The scan -/

/-- A scan that is admitted changes the ledger alone. -/
theorem scanCheck_ok (hc : scanCheck a b c n s = (.ok, u)) : u = { s with rck := u.rck } := by
  have hadmit (hw : admitWork [scanAsk s] s = (.ok, u)) : u = { s with rck := u.rck } := by
    simp only [admitWork, admitFor, List.foldl_cons, List.foldl_nil, enterAsk, scanAsk, if_true] at hw
    split at hw
    · cases hw
    · cases hw
      rfl
  simp only [scanCheck] at hc
  split at hc
  · exact hadmit hc
  · next hne => exact absurd (Prod.mk.inj hc).1 hne

theorem scanCheck_keeps (hc : scanCheck a b c n s = (.ok, u)) : u.par = s.par ∧ u.running = s.running ∧ u.clk = s.clk ∧
    u.rf = s.rf ∧ u.power = s.power ∧ u.supply = s.supply ∧ u.rattle = s.rattle := by
  rw [scanCheck_ok hc]
  exact ⟨rfl, rfl, rfl, rfl, rfl, rfl, rfl⟩

theorem progRfScanStart_begin_stays (hm : parGet s P.clkRampProfile = 1 ∨ dwellMove (freshScan a b c n s) s = none) :
    (progRfScanStart a b c n).begin s = needLock 1 s := by
  rcases hm with hm | hm <;> simp [progRfScanStart, hm]

theorem progRfScanStart_begin_moves (hp : parGet s P.clkRampProfile ≠ 1) (hm : dwellMove (freshScan a b c n s) s = some e) :
    (progRfScanStart a b c n).begin s = (some (.lock 1), 0, startLock 1 (e - 8000000) s) := by
  simp [progRfScanStart, hp, hm]

theorem endScan_running {sc : Scan} (hsc : s.rf.scan = some sc) : endScan s = (
    let v := endWork ⟨wkScan, 0⟩ (queueEvent 0x2003 sc.done sc.total.length
      (bump P.rfrScansDone { s with rf := { s.rf with scan := none, scanReturn := false } }))
    if s.rf.scanReturn then relockWindow 1 v else v) := by
  simp only [endScan, hsc]

theorem endScan_idle (hsc : s.rf.scan = none) : endScan s = s := by simp only [endScan, hsc]

theorem freshScan_acceptedBy (h : Hdr) (op a b c n : Nat) (s : State) :
    freshScan a b c n (acceptedBy h op s) = freshScan a b c n s := by
  simp [freshScan, loFree]

end Sys2Proof.Machine

namespace Sys2Proof

open Machine

/-- Settles O11: an LO at its window decides whether a command waits (`needLock_of_locked`, `needLock_of_unlocked`). -/
theorem rfCommands : Obligations.RfCommands := by
  unfold Obligations.RfCommands
  intro h s
  refine ⟨fun e h1 h2 hl hsc ha hs => ?_, fun e h1 h2 hc ha hs => ?_, fun e hl h1 h2 ha hs => ?_, fun i hb hi hc ha hs => ?_,
    fun i hb hi ha hs => ?_, fun a b c n u hc ha hs => ?_, fun a b c n h1 h2 h3 h4 h5 h6 h7 hr hf => ?_, fun sc hsc hs => ?_,
    fun hsc hs => ?_, fun a m g h1 h2 h3 ha hs => ?_, fun f n h1 h2 h3 h4 hs => ?_, fun l c o h1 h2 h3 h4 h5 hs => ?_⟩
  · have hc : (progRfTuneWindow 0 e).check (started h s) = (.ok, started h s) := by
      simp only [progRfTuneWindow]
      rw [tuneCheck_rx h1 h2 (by simpa using hl) (by simpa using hsc)]
    exact next_congr (submit_locks hs hc rfl (ha.started h) (ha.started h) rfl (by simp))
  · have hc : (progRfTuneWindow 1 e).check (started h s) = (.ok, started h s) := by
      simp only [progRfTuneWindow]
      rw [tuneCheck_tx h1 h2 (by simpa using hc)]
    exact next_congr (submit_locks hs hc rfl (ha.started h) (ha.started h) rfl (by simp))
  · have hc : (progRfTuneWindow 0 e).check (started h s) = (.badState, started h s) := by
      simp only [progRfTuneWindow]
      rw [tuneCheck_rx_linked h1 h2 (by simpa using hl)]
    exact next_congr (submit_fails_awake hs (ha.started h) hc nofun)
  · have hcheck : (progRfCalibrate i).check (started h s) = (.ok, started h s) := by
      simp only [progRfCalibrate, started_supply, hb, openCarriers_started]
      cases h2 : i.testBit 2
      · rfl
      · rw [hc h2]
        rfl
    refine next_congr (submit_waits hs (by decide) hcheck rfl (ha.started h) (ha.started h) (progRfCalibrate_begin i _ hi) ?_ nofun)
    cases i.testBit 0 <;> cases i.testBit 1 <;> cases i.testBit 2 <;> simp [startFullCal_running, startQcal_running, startImageWork_running]
  · simp only [Bool.or_eq_false_iff] at hi
    obtain ⟨⟨h0, h1⟩, h2⟩ := hi
    have hcheck : (progRfCalibrate i).check (started h s) = (.ok, started h s) := by simp [progRfCalibrate, hb, h2]
    have hn : (progRfCalibrate i).needs (started h s) = [Dom.rfa] := by simp [progRfCalibrate, h2]
    refine next_congr (submit_done (v := started h s) (aux := 0) hs (by decide) hcheck rfl (hn ▸ ha.started h) (hn ▸ ha.started h) ?_
      (by simp) (by simp) ?_)
    · simp [progRfCalibrate, h0, h1, h2, calPending, b2n]
    · simp [progRfCalibrate, h0, h2]
  · obtain ⟨hupar, hurun, huclk, hurf, hupow, husup, hurat⟩ := scanCheck_keeps hc
    have hn : Awake [Dom.rfa, Dom.chz] u := (ha.started h).of hupow husup
    have hrun : u.running = s.running := by rw [hurun, started_running]
    have hpar : parGet u P.clkRampProfile = parGet s P.clkRampProfile :=
      (by simp only [parGet, hupar] : _ = parGet (started h s) P.clkRampProfile).trans (parGet_started h s (by decide))
    have hrx : rxEdge u = rxEdge s := (by simp only [rxEdge, parGet, hupar] : _ = rxEdge (started h s)).trans (rxEdge_started h s)
    have hsyn : synth u 1 = synth s 1 := by simp only [synth, huclk, started_clk]
    have hlock : locked u 1 = locked s 1 := by simp only [locked, hsyn]
    refine ⟨fun hl hm => ?_, fun e hp hm => ?_, fun hl hm => ?_⟩
    · have hb := (progRfScanStart_begin_stays (hpar ▸ hm)).trans (needLock_of_locked (hlock.trans hl))
      refine next_congr (submit_done hs (by decide) hc rfl (ha.started h) hn hb hrun (by rw [hurat, started_rattle]) ?_)
      have hlo : loEdge (acceptedBy h 0x22 u) = loEdge s := by simp only [loEdge, acceptedBy_clk, huclk, started_clk]
      have hback : decide (loEdge (acceptedBy h 0x22 u) ≠ rxEdge (acceptedBy h 0x22 u)) = decide (loEdge s ≠ rxEdge s) :=
        decide_eq_decide.2 (by rw [hlo, rxEdge_acceptedBy, hrx])
      simp only [progRfScanStart, hback, freshScan_acceptedBy, acceptedBy_rf, hurf, started_rf]
    · have hb := progRfScanStart_begin_moves (hpar ▸ hp) hm
      exact next_congr (submit_locks hs hc rfl (ha.started h) hn hb (by rw [startLock_running, hrun]))
    · have hb := (progRfScanStart_begin_stays (hpar ▸ hm)).trans (needLock_of_unlocked (hlock.trans hl))
      rw [hsyn] at hb
      refine next_congr (submit_locks hs hc rfl (ha.started h) hn hb ?_)
      split <;> simp [hrun]
  · have hpar : parGet (started h s) P.clkRampProfile = parGet s P.clkRampProfile := parGet_started h s (by decide)
    have hfail : firstFail [
        (decide (¬(470000000 ≤ a ∧ a < b ∧ b ≤ 1000000000)), .badParam),
        (decide (¬(10000 ≤ c ∧ c ≤ 200000 ∧ c % 1000 = 0)), .badParam),
        (decide (n > 255), .badParam),
        (parGet s P.clkRampProfile == 1 && rxEdge s == 0, .badState),
        (parGet s P.clkRampProfile == 1 && !(withinRx (rxEdge s) a && withinRx (rxEdge s) b), .badParam),
        (!loFree s && (rxEdge s == 0 || decide (b < rxEdge s ∨ rxEdge s + 96000000 < a)), .badState)] = .ok := by
      have h7' : ¬255 < n := by omega
      have hramp : parGet s P.clkRampProfile = 1 → rxEdge s ≠ 0 ∧ withinRx (rxEdge s) a = true ∧ withinRx (rxEdge s) b = true :=
        fun hp => hr.resolve_left (absurd hp)
      have hlo : loFree s = false → rxEdge s ≠ 0 ∧ rxEdge s ≤ b ∧ a ≤ rxEdge s + 96000000 :=
        fun hl => hf.resolve_left (by simp [hl])
      have hr' : (parGet s P.clkRampProfile == 1 && rxEdge s == 0) = false ∧
          (parGet s P.clkRampProfile == 1 && !(withinRx (rxEdge s) a && withinRx (rxEdge s) b)) = false := by
        by_cases hp : parGet s P.clkRampProfile = 1
        · obtain ⟨hx, hwa, hwb⟩ := hramp hp
          simp [hx, hwa, hwb]
        · simp [hp]
      have hf' : (!loFree s && (rxEdge s == 0 || decide (b < rxEdge s ∨ rxEdge s + 96000000 < a))) = false := by
        cases hl : loFree s
        · obtain ⟨hx, hxb, hax⟩ := hlo hl
          simp [hx, hxb, hax]
        · rfl
      simp only [firstFail_cons, firstFail_nil, h1, h2, h3, h4, h5, h6, h7', hr', hf', not_true_eq_false, and_true, decide_false, Bool.false_eq_true, if_false]
    simp only [scanCheck, hpar, rxEdge_started, loFree_started, hfail]
  · refine next_congr ((submit_prog_direct hs rfl rfl).trans ?_)
    rw [endScan_running (by simpa using hsc)]
    simp only [started_rf]
  · refine next_congr ((submit_prog_direct hs rfl rfl).trans ?_)
    rw [endScan_idle (by simpa using hsc)]
  · have hc : (progRfSetGain a m g).check (started h s) = (.ok, started h s) := by
      have ham : ¬(2 < a ∨ 1 < m) := by omega
      have hg : ¬(m = 1 ∧ ¬(-6 ≤ g ∧ g ≤ 30 ∧ g % 3 = 0)) := fun hx => hx.2 (h3 hx.1)
      simp only [progRfSetGain, Prog.direct, gt_iff_lt, firstFail_cons, ham, hg, decide_false, Bool.false_eq_true, if_false,
        firstFail_nil]
    refine next_congr (submit_reply hs rfl (fun _ => rfl) rfl hc (by simp) (ha.started h) (ha.started h) ?_)
    interval_cases a <;> interval_cases m <;> simp [progRfSetGain, Prog.direct, setChain]
  · exact next_congr (submit_prog_direct hs rfl (if_pos ⟨h1, h2, h3, h4⟩))
  · have hc : (progRfCoordinate l c o).check (started h s) = (.ok, started h s) := by
      have h0 : ¬(64 < l ∨ 16 < c ∨ l = 0 ∧ c = 0) := by omega
      have hl : ¬(0 < l ∧ rxEdge (started h s) = 0) := fun hx => h4 hx.1 hx.2
      have hc : ¬(0 < c ∧ txEdge (started h s) = 0) := fun hx => h5 hx.1 hx.2
      simp only [progRfCoordinate, gt_iff_lt, firstFail_cons, h0, hl, hc, decide_false, Bool.false_eq_true, if_false, firstFail_nil]
    exact next_congr (submit_plain hs (by decide) (fun _ => rfl) (fun _ => rfl) rfl hc rfl)

end Sys2Proof
end

section
/-! SUPPORT. Link commands (07 R194, R195, R218, R222, 05 R135, R136). -/

namespace Sys2Proof.Machine

variable {h : Hdr} {s t u : State} {n hz c m x a op : Nat}

/-! ### What an admission leaves -/

theorem admitFor_keeps {k : Nat} {l : List Ask} {st : Status} (hu : admitFor k l s = (st, u)) : u.running = s.running ∧
    u.power = s.power ∧ u.supply = s.supply ∧ u.rattle = s.rattle ∧ u.clk = s.clk ∧ u.rf = s.rf := by
  obtain rfl : u = (admitFor k l s).2 := by rw [hu]
  simp

/-! ### Reads after a start and after ACCEPTED -/

@[simp] theorem announced_started (h : Hdr) (s : State) (x : Option Nat) : announced (started h s) x = announced s x := by
  simp [announced, clRunning]
@[simp] theorem announced_acceptedBy (h : Hdr) (op : Nat) (s : State) (x : Option Nat) :
    announced (acceptedBy h op s) x = announced s x := by simp [announced, clRunning]
@[simp] theorem retunePeriod_started (h : Hdr) (s : State) (b : Bool) (l p : Nat) :
    retunePeriod (started h s) b l p = retunePeriod s b l p := by simp [retunePeriod]
@[simp] theorem privSlot_started (h : Hdr) (s : State) (n : Nat) : privSlot (started h s) n = privSlot s n := by
  simp [privSlot, privOf]
@[simp] theorem altNow_started (h : Hdr) (s : State) : altNow (started h s) = altNow s := by simp [altNow]
@[simp] theorem altNow_acceptedBy (h : Hdr) (op : Nat) (s : State) : altNow (acceptedBy h op s) = altNow s := by simp [altNow]

/-! ### LINK_OPEN -/

/-- The terms of a session number in the checks of an open: none, or one that is neither free nor leaving nor named by another user. -/
theorem sessionTerms_false {used : Bool} {q : Session} (hx : x ≠ 0xFFFF → x ≤ 255 ∧ q.phase ≠ .free ∧ q.phase ≠ .removing ∧ used = false) :
    (x != 0xFFFF && decide (x > 255)) = false ∧ (x != 0xFFFF && q.phase == .free) = false ∧
      (x != 0xFFFF && (q.phase == .removing || used)) = false := by
  by_cases h0 : x = 0xFFFF
  · simp [h0]
  · obtain ⟨h1, h2, h3, h4⟩ := hx h0
    simp [h1, h2, h3, h4]

theorem linkOpenCheck_admits (hn : n ≤ 63) (ho : (link s n).isOpen = false) (he : rxEdge s ≠ 0)
    (hd : [Dom.rfa, Dom.chz, Dom.dmd].all (domAllowed s.power.state) = true) (hsc : s.rf.scan = none ∨ loFree s = false)
    (hc : c ≤ 2) (hm : m ≤ 1) (ha : a ≤ 1023) (hx : x ≠ 0xFFFF → x ≤ 255 ∧ (session s x).phase ≠ .free ∧
      (session s x).phase ≠ .removing ∧ (openLinks s).any (fun q => q.2.session == some x) = false) (hi : insideWindow (rxEdge s) hz = true)
    (hp : permitted s.rf.perm false hz = true) (hr : routesFit (onLink n (fun _ => freshLink hz c m x a) s) = true) :
    linkOpenCheck n hz c m x a s = admitWork [linkAsk n c] s := by
  have hrange : ¬(2 < c ∨ 1 < m ∨ 1023 < a) := by omega
  have hscan : (s.rf.scan.isSome && loFree s) = false := by rcases hsc with hsc | hsc <;> simp [hsc]
  obtain ⟨hx1, hx2, hx3⟩ := sessionTerms_false hx
  have hfirst : firstFail [
      (decide (n > 63), .badParam),
      ((link s n).isOpen, .badState),
      (rxEdge s == 0 || !([Dom.rfa, Dom.chz, Dom.dmd].all (domAllowed s.power.state)) ||
        (s.rf.scan.isSome && loFree s), .badState),
      (decide (c > 2 ∨ m > 1 ∨ a > 1023) || (x != 0xFFFF && decide (x > 255)) || (x != 0xFFFF && (session s x).phase == .free),
        .badParam),
      (x != 0xFFFF && ((session s x).phase == .removing || (openLinks s).any (fun q => q.2.session == some x)), .badState),
      (!insideWindow (rxEdge s) hz, .badParam),
      (!permitted s.rf.perm false hz, .planForbidden)] = .ok := by
    simp only [firstFail_cons, hx1, hx2, hx3, hd, hscan]
    simp [ho, he, hrange, hi, hp, Nat.not_lt.2 hn]
  simp only [linkOpenCheck, hfirst, hr, Bool.not_true, Bool.false_eq_true, if_false]

theorem linkOpenCheck_open (hn : n ≤ 63) (ho : (link s n).isOpen = true) : linkOpenCheck n hz c m x a s = (.badState, s) := by
  simp [linkOpenCheck, ho, Nat.not_lt.2 hn]

/-! ### LINK_RETUNE and LINK_SET_ALT -/

theorem progLinkRetune_check {p p' : Nat} (hn : n ≤ 63) (ho : (link s n).isOpen = true) (hh : (link s n).hop = none)
    (hi : insideWindow (rxEdge s) hz = true) (hp : permitted s.rf.perm false hz = true)
    (hw : retunePeriod s (announced s (link s n).session) (parNow s (P.linkHopLead n)) p = some p') :
    (progLinkRetune n hz p).check s = (.ok, s) := by
  simp [progLinkRetune, ho, hh, hi, hp, hw, Nat.not_lt.2 hn]

theorem progLinkSetAlt_check {fs : List Nat} (hn : n ≤ 63) (he : rxEdge s ≠ 0)
    (hf : ∀ f ∈ fs, f = 0 ∨ (insideWindow (rxEdge s) f = true ∧ permitted s.rf.perm false f = true)) :
    (progLinkSetAlt n fs).check s = (.ok, s) := by
  have hin : fs.any (fun f => f != 0 && !insideWindow (rxEdge s) f) = false := by
    rw [List.any_eq_false]
    intro f hm
    rcases hf f hm with h0 | ⟨h1, _⟩ <;> simp [*]
  have hok : fs.any (fun f => f != 0 && !permitted s.rf.perm false f) = false := by
    rw [List.any_eq_false]
    intro f hm
    rcases hf f hm with h0 | ⟨_, h2⟩ <;> simp [*]
  simp only [progLinkSetAlt, firstFail_cons, firstFail_nil, hin, hok]
  simp [he, Nat.not_lt.2 hn]

/-! ### LINK_PRIVILEGE -/

theorem withTone_running (f : State → State) (s : State) : (withTone f s).running = (f s).running := by
  simp only [withTone]
  split <;> rfl

theorem progLinkPrivilege_check {on : Nat} (hn : n ≤ 63) (hon : on ≤ 1) (ho : (link s n).isOpen = true)
    (hp : on = 1 → (privSlot s n).isSome = true) : (progLinkPrivilege n on).check s = (.ok, s) := by
  have hr : ¬(63 < n ∨ 1 < on) := by omega
  have hslot : (on == 1 && (privSlot s n).isNone) = false := by simpa using hp
  simp only [progLinkPrivilege, firstFail_cons, firstFail_nil, hslot]
  simp [hr, ho]

end Sys2Proof.Machine

namespace Sys2Proof

open Machine

/-- Settles O12: the checks of each command admit (`linkOpenCheck_admits` and its like), and its `begin` tells what it
waits for. -/
theorem linkCommands : Obligations.LinkCommands := by
  unfold Obligations.LinkCommands
  intro h s n hn
  refine ⟨fun hz c m x a u ho he hsc hc hm ha hx hi hp hr hu haw hs => ?_, fun hz c m x a ho haw hs => ?_, fun ho hs => ?_,
    fun hz p p' ho hh hi hp hw haw hs => ?_, fun hs => ?_, fun fs he hf hs => ?_, fun ho haw hs => ?_, fun i ho hi haw hs => ?_⟩
  · have hdom : [Dom.rfa, Dom.chz, Dom.dmd].all (domAllowed (started h s).power.state) = true := by
      rw [List.all_eq_true]
      intro d hd
      rw [started_power]
      exact (haw d (by revert hd; simp; tauto)).1
    have hcheck : linkOpenCheck n hz c m x a (started h s) = (.ok, u) := by
      rw [linkOpenCheck_admits hn (by simpa using ho) he hdom (by simpa using hsc) hc hm ha (by simpa using hx) hi
        (by simpa using hp) hr, hu]
    obtain ⟨hrun, hpow, hsup, hrat, hclk, -⟩ := admitFor_keeps hu
    have hv : Awake [Dom.rfa, Dom.chz, Dom.dmd, Dom.abc] u := (haw.started h).of hpow hsup
    have hsyn : synth u 1 = synth s 1 := by simp only [synth, hclk, started_clk]
    have hlock : locked u 1 = locked s 1 := by simp only [locked, hsyn]
    refine ⟨fun hl => ?_, fun hl => ?_⟩
    · exact next_congr (submit_done hs (by decide) hcheck rfl (haw.started h) hv (needLock_of_locked (hlock.trans hl))
        (by rw [hrun, started_running]) (by rw [hrat, started_rattle]) rfl)
    · have hb := needLock_of_unlocked (hlock.trans hl)
      rw [hsyn] at hb
      refine next_congr (submit_locks hs hcheck rfl (haw.started h) hv hb ?_)
      split <;> simp [hrun]
  · exact next_congr (submit_fails_awake hs (haw.started h) (linkOpenCheck_open hn (by simpa using ho)) nofun)
  · refine next_congr (submit_waits hs (by decide) ?_ rfl (.nil _) (.nil _) rfl (by simp) nofun)
    simp [progLinkClose, ho, Nat.not_lt.2 hn]
  · have hw' : retunePeriod (started h s) (announced (started h s) (link (started h s) n).session)
        (parNow (started h s) (P.linkHopLead n)) p = some p' := by simpa using hw
    have hb : (progLinkRetune n hz p).begin (started h s) = (none, p', started h s) := by
      simp only [progLinkRetune, hw', Option.getD_some]
    refine next_congr (submit_done hs (by decide) (progLinkRetune_check hn (by simpa using ho) (by simpa using hh) hi (by simpa using hp) hw')
      rfl (haw.started h) (haw.started h) hb (by simp) (by simp) ?_)
    simp only [progLinkRetune, scheduleHop, announced_acceptedBy, announced_started]
    rfl
  · refine next_congr ((submit_prog_direct hs rfl (if_pos hn)).trans ?_)
    simp only [link_started, linkStatusBytes]
  · refine next_congr (submit_plain hs (by decide) (fun _ => rfl) (fun _ => rfl) rfl (progLinkSetAlt_check hn he (by simpa using hf)) ?_)
    simp [progLinkSetAlt]
  · exact next_congr (submit_done hs (by decide) (progLinkPrivilege_check hn (by decide) (by simpa using ho) nofun) rfl (haw.started h)
      (haw.started h) rfl (by simp) (by simp) rfl)
  · have hb : (progLinkPrivilege n 1).begin (started h s) = (some (.privCal n), i,
        tuneLanes n (withTone (onPriv i (fun r => { r with link := some n, measuring := true })) (started h s))) := by
      simp [progLinkPrivilege, hi]
    refine next_congr (submit_waits hs (by decide) (progLinkPrivilege_check hn (by decide) (by simpa using ho) (by simp [hi])) rfl
      (haw.started h) (haw.started h) hb ?_ nofun)
    simp [tuneLanes, withTone_running, onPriv]

end Sys2Proof
end

section
/-! SUPPORT. Downlink commands (08 R230 to R246). -/

namespace Sys2Proof.Machine

variable {h : Hdr} {s t u : State} {c hz k st x e p p' m : Nat}

@[simp] theorem toStart_started (h : Hdr) (s : State) (m : Nat) : toStart m (started h s) = toStart m s := by simp [toStart]

/-! ### CARRIER_OPEN -/

theorem carrierOpenCheck_admits (hc : c ≤ 15) (ho : (carrier s c).phase = .closed) (he : txEdge s ≠ 0)
    (hd : domAllowed s.power.state Dom.txd = true) (hk : k ≤ 2) (hst : st ≤ 63) (hen : e ≤ 1)
    (hx : x ≠ 0xFFFF → x ≤ 255 ∧ (session s x).phase ≠ .free ∧ (session s x).phase ≠ .removing ∧
      (openCarriers s).any (fun q => q.2.session == some x) = false) (hex : e = 1 → x ≠ 0xFFFF)
    (hf : carrierFreqOk s c hz = true) (hceil : st ≤ ceilingOf s.tx.steps) (hp : permitted s.rf.perm true hz = true)
    (hr : routesFit (onCarrier c (fun _ => freshCarrier hz k st x e) s) = true) :
    carrierOpenCheck c hz k st x e s = admitWork [carrierAsk c k] s := by
  have hrange : ¬(2 < k ∨ 63 < st ∨ 1 < e) := by omega
  have henc : (e == 1 && !(x != 0xFFFF)) = false := by simpa using hex
  obtain ⟨hx1, hx2, hx3⟩ := sessionTerms_false hx
  have hfirst : firstFail [
      (decide (c > 15), .badParam),
      ((carrier s c).phase != .closed, .badState),
      (txEdge s == 0 || !domAllowed s.power.state Dom.txd, .badState),
      (decide (k > 2 ∨ st > 63 ∨ e > 1) || (x != 0xFFFF && decide (x > 255)) || (x != 0xFFFF && (session s x).phase == .free) ||
        (e == 1 && !(x != 0xFFFF)), .badParam),
      (x != 0xFFFF && ((session s x).phase == .removing || (openCarriers s).any (fun q => q.2.session == some x)), .badState),
      (!carrierFreqOk s c hz, .badParam),
      (decide (st > ceilingOf s.tx.steps), .planForbidden),
      (!permitted s.rf.perm true hz, .planForbidden)] = .ok := by
    simp only [firstFail_cons, hx1, hx2, hx3, hd, henc]
    simp [ho, he, hrange, hf, hp, Nat.not_lt.2 hc, Nat.not_lt.2 hceil]
  simp only [carrierOpenCheck, hfirst, hr, Bool.not_true, Bool.false_eq_true, if_false]

/-! ### The checks of the other carrier commands -/

theorem progCarrierSetPower_check (hc : c ≤ 15) (hst : st ≤ 63) (ho : (carrier s c).phase ≠ .closed) :
    (progCarrierSetPower c st).check s = (if ceilingOf s.tx.steps < st then .planForbidden else .ok, s) := by
  have hr : ¬(15 < c ∨ 63 < st) := by omega
  simp [progCarrierSetPower, Prog.direct, hr, ho]

theorem carrierRetuneCheck_ok (hc : c ≤ 15) (ho : (carrier s c).phase ≠ .closed) (hn : (carrier s c).retune = none)
    (hf : carrierFreqOk s c hz = true) (hp : permitted s.rf.perm true hz = true) (hw : carrierRetuneWhen c p s = some p') :
    (progCarrierRetune c hz p).check s = (.ok, s) := by
  simp [progCarrierRetune, carrierRetuneCheck, ho, hn, hf, hp, hw, Nat.not_lt.2 hc]

theorem progTxEnable_check (hm : m ≠ 0) (ho : ∀ c ∈ maskBits 16 m, (carrier s c).phase ≠ .closed) (he : txEdge s ≠ 0)
    (hd : domAllowed s.power.state Dom.txd = true) (hb : s.supply.brown = false) (hl : s.rattle.txLoop = false) :
    (progTxEnable m).check s = (.ok, s) := by
  have hany : (maskBits 16 m).any (fun c => (carrier s c).phase == .closed) = false := by
    rw [List.any_eq_false]
    intro c hc
    simpa using ho c hc
  simp only [progTxEnable, firstFail_cons, firstFail_nil, hany]
  simp [hm, he, hd, hb, hl]

end Sys2Proof.Machine

namespace Sys2Proof

open Machine

/-- Settles O13: the checks of each carrier command pass (`carrierOpenCheck_admits` and its like), and the TX LO and the
ramps tell what it waits for. -/
theorem txCommands : Obligations.TxCommands := by
  unfold Obligations.TxCommands
  intro h s
  refine ⟨fun c hz k st x e u hc ho he hk hst hen hx hex hf hceil hp hr hu haw hs => ?_, fun c hc ho hs => ?_,
    fun c st hc hst ho hceil haw hs => ?_, fun c st hc hst ho hceil haw hs => ?_, fun c hz p p' hc ho hn hf hp hw haw hs => ?_,
    fun m hm ho he hb hl haw hs => ?_, fun m hm hs => ?_⟩
  · have hcheck : carrierOpenCheck c hz k st x e (started h s) = (.ok, u) := by
      rw [carrierOpenCheck_admits hc (by simpa using ho) he (haw.started h Dom.txd (by simp)).1 hk hst hen (by simpa using hx) hex hf
        (by simpa using hceil) (by simpa using hp) hr, hu]
    obtain ⟨hrun, hpow, hsup, hrat, hclk, -⟩ := admitFor_keeps hu
    have hv : Awake [Dom.rfa, Dom.txd, Dom.abc] u := (haw.started h).of hpow hsup
    have hsyn : synth u 2 = synth s 2 := by simp only [synth, hclk, started_clk]
    have hlock : locked u 2 = locked s 2 := by simp only [locked, hsyn]
    refine ⟨fun hl => ?_, fun hl => ?_⟩
    · exact next_congr (submit_done hs (by decide) hcheck rfl (haw.started h) hv (needLock_of_locked (hlock.trans hl))
        (by rw [hrun, started_running]) (by rw [hrat, started_rattle]) rfl)
    · have hb := needLock_of_unlocked (hlock.trans hl)
      rw [hsyn] at hb
      refine next_congr (submit_locks hs hcheck rfl (haw.started h) hv hb ?_)
      split <;> simp [hrun]
  · have hcheck : (progCarrierClose c).check (started h s) = (.ok, started h s) := by
      simp [progCarrierClose, ho, Nat.not_lt.2 hc]
    have hb : (progCarrierClose c).begin (started h s) = (
        let v := forgetStopped (2 ^ c) (rampDown (2 ^ c) 2 (started h s))
        (some (if (carrier v c).phase = .stopping then .rampDown (2 ^ c) else .boundary), toRamp (2 ^ c) (started h s), v)) := by
      simp only [progCarrierClose]
      split <;> rfl
    refine next_congr (submit_waits hs (by decide) hcheck rfl (.nil _) (.nil _) hb (by simp [forgetStopped]) ?_)
    split <;> nofun
  · have hcheck := progCarrierSetPower_check (s := started h s) hc hst (by simpa using ho)
    rw [if_neg (by simpa using hceil)] at hcheck
    exact next_congr (submit_reply hs rfl (fun _ => rfl) rfl hcheck (by simp) (haw.started h) (haw.started h) rfl)
  · have hcheck := progCarrierSetPower_check (s := started h s) hc hst (by simpa using ho)
    rw [if_pos (by simpa using hceil)] at hcheck
    exact next_congr (submit_fails_awake hs (haw.started h) hcheck nofun)
  · have hw' : carrierRetuneWhen c p (started h s) = some p' := by simpa [carrierRetuneWhen] using hw
    have hb : (progCarrierRetune c hz p).begin (started h s) = (none, p', started h s) := by
      simp only [progCarrierRetune, hw', Option.getD_some]
    refine next_congr (submit_done hs (by decide) (carrierRetuneCheck_ok hc (by simpa using ho) (by simpa using hn) hf
      (by simpa using hp) hw') rfl (haw.started h) (haw.started h) hb (by simp) (by simp) ?_)
    simp only [progCarrierRetune, scheduleRetune, announced_acceptedBy, announced_started]
    rfl
  · have hcheck : (progTxEnable m).check (started h s) = (.ok, started h s) :=
      progTxEnable_check hm (by simpa using ho) he (haw.started h Dom.txd (by simp)).1 (by simpa using hb) (by simpa using hl)
    refine ⟨fun hl hn => ?_, fun hl hn => ?_, fun hl => ?_⟩
    · have hb : (progTxEnable m).begin (started h s) = (some .txStart, 0, startSequence m (started h s)) := by
        simp [progTxEnable, txStartWait, hl, hn]
      exact next_congr (submit_waits hs (by decide) hcheck rfl (haw.started h) (haw.started h) hb (by simp) nofun)
    · have hb : (progTxEnable m).begin (started h s) = (none, 0, started h s) := by
        simp [progTxEnable, txStartWait, startSequence, hl, hn]
      exact next_congr (submit_done hs (by decide) hcheck rfl (haw.started h) (haw.started h) hb (by simp) (by simp) rfl)
    · have hb : (progTxEnable m).begin (started h s) = (some (.lock 2), 0,
          if (synth s 2).phase = .off then relockWindow 2 (started h s) else started h s) := by
        have := needLock_of_unlocked (s := started h s) (id := 2) (by simpa using hl)
        rw [synth_started] at this
        simp only [progTxEnable, locked_started, hl, Bool.false_eq_true, if_false, this]
      refine next_congr (submit_locks hs hcheck rfl (haw.started h) (haw.started h) hb ?_)
      split <;> simp
  · have hcheck : (progTxDisable m).check (started h s) = (.ok, started h s) := by simp [progTxDisable, hm]
    intro v
    have hv : v.running = s.running := by simp [v, forgetStopped]
    refine ⟨fun hr => ?_, fun hr => ?_⟩
    · have hb : (progTxDisable m).begin (started h s) = (none, toRamp m (started h s), v) := by
        simp only [progTxDisable]
        rw [if_pos hr]
      exact next_congr (submit_now hs rfl hcheck rfl (.nil _) (.nil _) hb hv rfl)
    · have hb : (progTxDisable m).begin (started h s) = (some (.rampDown (rampingOf m v)), toRamp m (started h s), v) := by
        simp only [progTxDisable]
        rw [if_neg hr]
      exact next_congr (submit_holds hs rfl hcheck rfl (.nil _) (.nil _) hb hv)

end Sys2Proof
end

section
/-! SUPPORT. Session and command link commands (09 R253, R265 to R279). -/

namespace Sys2Proof.Machine

variable {h : Hdr} {s t u : State} {n tx f i p p' a : Nat} {w : Int}

@[simp] theorem clRunning_started (h : Hdr) (s : State) : clRunning (started h s) = clRunning s := by simp [clRunning]
@[simp] theorem clRunning_acceptedBy (h : Hdr) (op : Nat) (s : State) : clRunning (acceptedBy h op s) = clRunning s := by
  simp [clRunning]
@[simp] theorem clStarting_started (h : Hdr) (s : State) : clStarting (started h s) = clStarting s := by
  simp [clStarting, runningOp]
@[simp] theorem clSynthKept_started (h : Hdr) (s : State) : clSynthKept (started h s) = clSynthKept s := by simp [clSynthKept]
@[simp] theorem sessionOfTx_started (h : Hdr) (s : State) (x : Nat) : sessionOfTx (started h s) x = sessionOfTx s x := by
  simp [sessionOfTx]
@[simp] theorem sessionNamed_started (h : Hdr) (s : State) (n : Nat) : sessionNamed (started h s) n = sessionNamed s n := by
  simp [sessionNamed, linkOfSession, carrierOfSession]

theorem sessionGuard_open (hp : (policy s).testBit 8 = false) : sessionGuard (started h s) = none := by simp [sessionGuard, hp]

/-! ### Sessions -/

/-- A transmitter that no other session holds passes the first check of SESSION_ADD. -/
theorem progSessionAdd_check_tx {k : List Byte} (h0 : tx ≠ 0) (h1 : tx ≠ 0xFFFFFFFF)
    (hx : ∀ m, sessionOfTx s tx = some m → m = n) : (progSessionAdd n tx f k).check s = (firstFail [
      (((session s n).phase != .free && (session s n).txId != tx) || (session s n).phase == .removing, .badState),
      ((session s n).phase != .free && ((session s n).flags != f % 4 && sessionNamed s n), .badState),
      ((session s n).change.isSome, .badState)], s) := by
  cases hm : sessionOfTx s tx with
  | none => simp [progSessionAdd, hm, h0, h1, and_assoc]
  | some m =>
    obtain rfl := hx m hm
    simp [progSessionAdd, hm, h0, h1, and_assoc]

theorem progSessionAdd_check {k : List Byte} (h0 : tx ≠ 0) (h1 : tx ≠ 0xFFFFFFFF) (hx : ∀ m, sessionOfTx s tx = some m → m = n)
    (hf : (session s n).phase ≠ .free → (session s n).txId = tx ∧ (session s n).phase ≠ .removing ∧
      ((session s n).flags = f % 4 ∨ sessionNamed s n = false)) (hc : (session s n).change = none) :
    (progSessionAdd n tx f k).check s = (.ok, s) := by
  rw [progSessionAdd_check_tx h0 h1 hx]
  by_cases hp : (session s n).phase = .free
  · simp [hp, hc]
  · obtain ⟨hid, hrem, hfl⟩ := hf hp
    have hnamed : ((session s n).flags != f % 4 && sessionNamed s n) = false := by rcases hfl with hfl | hfl <;> simp [hfl]
    simp only [hnamed]
    simp [hid, hrem, hc]

theorem progSessionRemove_check (hn : n ≤ 255) (hf : (session s n).phase ≠ .free) (hr : (session s n).phase ≠ .removing)
    (hx : sessionNamed s n = false) : (progSessionRemove n).check s = (.ok, s) := by
  simp [progSessionRemove, hf, hr, hx, Nat.not_lt.2 hn]

/-! ### CL_START -/

theorem progClStart_check (hp : s.cl.phase = .stopped ∨ s.cl.phase = .muted) (hc : clStarting s = false)
    (hb : s.supply.brown = false) (hd : domAllowed s.power.state Dom.clr = true) (hf : clFreqOk f = true) (h1 : -20 ≤ w) (h2 : w ≤ 0) :
    (progClStart f w).check s = (.ok, s) := by
  have hw : ¬(w < -20 ∨ 0 < w) := by omega
  rcases hp with hp | hp <;> simp [progClStart, hp, hc, hb, hd, hf, hw]

/-! ### A hop of the command link -/

theorem progClHop_check_own (hph : s.cl.phase = .running) (hn : s.cl.hop = none) (hf : clFreqOk f = true) (hne : f ≠ s.cl.freq)
    (hp : p = 0 ∨ (p % 20 = 0 ∧ period s + parGet s P.clHopLead ≤ p ∧ p ≤ period s + 1000)) :
    (progClHop 2 i f p).check s = (.ok, s) := by
  simp [progClHop, hph, hn, hf, hne]
  omega

theorem progClHop_check_link (hc : (progLinkRetune i f p).check s = (.ok, s)) (ha : announced s (link s i).session = true) :
    (progClHop 0 i f p).check s = (.ok, s) := by
  simp only [progClHop, if_true, hc, ha]

theorem progClHop_check_carrier (hc : (progCarrierRetune i f p).check s = (.ok, s))
    (ha : announced s (carrier s i).session = true) : (progClHop 1 i f p).check s = (.ok, s) := by
  have h10 : ¬(1 = 0) := by decide
  simp only [progClHop, if_true, if_neg h10, hc, ha]

end Sys2Proof.Machine

namespace Sys2Proof

open Machine

/-- Settles O14: outside the protected set the guard is open (`sessionGuard_open`), and the checks of each command pass.
-/
theorem clCommands : Obligations.ClCommands := by
  unfold Obligations.ClCommands
  intro h s
  refine ⟨fun n tx f k hp h0 h1 hx hf hc hs => ?_, fun n hp hn hph hr hx hs => ?_, fun n hp hn hf hrem hj hx hs => ?_,
    fun n hn hs => ?_, fun n d hn hph hr haw hs => ?_, fun f w hp hst hb hf h1 h2 hl haw hs => ?_,
    fun f w hp hst hb hf h1 h2 hl hfr haw hs => ?_, fun hp hs => ?_, fun hp hst hs => ?_,
    fun f i p hph hn hf hne hp haw hs => ?_, fun f i p p' hi ho hh hin hp ha hw haw hs => ?_,
    fun f i p p' hi ho hh hf hp ha hw haw hs => ?_⟩
  · refine next_congr (submit_done hs (by decide) (progSessionAdd_check h0 h1 (by simpa using hx) (by simpa using hf) (by simpa using hc))
      (sessionGuard_open hp) (.nil _) (.nil _) rfl (by simp) (by simp) ?_)
    simp only [progSessionAdd, clRunning_acceptedBy, clRunning_started]
  · refine next_congr (submit_plain hs (by decide) (fun _ => rfl) (fun _ => rfl) (sessionGuard_open hp)
      (progSessionRemove_check hn (by simp [hph]) (by simp [hph]) (by simpa using hx)) ?_)
    simp [progSessionRemove, hph, hr]
  · have hgone : ((session s n).phase = .joined && clRunning s) = false := by simpa using hj
    refine next_congr (submit_plain hs (by decide) (fun _ => rfl) (fun _ => rfl) (sessionGuard_open hp)
      (progSessionRemove_check hn (by simpa using hf) (by simpa using hrem) (by simpa using hx)) ?_)
    simp only [progSessionRemove, session_acceptedBy, session_started, clRunning_acceptedBy, clRunning_started, hgone,
      Bool.false_eq_true, if_false]
  · refine next_congr ((submit_prog_direct hs rfl (if_pos hn)).trans ?_)
    simp only [session_started, sessionStatusBytes]
  · have hc : (progSessionSend n d).check (started h s) = (.ok, started h s) := by
      simp [progSessionSend, hph, hr, Nat.not_lt.2 hn]
    exact next_congr (submit_waits hs (by decide) hc rfl (haw.started h) (haw.started h) rfl (by simp) nofun)
  · have hc := progClStart_check (s := started h s) (by simpa using hp) (by simpa using hst) (by simpa using hb)
      (haw.started h Dom.clr (by simp)).1 hf h1 h2
    have hl' : (locked s 3 && s.clk.cmd.freq == f) = false := by simpa using hl
    refine next_congr ((submit_locks hs hc rfl (haw.started h) ((haw.started h).of rfl rfl) (id := 4) (aux := clSynthKept s)
      (v := { started h s with cl := { s.cl with phase := .starting, b := nextBeacon (period s + 1), acks := 0, prevAcks := 0 } }) ?_ (by simp)).trans rfl)
    simp only [progClStart, locked_started, started_clk, hl', Bool.false_eq_true, if_false, clSynthKept_started, period_started,
      started_cl, beaconLock]
  · have hc := progClStart_check (s := started h s) (by simpa using hp) (by simpa using hst) (by simpa using hb)
      (haw.started h Dom.clr (by simp)).1 hf h1 h2
    refine next_congr (submit_waits hs (by decide) hc rfl (haw.started h) ((haw.started h).of rfl rfl) (aux := clSynthKept s)
      (v := { started h s with cl := { s.cl with phase := .starting, b := nextBeacon (period s + 1), acks := 0, prevAcks := 0 } })
      (w := .clStart) ?_ (by simp) nofun)
    simp only [progClStart, locked_started, started_clk, hl, hfr, BEq.rfl, Bool.and_self, if_true, clSynthKept_started, period_started,
      started_cl]
  · refine next_congr (submit_direct hs rfl (fun _ => rfl) (fun _ => rfl) rfl (u := started h s) ?_ (by simp) rfl)
    rcases hp with hp | hp <;> simp [progClStop, hp]
  · exact next_congr (submit_fails hs (fun _ => rfl) (by simp [progClStop, hp, hst]) nofun)
  · have hc := progClHop_check_own (i := i) (s := started h s) (by simpa using hph) (by simpa using hn) hf (by simpa using hne) (by simpa using hp)
    refine next_congr (submit_waits hs (by decide) hc rfl (haw.started h) ((haw.started h).of ?_ ?_) ?_ ?_ nofun)
    · simp
    · simp
    · simp only [progClHop, OfNat.ofNat_ne_zero, OfNat.ofNat_ne_one, if_false, period_started, started_cl, each, List.foldl_cons,
        List.foldl_nil]
    · simp
  · have hw' : retunePeriod (started h s) (announced (started h s) (link (started h s) i).session)
        (parNow (started h s) (P.linkHopLead i)) p = some p' := by simpa [ha] using hw
    have hc := progClHop_check_link (progLinkRetune_check hi (by simpa using ho) (by simpa using hh) hin (by simpa using hp) hw')
      (by simpa using ha)
    have hb : (progClHop 0 i f p).begin (started h s) = (none, p', started h s) := by
      simp only [progClHop, if_true, progLinkRetune, hw', Option.getD_some]
    exact next_congr (submit_done hs (by decide) hc rfl (haw.started h) (haw.started h) hb (by simp) (by simp) rfl)
  · have hw' : carrierRetuneWhen i p (started h s) = some p' := by simpa [carrierRetuneWhen, ha] using hw
    have hc := progClHop_check_carrier (carrierRetuneCheck_ok hi (by simpa using ho) (by simpa using hh) hf (by simpa using hp) hw')
      (by simpa using ha)
    have hb : (progClHop 1 i f p).begin (started h s) = (none, p', started h s) := by
      have h10 : ¬(1 = 0) := by decide
      simp only [progClHop, if_true, if_neg h10, progCarrierRetune, hw', Option.getD_some]
    exact next_congr (submit_done hs (by decide) hc rfl (haw.started h) (haw.started h) hb (by simp) (by simp) rfl)

end Sys2Proof
end

section
/-! SUPPORT. Audio port commands (11 R311, R320, R322, R327). -/

namespace Sys2Proof.Machine

variable {h : Hdr} {s t u : State} {p m st n : Nat} {c : PortCfg}

/-- A part of the state that admissions leave is as before after one. -/
theorem admitFor_field {α : Type} {k : Nat} {l : List Ask} {r : Status} (g : State → α) (hg : g (admitFor k l s).2 = g s)
    (hu : admitFor k l s = (r, u)) : g u = g s := by rwa [hu] at hg

/-! ### PORT_CONFIG -/

theorem portCheck_admits (hf : portFieldsOk p c = true) (hi : portIdle (port s p) = true ∨ masksOnly (portCfgNow (port s p)) c = true)
    (hu : admitWork (portAsks p c s) s = (.ok, u)) (hr : routesFit (withPortCfg p c s) = true) : portCheck p c s = (.ok, u) := by
  have hfirst : firstFail [(!portFieldsOk p c, .badParam), (!portIdle (port s p) && !masksOnly (portCfgNow (port s p)) c, .badState)] = .ok := by
    rcases hi with hi | hi <;> simp [hf, hi]
  simp only [portCheck, hfirst, hu, hr, if_true]

theorem portCheck_running (hf : portFieldsOk p c = true) (hi : portIdle (port s p) = false)
    (hm : masksOnly (portCfgNow (port s p)) c = false) : portCheck p c s = (.badState, s) := by
  simp [portCheck, hf, hi, hm]

/-- A configuration whose checks pass is admitted, and takes effect as the port's state demands. -/
theorem submit_portConfig (hs : Starts (.portConfig h p c.format c.rate c.slots c.role c.slotBits c.inMask c.outMask c.drive) h 0x60 s)
    (hf : portFieldsOk p c = true) (hi : portIdle (port s p) = true ∨ masksOnly (portCfgNow (port s p)) c = true)
    (hu : admitWork (portAsks p c (started h s)) (started h s) = (.ok, u)) (hr : routesFit (withPortCfg p c (started h s)) = true)
    (haw : Awake [Dom.aud] s) :
    submit (progPortConfig p c) (.portConfig h p c.format c.rate c.slots c.role c.slotBits c.inMask c.outMask c.drive) s =
      completed h 0x60 [] (applyPortCfg p c (commitWork (portWork p c (acceptedBy h 0x60 u)) (acceptedBy h 0x60 u))) := by
  obtain ⟨hrun, hpow, hsup, hrat, -⟩ := admitFor_keeps hu
  exact submit_done hs (by decide) (portCheck_admits hf (by simpa using hi) hu hr) rfl (haw.started h) ((haw.started h).of hpow hsup) rfl
    (by rw [hrun, started_running]) (by rw [hrat, started_rattle]) rfl

/-- The port that a configuration finds when it takes effect. -/
theorem port_commitWork (hu : admitWork (portAsks p c (started h s)) (started h s) = (.ok, u)) (ws : List WorkRef) :
    port (commitWork ws (acceptedBy h 0x60 u)) p = port s p := by
  have haud : u.audio = s.audio := (admitFor_field State.audio (by simp) hu).trans (by simp)
  simp [port, haud]

theorem applyPortCfg_rateMuted (hp : (port s p).phase = .rateMuted) : applyPortCfg p c s = showPort p c (onPort p (fun q => { q with
    cfg := c, next := none, differs := 0, acquired := false
    phase := if rateClass (isSlip c) (port s p).rate == cfgClass c || c.role == 0 then .reacquiring else .rateMuted }) s) := by
  simp only [applyPortCfg, hp, if_true]

theorem applyPortCfg_idle (hp : (port s p).phase = .unconfigured ∨ (port s p).phase = .stopped) : applyPortCfg p c s =
    showPort p c (onPort p (fun _ => { Port.reset with cfg := c, phase := .stopped, loopback := (port s p).loopback }) s) := by
  rcases hp with hp | hp <;> simp [applyPortCfg, portIdle, hp]

theorem applyPortCfg_running (hp : portIdle (port s p) = false) :
    applyPortCfg p c s = onPort p (fun q => { q with next := some c }) s := by
  have hm : (port s p).phase ≠ .rateMuted := fun hx => by simp [portIdle, hx] at hp
  simp [applyPortCfg, hp, hm]

/-! ### PORT_START and PORT_STOP -/

theorem progPortStart_check (h0 : m ≠ 0) (h63 : m ≤ 63) (hst : st ≤ 2) (hn : st = 2 → period s < n ∧ n ≤ period s + 65535)
    (hp : ∀ i ∈ maskBits 8 m, (port s i).phase = .stopped) : (progPortStart m st n).check s = (.ok, s) := by
  have hr : ¬(m = 0 ∨ 63 < m ∨ 2 < st) := by omega
  have hany : (maskBits 8 m).any (fun i => (port s i).phase != .stopped) = false := by
    rw [List.any_eq_false]
    intro i hi
    simp [hp i hi]
  have hper : (st == 2 && !periodAhead s n) = false := by simpa [periodAhead] using hn
  simp only [progPortStart, firstFail_cons, firstFail_nil, hany, hper]
  simp [hr]

theorem stopPorts_running (cause m : Nat) (s : State) : (stopPorts cause m s).running = s.running :=
  each_field State.running _ _ _ (fun i t => by split <;> simp)

theorem stopPorts_rattle (cause m : Nat) (s : State) : (stopPorts cause m s).rattle = s.rattle :=
  each_field State.rattle _ _ _ (fun i t => by split <;> simp)

end Sys2Proof.Machine

namespace Sys2Proof

open Machine

/-- Settles O15: a port that is idle takes its configuration at once (`applyPortCfg_idle`), one that runs
keeps it for the next boundary (`applyPortCfg_running`). -/
theorem portCommands : Obligations.PortCommands := by
  unfold Obligations.PortCommands
  intro h s
  refine ⟨fun p c u hf hp hu hr haw hs => ?_, fun p c u hf hp hu hr haw hs => ?_, fun p c u hf hi hm hu hr haw hs => ?_,
    fun p c hf hi hm haw hs => ?_, fun m st n h0 h63 hst hn hp haw hs => ?_, fun m h0 hs => ?_⟩
  · have hi : portIdle (port s p) = true := by rcases hp with hp | hp <;> simp [portIdle, hp]
    refine next_congr ((submit_portConfig hs hf (.inl hi) hu hr haw).trans ?_)
    rw [applyPortCfg_idle (by rwa [port_commitWork hu]), port_commitWork hu]
  · have hi : portIdle (port s p) = true := by simp [portIdle, hp]
    refine next_congr ((submit_portConfig hs hf (.inl hi) hu hr haw).trans ?_)
    rw [applyPortCfg_rateMuted (by rwa [port_commitWork hu]), port_commitWork hu]
  · refine next_congr ((submit_portConfig hs hf (.inr hm) hu hr haw).trans ?_)
    rw [applyPortCfg_running (by rwa [port_commitWork hu])]
  · exact next_congr (submit_fails_awake hs (haw.started h) (portCheck_running hf (by simpa using hi) (by simpa using hm)) nofun)
  · refine next_congr (submit_done hs (by decide) (progPortStart_check h0 h63 hst (by simpa using hn) (by simpa using hp)) rfl
      (haw.started h) (haw.started h) rfl (by simp) (by simp) ?_)
    simp only [progPortStart, period_acceptedBy, period_started, periodLen]
  · have hc : (progPortStop m).check (started h s) = (.ok, started h s) := by simp [progPortStop, h0]
    intro v
    have hv : v.running = s.running := by simp [v, stopPorts_running]
    have hrat : v.rattle = s.rattle := by simp [v, stopPorts_rattle]
    refine ⟨fun hz => ?_, fun hz => ?_⟩
    · have hb : (progPortStop m).begin (started h s) = (none, toStop m (started h s), v) := by
        simp only [progPortStop]
        rw [if_pos hz]
      exact next_congr (submit_done hs (by decide) hc rfl (.nil _) (.nil _) hb hv (by rw [hrat]) rfl)
    · have hb : (progPortStop m).begin (started h s) = (some (.portStop (portsStopping m v)), toStop m (started h s), v) := by
        simp only [progPortStop]
        rw [if_neg hz]
      exact next_congr (submit_waits hs (by decide) hc rfl (.nil _) (.nil _) hb hv nofun)

end Sys2Proof
end

section
/-! SUPPORT. Router commands (11 R330, R331, R333, R337, R338). -/

namespace Sys2Proof.Machine

variable {h : Hdr} {s t u : State} {n a b c k o l x : Nat} {g : Int}

/-! ### ROUTE_SET -/

theorem progRouteSet_check (hn : n ≤ 511) (hf : routeFieldsOk a b g = true) (hfade : (route s n).fading = false)
    (hu : (route s n).inUse = true → (route s n).src = a ∧ (route s n).dst = b) (hd : dstTaken s n b = false) :
    (progRouteSet n a b g).check s = if latencyFits s a b then admitFor (routeKey n) (routeAsks s n a b) s else latencyRefusal s := by
  have hsame : ((route s n).inUse && ((route s n).src != a || (route s n).dst != b)) = false := by
    cases hin : (route s n).inUse
    · rfl
    · simp [hu hin]
  have hfirst : firstFail [
      (decide (n > 511) || !routeFieldsOk a b g, .badParam),
      ((route s n).fading || ((route s n).inUse && ((route s n).src != a || (route s n).dst != b)), .badState),
      (dstTaken s n b, .badState)] = .ok := by
    simp only [firstFail_cons, hsame]
    simp [hf, hfade, hd, Nat.not_lt.2 hn]
  simp only [progRouteSet, hfirst]
  cases latencyFits s a b <;> rfl

/-! ### MIX_SET_GAIN -/

theorem progMixSetGain_check (hb : b ≤ 31) (hc : c ≤ 2) (hg : gainCodeOk g = true)
    (hl : c ≠ (bus s b).cls → (liveRoutes s).any (fun p => busOfDst p.2.dst == some b || srcOf p.2.src == some (.bus b)) = false) :
    (progMixSetGain b c g).check s = (.ok, s) := by
  have hr : ¬(31 < b ∨ 2 < c) := by omega
  have hcls : (c != (bus s b).cls && (liveRoutes s).any (fun p => busOfDst p.2.dst == some b || srcOf p.2.src == some (.bus b))) = false := by
    by_cases hc : c = (bus s b).cls
    · simp [hc]
    · rw [hl hc, Bool.and_false]
  simp only [progMixSetGain, firstFail_cons, firstFail_nil, hcls]
  simp [hr, hg]

/-! ### TAP_CONFIG -/

theorem tapCheck_admits (hn : n ≤ 511) (hk : k = 3 ∨ k = 4) (ho : o % 4 = 0) (h1 : l % (24 * k) = 0) (h2 : 48 * k ≤ l)
    (h3 : o + l ≤ 0x40000) (hb : bufferTaken s n o l = false) (hi : (route s n).inUse = true) (hf : (route s n).fading = false)
    (ht : tapSlot s n = some x) : tapCheck n k o l s = admitFor (routeKey n) [tapAsk x k] s := by
  have h0 : l ≠ 0 := by omega
  have hr : ¬(511 < n ∨ k ≠ 3 ∧ k ≠ 4) := by omega
  have hlen : ¬(l ≠ 0 ∧ (l % (24 * k) ≠ 0 ∨ l < 48 * k ∨ 0x40000 < o + l)) := by omega
  have hfirst : firstFail [
      (decide (n > 511 ∨ (k ≠ 3 ∧ k ≠ 4)), .badParam),
      (decide (o % 4 ≠ 0), .badParam),
      (decide (l ≠ 0 ∧ (l % (24 * k) ≠ 0 ∨ l < 48 * k ∨ o + l > 0x40000)), .badParam),
      (decide (l ≠ 0) && bufferTaken s n o l, .badParam),
      (!(route s n).inUse || (route s n).fading, .badState),
      (decide (l ≠ 0) && (tapSlot s n).isNone, .refusedCapacity)] = .ok := by
    simp only [firstFail_cons, gt_iff_lt, hr, hlen, hb, ht]
    simp [ho, hi, hf]
  simp only [tapCheck, hfirst]
  simp only [ht, h0, if_false]

theorem tapCheck_removes (hn : n ≤ 511) (hk : k = 3 ∨ k = 4) (ho : o % 4 = 0) (hi : (route s n).inUse = true)
    (hf : (route s n).fading = false) : tapCheck n k o 0 s = (.ok, s) := by
  have hr : ¬(511 < n ∨ k ≠ 3 ∧ k ≠ 4) := by omega
  have hfirst : firstFail [
      (decide (n > 511 ∨ (k ≠ 3 ∧ k ≠ 4)), .badParam),
      (decide (o % 4 ≠ 0), .badParam),
      (decide (0 ≠ 0 ∧ (0 % (24 * k) ≠ 0 ∨ 0 < 48 * k ∨ o + 0 > 0x40000)), .badParam),
      (decide (0 ≠ 0) && bufferTaken s n o 0, .badParam),
      (!(route s n).inUse || (route s n).fading, .badState),
      (decide (0 ≠ 0) && (tapSlot s n).isNone, .refusedCapacity)] = .ok := by
    simp only [firstFail_cons, gt_iff_lt, hr]
    simp [ho, hi, hf]
  simp only [tapCheck, hfirst, if_true]
  cases tapSlot s n <;> rfl

@[simp] theorem tapSlot_started (h : Hdr) (s : State) (n : Nat) : tapSlot (started h s) n = tapSlot s n := by
  simp [tapSlot, tapOf, chargeOf]
@[simp] theorem tapSlot_acceptedBy (h : Hdr) (op : Nat) (s : State) (n : Nat) : tapSlot (acceptedBy h op s) n = tapSlot s n := by
  simp [tapSlot, tapOf, chargeOf]
@[simp] theorem liveRoutes_started (h : Hdr) (s : State) : liveRoutes (started h s) = liveRoutes s := by simp [liveRoutes]
@[simp] theorem chargeOf_started (h : Hdr) (s : State) (w : WorkRef) : chargeOf (started h s) w = chargeOf s w := by simp [chargeOf]
@[simp] theorem chargeOf_acceptedBy (h : Hdr) (op : Nat) (s : State) (w : WorkRef) :
    chargeOf (acceptedBy h op s) w = chargeOf s w := by simp [chargeOf]

end Sys2Proof.Machine

namespace Sys2Proof

open Machine

/-- Settles O16: the checks of each command pass (`progRouteSet_check`, `tapCheck_admits`), or the latency limit ends it.
-/
theorem routerCommands : Obligations.RouterCommands := by
  unfold Obligations.RouterCommands
  intro h s
  refine ⟨fun n a b g u hn hf hfade hin hd hl hu haw hs => ?_, fun n a b g hn hf hfade hin hd hl haw hs => ?_,
    fun n hn hin haw hs => ?_, fun b c g hb hc hg hl haw hs => ?_, fun n k o l t u hn hk ho h1 h2 h3 hb hin hfade ht hu hut haw hs => ?_,
    fun n k o hn hk ho hin hfade haw hs => ?_⟩
  · have hc := progRouteSet_check (s := started h s) hn hf (by simpa using hfade) (by simpa using hin) hd
    rw [if_pos hl, hu] at hc
    obtain ⟨hrun, hpow, hsup, hrat, -⟩ := admitFor_keeps hu
    exact next_congr (submit_done hs (by decide) hc rfl (haw.started h) ((haw.started h).of hpow hsup) rfl
      (by rw [hrun, started_running]) (by rw [hrat, started_rattle]) rfl)
  · have hc := progRouteSet_check (s := started h s) hn hf (by simpa using hfade) (by simpa using hin) hd
    rw [if_neg (by simp [hl])] at hc
    exact next_congr (submit_fails_awake hs (haw.started h) hc nofun)
  · have hc : (progRouteClear n).check (started h s) = (.ok, started h s) := by
      simp [progRouteClear, hin, Nat.not_lt.2 hn]
    refine next_congr (submit_done hs (by decide) hc rfl (haw.started h) (haw.started h) rfl (by simp) (by simp) ?_)
    simp only [progRouteClear, fadeRoute, route_acceptedBy, route_started, chargeOf_acceptedBy, chargeOf_started]
  · exact next_congr (submit_done hs (by decide) (progMixSetGain_check hb hc hg (by simpa using hl)) rfl (haw.started h) (haw.started h)
      rfl (by simp) (by simp) rfl)
  · have hc := tapCheck_admits (s := started h s) hn hk ho h1 h2 h3 hb (by simpa using hin) (by simpa using hfade) (by simpa using ht)
    rw [hu] at hc
    obtain ⟨hrun, hpow, hsup, hrat, -⟩ := admitFor_keeps hu
    refine next_congr (submit_done hs (by decide) hc rfl (haw.started h) ((haw.started h).of hpow hsup) rfl
      (by rw [hrun, started_running]) (by rw [hrat, started_rattle]) ?_)
    have h0 : l ≠ 0 := by omega
    simp only [progTapConfig, h0, if_false, tapSlot_acceptedBy, hut]
  · exact next_congr (submit_done hs (by decide) (tapCheck_removes hn hk ho (by simpa using hin) (by simpa using hfade)) rfl
      (haw.started h) (haw.started h) rfl (by simp) (by simp) rfl)

end Sys2Proof
end

section
/-! SUPPORT. Abacus commands (10 R297, R299 to R306). -/

namespace Sys2Proof.Machine

variable {h : Hdr} {s t u : State} {n k b f p c : Nat} {ws : List Nat} {cs : List Int}

@[simp] theorem restarting_started (h : Hdr) (s : State) (d : Nat) : restarting (started h s) d = restarting s d := by
  simp [restarting]

/-- What the checks that every rod command begins with decide (10 R301). -/
theorem firstFail_rodChecks {misfit : Bool} (hn : n ≤ 63) (hd : domAllowed s.power.state Dom.abc = true) (l : List (Bool × Status)) :
    firstFail (rodChecks n misfit s ++ l) =
      if misfit then .badParam else if firmwareRod (rod s n) then .badState else firstFail l := by
  simp only [rodChecks, List.cons_append, List.nil_append, firstFail_cons, hd, decide_eq_false (Nat.not_lt.2 hn), Bool.false_or,
    Bool.not_true, Bool.or_false, firmwareRod]
  rfl

theorem firmwareRod_of (hp : (rod s n).phase = .link ∨ (rod s n).phase = .carrier ∨ (rod s n).phase = .bus) :
    firmwareRod (rod s n) = true := by rcases hp with hp | hp | hp <;> simp [firmwareRod, hp]

theorem not_firmwareRod_of (h1 : (rod s n).phase ≠ .link) (h2 : (rod s n).phase ≠ .carrier) (h3 : (rod s n).phase ≠ .bus) :
    firmwareRod (rod s n) = false := by simp [firmwareRod, h1, h2, h3]

/-! ### The checks of each command, in their order -/

theorem progProgLoad_check (hn : n ≤ 63) (hd : domAllowed s.power.state Dom.abc = true) : (progProgLoad n f ws).check s =
    (if ws = [] ∨ 254 < ws.length then .badParam else if firmwareRod (rod s n) then .badState
      else if 512 < f + ws.length then .badParam else if (rod s n).phase = .running then .badState else .ok, s) := by
  simp [progProgLoad, firstFail_rodChecks hn hd]

theorem progAdmitCheck_eq (hn : n ≤ 63) (hd : domAllowed s.power.state Dom.abc = true) (hf : firmwareRod (rod s n) = false) :
    firstFail (rodChecks n false s ++ [(decide (k > 2), .badParam), ((rod s n).phase != .loaded, .badState)]) =
      if 2 < k then .badParam else if (rod s n).phase ≠ .loaded then .badState else .ok := by
  simp [firstFail_rodChecks hn hd, hf]

theorem progProgRetire_check (hn : n ≤ 63) (hd : domAllowed s.power.state Dom.abc = true) : (progProgRetire n).check s =
    (if firmwareRod (rod s n) then .badState else if (rod s n).phase ≠ .running then .badState else .ok, s) := by
  simp [progProgRetire, firstFail_rodChecks hn hd]

theorem progCoefWrite_check (hn : n ≤ 63) (hd : domAllowed s.power.state Dom.abc = true) : (progCoefWrite n b f cs).check s =
    (if cs = [] ∨ 509 < cs.length then .badParam else if firmwareRod (rod s n) then .badState
      else if 1 < b ∨ 512 < f + cs.length then .badParam
      else if (rod s n).phase = .running ∧ (b = (rod s n).active ∨ (rod s n).swap ≠ none) then .badState else .ok, s) := by
  simp [progCoefWrite, firstFail_rodChecks hn hd, Option.isSome_iff_ne_none]

theorem progCoefSwap_check (hn : n ≤ 63) (hd : domAllowed s.power.state Dom.abc = true) : (progCoefSwap n p).check s =
    (if firmwareRod (rod s n) then .badState else if (rod s n).phase ≠ .running ∨ (rod s n).swap ≠ none then .badState
      else if p ≠ 0 ∧ (p ≤ period s ∨ period s + 65535 < p) then .badParam else .ok, s) := by
  simp [progCoefSwap, firstFail_rodChecks hn hd, Option.isSome_iff_ne_none, imp_iff_not_or]

/-! ### PROG_ADMIT -/

theorem progAdmitCheck_refuses {st : Status} (hf : firstFail (rodChecks n false s ++ [(decide (k > 2), .badParam),
    ((rod s n).phase != .loaded, .badState)]) = st) (hst : st ≠ .ok) : progAdmitCheck n k s = (st, s) := by
  subst hf
  simp only [progAdmitCheck]

theorem progAdmitCheck_bad {a w : Nat} (hf : firstFail (rodChecks n false s ++ [(decide (k > 2), .badParam),
    ((rod s n).phase != .loaded, .badState)]) = .ok) (hp : progCheck (rod s n).prog = .inl (a, w)) : progAdmitCheck n k s =
      (.badParam, parSet P.abcProgCheck24 n (parSet P.abcProgCheck16 w (parSet P.abcProgCheck a s))) := by
  simp only [progAdmitCheck, hf, hp, each, List.foldl_cons, List.foldl_nil]

theorem progAdmitCheck_fits (hf : firstFail (rodChecks n false s ++ [(decide (k > 2), .badParam),
    ((rod s n).phase != .loaded, .badState)]) = .ok) (hp : progCheck (rod s n).prog = .inr c) : progAdmitCheck n k s =
      if routesFit (onRod n (admitted k c) s) then admitWork [progAsk n c] s else latencyRefusal s := by
  simp only [progAdmitCheck, hf, hp]
  cases routesFit (onRod n (admitted k c) s) <;> rfl

end Sys2Proof.Machine

namespace Sys2Proof

open Machine

/-- Settles O17: each command's checks, in their order, by the rod's state. -/
theorem rodCommands : Obligations.RodCommands := by
  unfold Obligations.RodCommands
  intro h s n hn haw
  have hd : domAllowed (started h s).power.state Dom.abc = true := (haw.started h Dom.abc (by simp)).1
  have ha : Awake [Dom.abc] (started h s) := haw.started h
  refine ⟨fun hp => ?_, fun h1 h2 h3 => ?_⟩
  · have hw : firmwareRod (rod (started h s) n) = true := firmwareRod_of (by simpa using hp)
    refine ⟨fun f ws hs => ?_, fun k hs => ?_, fun hs => ?_, fun b f ws hs => ?_, fun p hs => ?_⟩
    · have hc := progProgLoad_check (f := f) (ws := ws) hn hd
      rw [if_pos hw] at hc
      exact next_congr (submit_fails_awake hs ha hc (by split <;> nofun))
    · have hc := progAdmitCheck_refuses (s := started h s) (k := k) (n := n) (st := .badState)
        (by rw [firstFail_rodChecks hn hd, if_neg (by decide), if_pos hw]) nofun
      exact next_congr (submit_fails_awake hs ha hc nofun)
    · have hc := progProgRetire_check hn hd
      rw [if_pos hw] at hc
      exact next_congr (submit_fails_awake hs ha hc nofun)
    · have hc := progCoefWrite_check (b := b) (f := f) (cs := ws) hn hd
      rw [if_pos hw] at hc
      exact next_congr (submit_fails_awake hs ha hc (by split <;> nofun))
    · have hc := progCoefSwap_check (p := p) hn hd
      rw [if_pos hw] at hc
      exact next_congr (submit_fails_awake hs ha hc nofun)
  · have hw : firmwareRod (rod s n) = false := not_firmwareRod_of h1 h2 h3
    refine ⟨fun f ws hs => ?_, fun k hs => ?_, fun hs => ?_, fun b f ws hs => ?_, fun p hs => ?_⟩
    · have hc := progProgLoad_check (f := f) (ws := ws) hn hd
      simp only [hw, rod_started, Bool.false_eq_true, if_false] at hc
      refine ⟨fun hp h0 hl hfit => ?_, fun hbad => ?_, fun hp h0 hl hfit => ?_⟩
      · rw [if_neg (by simp only [h0, false_or]; omega), if_neg (by omega), if_neg hp] at hc
        exact next_congr (submit_done hs (by decide) hc rfl ha ha rfl (by simp) (by simp) rfl)
      · have hc' : (progProgLoad n f ws).check (started h s) = (.badParam, started h s) := by
          rw [hc]
          split
          · rfl
          · rw [if_pos (by tauto)]
        exact next_congr (submit_badParam hs hc')
      · rw [if_neg (by simp only [h0, false_or]; omega), if_neg (by omega), if_pos hp] at hc
        exact next_congr (submit_fails_awake hs ha hc nofun)
    · have hf := progAdmitCheck_eq (k := k) hn hd (by rwa [rod_started])
      refine ⟨fun c u hp hk hpc hr hu hprog => ?_, fun a w hp hk hpc => ?_, fun c hp hk hpc hr => ?_, fun hk => ?_, fun hp hk => ?_⟩
      · rw [if_neg (by omega), if_neg (by simp [hp])] at hf
        have hc := progAdmitCheck_fits hf (by simpa using hpc)
        rw [if_pos hr, hu] at hc
        obtain ⟨hrun, hpow, hsup, hrat, -⟩ := admitFor_keeps hu
        refine next_congr (submit_done hs (by decide) hc rfl ha (ha.of hpow hsup) rfl (by rw [hrun, started_running])
          (by rw [hrat, started_rattle]) ?_)
        have hcost : rodCost (acceptedBy h 0x71 u) n = c := by simp only [rodCost, rod_acceptedBy, hprog, hpc]
        simp only [progProgAdmit, hcost]
      · rw [if_neg (by omega), if_neg (by simp [hp])] at hf
        exact next_congr (submit_badParam hs (progAdmitCheck_bad hf (by simpa using hpc)))
      · rw [if_neg (by omega), if_neg (by simp [hp])] at hf
        have hc := progAdmitCheck_fits hf (by simpa using hpc)
        rw [if_neg (by simp [hr])] at hc
        exact next_congr (submit_fails_awake hs ha hc nofun)
      · rw [if_pos hk] at hf
        exact next_congr (submit_badParam hs (progAdmitCheck_refuses hf nofun))
      · rw [if_neg (by omega), if_pos (by simpa using hp)] at hf
        exact next_congr (submit_fails_awake hs ha (progAdmitCheck_refuses hf nofun) nofun)
    · have hc := progProgRetire_check hn hd
      simp only [hw, rod_started, Bool.false_eq_true, if_false] at hc
      refine ⟨fun hp => ?_, fun hp => ?_⟩
      · rw [if_neg (by simp [hp])] at hc
        exact next_congr (submit_waits hs (by decide) hc rfl ha ha rfl (by simp) nofun)
      · rw [if_pos hp] at hc
        exact next_congr (submit_fails_awake hs ha hc nofun)
    · have hc := progCoefWrite_check (b := b) (f := f) (cs := ws) hn hd
      simp only [hw, rod_started, Bool.false_eq_true, if_false] at hc
      refine ⟨fun hb h0 hl hfit hp hre => ?_, fun hb h0 hl hfit hsw hp => ?_, fun hbad => ?_, fun hb h0 hl hfit hp hsw => ?_⟩
      · rw [if_neg (by simp only [h0, false_or]; omega), if_neg (by omega), if_neg (by simp [hp])] at hc
        refine next_congr (submit_done hs (by decide) hc rfl ha ha (v := started h s) (aux := 0) ?_ (by simp) (by simp) rfl)
        simp [progCoefWrite, hp, hre]
      · rw [if_neg (by simp only [h0, false_or]; omega), if_neg (by omega), if_neg (by tauto)] at hc
        refine next_congr (submit_waits hs (by decide) hc rfl ha ha (v := started h s) (aux := 0) ?_ (by simp) nofun)
        simpa [progCoefWrite, or_iff_not_imp_left] using hp
      · have hc' : (progCoefWrite n b f ws).check (started h s) = (.badParam, started h s) := by
          rw [hc]
          split
          · rfl
          · rw [if_pos (by tauto)]
        exact next_congr (submit_badParam hs hc')
      · rw [if_neg (by simp only [h0, false_or]; omega), if_neg (by omega), if_pos ⟨hp, by tauto⟩] at hc
        exact next_congr (submit_fails_awake hs ha hc nofun)
    · have hc := progCoefSwap_check (p := p) hn hd
      simp only [hw, rod_started, period_started, Bool.false_eq_true, if_false] at hc
      refine ⟨fun hp hsw hper => ?_, fun hp => ?_, fun hp hsw h0 hper => ?_⟩
      · rw [if_neg (by simp [hp, hsw]), if_neg (by omega)] at hc
        refine next_congr (submit_now hs rfl hc rfl ha ha (aux := if p = 0 then period s + 1 else p) (v := started h s) ?_ (by simp) rfl)
        simp only [progCoefSwap, period_started]
      · rw [if_pos hp] at hc
        exact next_congr (submit_fails_awake hs ha hc nofun)
      · rw [if_neg (by simp [hp, hsw]), if_pos (by omega)] at hc
        exact next_congr (submit_badParam hs hc)

end Sys2Proof
end

section
/-! SUPPORT. ANALOG_CONFIG and the instrumentation commands (12 R341 to R355, 13 R369 to R383). -/

namespace Sys2Proof.Machine

variable {h : Hdr} {s t u : State} {n ch c m o l : Nat}

/-! ### ANALOG_CONFIG -/

theorem anaSequence_running (t : Nat) (up : Bool) (s : State) : (anaSequence t up s).running = s.running := rfl

theorem reviseAna_running (t : Nat) (s : State) : (reviseAna t s).running = s.running := by
  simp only [reviseAna]
  (repeat' split) <;> simp [anaSequence_running]

theorem anaBegin_running (t f v : Nat) (s : State) : (anaBegin t f v s).2.running = s.running := by
  simp only [anaBegin]
  (repeat' split) <;> simp [anaSequence_running, reviseAna_running]

theorem progAnalogConfig_check {t f a b : Nat} {v : Int} (hr : anaRange t f = some (a, b)) (s : State) :
    (progAnalogConfig t f v).check s = (if (a : Int) ≤ v ∧ v ≤ b then .ok else .badParam, s) := by
  simp [progAnalogConfig, hr]

/-! ### Converters -/

theorem progMeasNow_check (hn : n ≤ 1) (hc : channelOk n ch = true) (hd : domAllowed s.power.state Dom.ana = true)
    (hr : s.inst.refReady = true) : (progMeasNow n ch).check s =
      if (fine s n).conv.isSome || (fine s n).trigger == 1 then (.dropped, bump P.measUrgentDropped s) else (.ok, s) := by
  have hfirst : firstFail [(decide (n > 1) || !channelOk n ch, .badParam),
      (!domAllowed s.power.state Dom.ana || !refReady s, .badState)] = .ok := by
    simp [hc, hd, refReady, hr, Nat.not_lt.2 hn]
  simp only [progMeasNow, hfirst]

/-! ### Streams -/

theorem progMeasStreamStart_check (h0 : m ≠ 0) (h3 : m ≤ 3) (ho : o % 8 = 0) (hl : l % 8 = 0) (h64 : 64 ≤ l) (hol : o + l ≤ 0x40000)
    (ht : s.audio.taps.any (fun p => p.2.length != 0 && overlaps o l p.2.start p.2.length) = false) (hs : s.inst.stream = none)
    (hd : domAllowed s.power.state Dom.ana = true) :
    (progMeasStreamStart m o l).check s = admitFor (streamKey m) [streamAsk m] s := by
  have hr : ¬(m = 0 ∨ 3 < m ∨ o % 8 ≠ 0 ∨ l % 8 ≠ 0 ∨ l < 64 ∨ 0x40000 < o + l) := by omega
  have hfirst : firstFail [
      (decide (m = 0 ∨ m > 3 ∨ o % 8 ≠ 0 ∨ l % 8 ≠ 0 ∨ l < 64 ∨ o + l > 0x40000) ||
        s.audio.taps.any (fun p => p.2.length != 0 && overlaps o l p.2.start p.2.length), .badParam),
      (s.inst.stream.isSome || !domAllowed s.power.state Dom.ana, .badState)] = .ok := by
    simp only [firstFail_cons, gt_iff_lt, hr, ht, hs, hd]
    rfl
  simp only [progMeasStreamStart, hfirst]

/-! ### Control DACs -/

theorem progCdacSet_check {v m : Nat} (hc : c ≤ 7) (hv : v ≤ 16383) (hm : m ≤ 4) (hd : domAllowed s.power.state Dom.ana = true)
    (ht : m ≠ 0 → timerOn s (m - 1) = true) : (progCdacSet c v m).check s = (.ok, s) := by
  have hr : ¬(7 < c ∨ 16383 < v ∨ 4 < m) := by omega
  have htimer : (m != 0 && !timerOn s (m - 1)) = false := by
    by_cases h0 : m = 0
    · simp [h0]
    · simp [ht h0]
  simp only [progCdacSet, Prog.direct, firstFail_cons, firstFail_nil, htimer]
  simp [hr, hd]

end Sys2Proof.Machine

namespace Sys2Proof

open Machine

/-- Settles O18: a sequence or a ramp is what the command waits for, and its range check comes first
(`progAnalogConfig_check`). -/
theorem analogCommand : Obligations.AnalogCommand := by
  unfold Obligations.AnalogCommand
  intro h s t f v
  refine ⟨fun a b hr h1 h2 hq haw hs => ?_, fun a b hr h1 h2 hq haw hs => ?_, fun a b hr hv hs => ?_, fun hr hs => ?_⟩
  · have hc := progAnalogConfig_check (v := v) hr (started h s)
    rw [if_pos ⟨h1, h2⟩] at hc
    have hb : (progAnalogConfig t f v).begin (started h s) = (
        some (if (anaBegin t f v.toNat (started h s)).1 then .analogSeq t else .boundary), anaSet (started h s) t f,
        (anaBegin t f v.toNat (started h s)).2) := by
      simp only [progAnalogConfig, hq, if_true]
    refine next_congr (submit_waits hs (by decide) hc rfl (haw.started h) (haw.started h) hb ?_ ?_)
    · rw [anaBegin_running, started_running]
    · split <;> nofun
  · have hc := progAnalogConfig_check (v := v) hr (started h s)
    rw [if_pos ⟨h1, h2⟩] at hc
    have hb : (progAnalogConfig t f v).begin (started h s) = (some .boundary, anaSet (started h s) t f, started h s) := by
      simp only [progAnalogConfig, hq, Bool.false_eq_true, if_false]
    exact next_congr (submit_waits hs (by decide) hc rfl (haw.started h) (haw.started h) hb (by simp) nofun)
  · have hc := progAnalogConfig_check (v := v) hr (started h s)
    rw [if_neg (by omega)] at hc
    exact next_congr (submit_badParam hs hc)
  · exact next_congr (submit_badParam hs (by simp [progAnalogConfig, hr]))

/-- Settles O19: the checks of each command pass (`progMeasNow_check` and its like); MEAS_NOW alone waits. -/
theorem instrumentCommands : Obligations.InstrumentCommands := by
  unfold Obligations.InstrumentCommands
  intro h s
  refine ⟨fun n ch r o k t d hc haw hs => ?_, fun n ch r o k t d hc hs => ?_, fun n ch hn hc hr hf ht haw hs => ?_,
    fun n ch hn hc hr hf haw hs => ?_, fun m o l u h0 h3 ho hl h64 hol ht hst hu haw hs => ?_, fun m h1 h3 hs => ?_,
    fun c v hc hv haw hs => ?_, fun c v m hc hv h1 h4 ht haw hs => ?_, fun c r hc hr hp haw hs => ?_⟩
  · have hcheck : (progMeasConfig n ch r o k t d).check (started h s) = (.ok, started h s) := by simp only [progMeasConfig, hc]
    refine next_congr (submit_done hs (by decide) hcheck rfl (haw.started h) (haw.started h) rfl (by simp) (by simp) ?_)
    simp only [progMeasConfig, fine_acceptedBy, fine_started]
  · exact next_congr (submit_badParam hs (by simp only [progMeasConfig, hc]))
  · have hcheck := progMeasNow_check (s := started h s) hn hc (haw.started h Dom.ana (by simp)).1 (by simpa using hr)
    rw [if_neg (by simp [hf, ht])] at hcheck
    exact next_congr (submit_waits hs (by decide) hcheck rfl (haw.started h) (haw.started h) rfl (by simp [startConv]) nofun)
  · have hcheck := progMeasNow_check (s := started h s) hn hc (haw.started h Dom.ana (by simp)).1 (by simpa using hr)
    rw [if_pos (by simpa using hf)] at hcheck
    exact next_congr (submit_fails_awake hs (haw.started h) hcheck nofun)
  · have hcheck := progMeasStreamStart_check (s := started h s) h0 h3 ho hl h64 hol (by simpa using ht) (by simpa using hst)
      (haw.started h Dom.ana (by simp)).1
    rw [hu] at hcheck
    obtain ⟨hrun, hpow, hsup, hrat, -⟩ := admitFor_keeps hu
    have hinst : u.inst = s.inst := (admitFor_field State.inst (by simp) hu).trans (by simp)
    refine next_congr (submit_done hs (by decide) hcheck rfl (haw.started h) ((haw.started h).of hpow hsup) rfl
      (by rw [hrun, started_running]) (by rw [hrat, started_rattle]) ?_)
    simp only [progMeasStreamStart, acceptedBy_inst, hinst, hst, Option.isSome_none, Bool.false_eq_true, if_false]
  · exact next_congr (submit_prog_direct hs rfl (if_pos ⟨h1, h3⟩))
  · have hcheck := progCdacSet_check (m := 0) hc hv (by decide) (haw.started h Dom.ana (by simp)).1 (absurd rfl)
    refine next_congr (submit_reply hs rfl (fun _ => rfl) rfl hcheck (by simp) (haw.started h) (haw.started h) ?_)
    simp only [progCdacSet, Prog.direct, if_true, now_started]
  · have hcheck := progCdacSet_check hc hv h4 (haw.started h Dom.ana (by simp)).1 (fun _ => ht)
    refine next_congr (submit_reply hs rfl (fun _ => rfl) rfl hcheck (by simp) (haw.started h) (haw.started h) ?_)
    simp only [progCdacSet, Prog.direct, if_neg (show m ≠ 0 by omega)]
  · have hcheck : (progCdacRange c r).check (started h s) = (.ok, started h s) := by
      have hr' : ¬(7 < c ∨ 1 < r) := by omega
      have hd : domAllowed s.power.state Dom.ana = true := (haw Dom.ana (by simp)).1
      simp [progCdacRange, hr', hd, hp]
    refine next_congr (submit_done hs (by decide) hcheck rfl (haw.started h) (haw.started h) rfl (by simp) (by simp) ?_)
    simp only [progCdacRange, now_acceptedBy, now_started]

end Sys2Proof
end

section
/-! SUPPORT. Bytes pushed into a command FIFO (02 R38, R42, R45 to R47, R50). -/

namespace Sys2Proof.Machine

variable {c : Chan} {b : Byte} {s t : State} {n : Nat} {p : List Byte}

/-! ### A channel's own part of the state -/

@[simp] theorem chan_onChan_same (c : Chan) (f : Channel → Channel) (s : State) : chan (onChan c f s) c = f (chan s c) := by
  cases c <;> rfl

theorem onChan_onChan (c : Chan) (f g : Channel → Channel) (s : State) :
    onChan c f (onChan c g s) = onChan c (fun k => f (g k)) s := by cases c <;> rfl

theorem onChan_eq_self {f : Channel → Channel} (hf : f (chan s c) = chan s c) : onChan c f s = s := by
  cases c <;> simp only [chan] at hf <;> simp only [onChan, hf]

theorem onChan_congr {f g : Channel → Channel} (hf : f (chan s c) = g (chan s c)) : onChan c f s = onChan c g s := by
  cases c <;> simp only [chan] at hf <;> simp only [onChan, hf]

theorem onChan_asm_nil (ha : (chan s c).asm = []) : onChan c (fun k => { k with asm := [] }) s = s :=
  onChan_eq_self (by rw [← ha])

/-! ### One byte -/

/-- A byte that does not end a packet, nor the four bytes of a length above 1024, joins the packet in assembly. -/
theorem pushByte_joins (hd : (chan s c).discard = false) (hl : cmdLevel s c < 2048)
    (h4 : (chan s c).asm.length = 3 → fldAt ((chan s c).asm ++ [b]) 2 2 ≤ 1024)
    (hn : 3 ≤ (chan s c).asm.length → (chan s c).asm.length + 1 ≠ 6 + fldAt ((chan s c).asm ++ [b]) 2 2) :
    pushByte c b s = onChan c (fun k => { k with asm := (chan s c).asm ++ [b] }) s := by
  have h1 : ¬(((chan s c).asm ++ [b]).length = 4 ∧ fldAt ((chan s c).asm ++ [b]) 2 2 > 1024) := by
    rw [List.length_append, List.length_singleton]
    omega
  have h2 : ¬(((chan s c).asm ++ [b]).length ≥ 4 ∧ ((chan s c).asm ++ [b]).length = 6 + fldAt ((chan s c).asm ++ [b]) 2 2) := by
    rw [List.length_append, List.length_singleton]
    omega
  simp only [pushByte, hd, Bool.false_eq_true, if_false, if_neg (show ¬(cmdLevel s c ≥ 2048) by omega)]
  rw [if_neg h1, if_neg h2]

theorem pushByte_tooLong (hd : (chan s c).discard = false) (hl : cmdLevel s c < 2048) (h3 : (chan s c).asm.length = 3)
    (h4 : 1024 < fldAt ((chan s c).asm ++ [b]) 2 2) : pushByte c b s = enterDiscard c 3 s := by
  simp only [pushByte, hd, Bool.false_eq_true, if_false, if_neg (show ¬(cmdLevel s c ≥ 2048) by omega)]
  rw [if_pos ⟨by simp [h3], h4⟩]

theorem pushByte_full (hd : (chan s c).discard = false) (hl : 2048 ≤ cmdLevel s c) : pushByte c b s = enterDiscard c 2 s := by
  simp only [pushByte, hd, Bool.false_eq_true, if_false, if_pos hl]

theorem pushByte_discarded (hd : (chan s c).discard = true) : pushByte c b s = s := by
  simp only [pushByte, hd, if_true]

/-- The byte that makes the packet as long as its header says hands it on. -/
theorem pushByte_ends (hd : (chan s c).discard = false) (hl : cmdLevel s c < 2048)
    (hn : (chan s c).asm.length + 1 = 6 + fldAt ((chan s c).asm ++ [b]) 2 2) :
    pushByte c b s = packetIn c ((chan s c).asm ++ [b]) (onChan c (fun k => { k with asm := [] }) s) := by
  have h1 : ¬(((chan s c).asm ++ [b]).length = 4 ∧ fldAt ((chan s c).asm ++ [b]) 2 2 > 1024) := by
    rw [List.length_append, List.length_singleton]
    omega
  have h2 : ((chan s c).asm ++ [b]).length ≥ 4 ∧ ((chan s c).asm ++ [b]).length = 6 + fldAt ((chan s c).asm ++ [b]) 2 2 := by
    rw [List.length_append, List.length_singleton]
    omega
  simp only [pushByte, hd, Bool.false_eq_true, if_false, if_neg (show ¬(cmdLevel s c ≥ 2048) by omega)]
  rw [if_neg h1, if_pos h2]

/-! ### The mailbox of the front window -/

theorem windowAnswers_iff : windowAnswers s = true ↔ s.supply.resetHeld = none ∧ s.supply.iohOn = true := by
  simp [windowAnswers]

theorem windowAnswers_of_dead (hd : s.supply.resetHeld ≠ none ∨ s.supply.iohOn = false) : windowAnswers s = false := by
  rcases hd with hd | hd <;> simp [windowAnswers, hd]

theorem exec_cmdMailboxWrite (hw : windowAnswers s = true) : exec (.cmdMailboxWrite c b) s = .next (writeCmd c b s) := by
  refine next_congr ?_
  rw [if_pos hw]
  rfl

theorem exec_cmdMailboxWrite_running (hw : windowAnswers s = true) (hr : s.seq.running = true) :
    exec (.cmdMailboxWrite c b) s = .next (pushByte c b s) := by
  rw [exec_cmdMailboxWrite hw, writeCmd, if_pos hr]

/-! ### The bytes of a packet, one by one -/

theorem cmdLevel_assembling (c : Chan) (a : List Byte) (s : State) (ha : (chan s c).asm = []) :
    cmdLevel (onChan c (fun k => { k with asm := a }) s) c = cmdLevel s c + a.length := by
  simp only [cmdLevel, chan_onChan_same, ha, List.length_nil, onChan_waiting]
  omega

/-- The first bytes of a packet of the length in its header wait in assembly. -/
theorem each_pushByte_take (hd : (chan s c).discard = false) (ha : (chan s c).asm = []) (hlen : p.length = n + 6)
    (hf : fldAt p 2 2 = n) (h1024 : n ≤ 1024) (hl : cmdLevel s c + p.length ≤ 2048) (i : Nat) (hi : i < p.length) :
    each (p.take i) (pushByte c) s = onChan c (fun k => { k with asm := p.take i }) s := by
  induction i with
  | zero => exact (onChan_asm_nil ha).symm
  | succ i ih =>
    have hi' : i < p.length := by omega
    have hsnoc : p.take i ++ [p[i]] = p.take (i + 1) := List.take_append_getElem hi'
    have hfld : 3 ≤ i → fldAt (p.take (i + 1)) 2 2 = n := fun h3 => by
      rw [← hf, ← List.take_append_drop (i + 1) p, fldAt_append_left _ (by rw [List.length_take]; omega), List.take_append_drop]
    have hasm : (chan (onChan c (fun k => { k with asm := p.take i }) s) c).asm = p.take i := by rw [chan_onChan_same]
    have hlevel := cmdLevel_assembling c (p.take i) s ha
    have htl : (p.take i).length = i := by rw [List.length_take]; omega
    rw [← hsnoc, each, List.foldl_append]
    refine (congrArg (pushByte c p[i]) (ih hi')).trans ?_
    rw [pushByte_joins (by rw [chan_onChan_same]; exact hd) (by rw [hlevel, htl]; omega), hasm, onChan_onChan]
    · rw [hasm, htl, hsnoc]
      intro h3
      rw [hfld (by omega)]
      exact h1024
    · rw [hasm, htl, hsnoc]
      intro h3
      rw [hfld h3]
      omega

/-- All bytes of a packet leave the machine where its last one does. -/
theorem each_pushByte (hd : (chan s c).discard = false) (ha : (chan s c).asm = []) (hlen : p.length = n + 6)
    (hf : fldAt p 2 2 = n) (h1024 : n ≤ 1024) (hl : cmdLevel s c + p.length ≤ 2048) :
    each p (pushByte c) s = packetIn c p s := by
  have hlast : n + 5 < p.length := by omega
  have hsnoc : p.take (n + 5) ++ [p[n + 5]] = p := by
    rw [List.take_append_getElem hlast, List.take_of_length_le (by omega)]
  have hasm : (chan (onChan c (fun k => { k with asm := p.take (n + 5) }) s) c).asm = p.take (n + 5) := by rw [chan_onChan_same]
  have htl : (p.take (n + 5)).length = n + 5 := by rw [List.length_take]; omega
  calc each p (pushByte c) s
      = pushByte c p[n + 5] (each (p.take (n + 5)) (pushByte c) s) := by
        conv_lhs => rw [← hsnoc]
        rw [each, List.foldl_append]
        rfl
    _ = packetIn c p s := by
        rw [each_pushByte_take hd ha hlen hf h1024 hl _ hlast, pushByte_ends (by rw [chan_onChan_same]; exact hd)
          (by rw [cmdLevel_assembling c _ s ha, htl]; omega) (by rw [hasm, htl, hsnoc, hf]; omega),
          hasm, hsnoc, onChan_onChan, onChan_asm_nil ha]

end Sys2Proof.Machine

namespace Sys2Proof

open Machine

/-- Settles O20: where the window answers and SEQ runs, a byte is one of the cases of `pushByte`. -/
theorem mailboxWrite : Obligations.MailboxWrite := by
  unfold Obligations.MailboxWrite
  intro c b s
  refine ⟨fun hd => ?_, fun h1 h2 => ?_⟩
  · refine next_congr ?_
    rw [if_neg (by rw [windowAnswers_of_dead hd]; decide)]
  have hw := windowAnswers_iff.2 ⟨h1, h2⟩
  refine ⟨fun hr hd hl hn => ?_, fun hr hd hl h3 h4 => ?_, fun hr hd hl h3 h4 => ?_, fun hr hd hl => ?_, fun hr hd hl _ hn => ?_,
    fun hx => ?_⟩
  · rw [exec_cmdMailboxWrite_running hw hr, pushByte_joins hd hl (by omega) (by omega)]
    exact next_congr (onChan_congr rfl)
  · rw [exec_cmdMailboxWrite_running hw hr, pushByte_joins hd hl (fun _ => h4) (by omega)]
    exact next_congr (onChan_congr rfl)
  · rw [exec_cmdMailboxWrite_running hw hr, pushByte_tooLong hd hl h3 h4]
  · rw [exec_cmdMailboxWrite_running hw hr, pushByte_full hd hl]
  · rw [exec_cmdMailboxWrite_running hw hr, pushByte_ends hd hl hn]
  · rw [exec_cmdMailboxWrite hw, writeCmd]
    refine next_congr ?_
    split
    · next hr => exact pushByte_discarded (hx.resolve_left (by simp [hr]))
    · rfl

/-- Settles O57, by induction on the bytes that have arrived (`each_pushByte_take`). -/
theorem packetAssembly : Obligations.PacketAssembly := by
  unfold Obligations.PacketAssembly
  intro k op flags params s h1024 hd ha hl body h
  have hbody : body.length = params.length + 4 := by
    simp only [body, List.length_append, List.length_cons, List.length_nil, length_leBytes]
    omega
  have hlen : (body ++ leBytes 2 (crc16 body)).length = params.length + 6 := by
    rw [List.length_append, hbody, length_leBytes]
  have hcount : fldAt (body ++ leBytes 2 (crc16 body)) 2 2 = params.length := by
    rw [fldAt_append_left _ (by omega), fldAt_append_left _ (by simp), fldAt_append_right (by simp)]
    exact (fldAt_leBytes 2 _).trans (Nat.mod_eq_of_lt (by omega))
  have hcrc : crc16 body = (BitVec.ofNat 8 (crc16 body)).toNat + 256 * (BitVec.ofNat 8 (crc16 body / 256)).toNat := by
    have hlt : crc16 body < 65536 := (crcReg body).isLt
    rw [BitVec.toNat_ofNat, BitVec.toNat_ofNat]
    omega
  have hop : fldAt body 0 1 = op.toNat := by simp [body, fldAt, leNat]
  have hflags : fldAt body 1 1 = flags.toNat := by simp [body, fldAt, leNat]
  have hhdr : hdrOf k body = h := by
    simp only [hdrOf, hflags, h, BitVec.testBit_toNat]
  have hparams : body.drop 4 = params := rfl
  rw [each_pushByte hd ha hlen hcount h1024 (by omega)]
  refine (packetIn_append_two k body _ _ s (by omega)).trans ?_
  rw [if_pos hcrc, hop, hhdr, hparams, hbody, show params.length + 4 + 2 = 6 + params.length by omega]

end Sys2Proof
end

section
/-! SUPPORT. Accesses of the front window (02 R40, R43, R44, R59, 14 R400). -/

namespace Sys2Proof.Machine

variable {c : Chan} {a n : Nat} {v : Byte} {s t : State}

/-! ### What a byte written does, by its address -/

theorem frontWrite_mailbox (h1 : 0x20 ≤ a) (h2 : a ≤ 0x7F) : frontWrite c a v s = writeCmd c v s := if_pos ⟨h1, h2⟩

theorem frontWrite_intMask (hn : n ≤ 3) : frontWrite c (0x0C + n) v s =
    { s with front := { s.front with intMask := putByte s.front.intMask n v } } := by
  have h1 : ¬(0x20 ≤ 0x0C + n ∧ 0x0C + n ≤ 0x7F) := by omega
  have h2 : 0x0C + n ≠ 0x08 := by omega
  have h3 : 0x0C ≤ 0x0C + n ∧ 0x0C + n ≤ 0x0F := by omega
  simp only [frontWrite, h1, h2, h3, if_false, Nat.add_sub_cancel_left, and_self, if_true]

theorem frontWrite_scratch (hn : n ≤ 3) : frontWrite c (0xF8 + n) v s =
    { s with front := { s.front with scratch := putByte s.front.scratch n v } } := by
  have h1 : ¬(0x20 ≤ 0xF8 + n ∧ 0xF8 + n ≤ 0x7F) := by omega
  have h2 : ¬(0x0C ≤ 0xF8 + n ∧ 0xF8 + n ≤ 0x0F) := by omega
  have h3 : 0xF8 ≤ 0xF8 + n ∧ 0xF8 + n ≤ 0xFB := by omega
  have h4 : 0xF8 + n ≠ 0x08 ∧ 0xF8 + n ≠ 0x10 ∧ 0xF8 + n ≠ 0x11 ∧ 0xF8 + n ≠ 0x14 ∧ 0xF8 + n ≠ 0xE0 ∧ 0xF8 + n ≠ 0xE1 ∧
      0xF8 + n ≠ 0xE2 := by omega
  obtain ⟨e1, e2, e3, e4, e5, e6, e7⟩ := h4
  simp only [frontWrite, h1, h2, h3, e1, e2, e3, e4, e5, e6, e7, if_false, Nat.add_sub_cancel_left, and_self, if_true]

/-- Read-only and reserved bytes take no write. -/
theorem frontWrite_readOnly (ha : a ≤ 0x07 ∨ (0x09 ≤ a ∧ a ≤ 0x0B) ∨ a = 0x12 ∨ a = 0x13 ∨ (0x15 ≤ a ∧ a ≤ 0x1F) ∨
    (0x80 ≤ a ∧ a ≤ 0xDF) ∨ (0xE3 ≤ a ∧ a ≤ 0xF7) ∨ (0xFC ≤ a ∧ a ≤ 0xFF)) : frontWrite c a v s = s := by
  have h1 : ¬(0x20 ≤ a ∧ a ≤ 0x7F) := by omega
  have h2 : ¬(0x0C ≤ a ∧ a ≤ 0x0F) := by omega
  have h3 : ¬(0xF8 ≤ a ∧ a ≤ 0xFB) := by omega
  have h4 : a ≠ 0x08 ∧ a ≠ 0x10 ∧ a ≠ 0x11 ∧ a ≠ 0x14 ∧ a ≠ 0xE0 ∧ a ≠ 0xE1 ∧ a ≠ 0xE2 := by omega
  obtain ⟨e1, e2, e3, e4, e5, e6, e7⟩ := h4
  simp only [frontWrite, h1, h2, h3, e1, e2, e3, e4, e5, e6, e7, if_false]

/-! ### Accesses while the window answers, and while it does not -/

theorem exec_frontWindowWrite (hw : windowAnswers s = true) (ha : a < 256) :
    exec (.frontWindowWrite c a v) s = .next (frontWrite c a v s) := by
  refine next_congr ?_
  rw [if_pos hw, Nat.mod_eq_of_lt ha]

theorem exec_frontAccess_dead (hw : windowAnswers s = false) (c : Chan) :
    exec (.replyMailboxRead c) s = .next s ∧ exec (.flushCmd c) s = .next s ∧ exec (.flushReply c) s = .next s ∧
    exec .timebaseLatch s = .next s ∧ (∀ v, exec (.alertStatusWrite v) s = .next s) ∧
    (∀ a v, exec (.frontWindowWrite c a v) s = .next s) := by
  have hne : ¬windowAnswers s = true := by simp [hw]
  exact ⟨next_congr (if_neg hne), next_congr (if_neg hne), next_congr (if_neg hne), next_congr (if_neg hne),
    fun _ => next_congr (if_neg hne), fun _ _ => next_congr (if_neg hne)⟩

theorem exec_replyMailboxRead (hw : windowAnswers s = true) : exec (.replyMailboxRead c) s =
    .next { (readReply c s).2 with front := { (readReply c s).2.front with spiOut := [(readReply c s).1] } } :=
  next_congr (if_pos hw)

theorem exec_flushCmd (hw : windowAnswers s = true) : exec (.flushCmd c) s = .next (flushCmd c s) := next_congr (if_pos hw)

theorem exec_flushReply (hw : windowAnswers s = true) : exec (.flushReply c) s = .next (flushReply c s) := next_congr (if_pos hw)

theorem exec_alertStatusWrite (hw : windowAnswers s = true) : exec (.alertStatusWrite v) s = .next (alertWrite v s) :=
  next_congr (if_pos hw)

/-! ### Reads of the reply mailbox -/

theorem popReply_cons {b : Byte} {bs : List Byte} {rest : List (List Byte)} (hr : (chan s c).replies = (b :: bs) :: rest) :
    popReply c s = (b, onChan c (fun k => { k with replies := if bs = [] then rest else bs :: rest, partly := !bs.isEmpty }) s) := by
  simp only [popReply, hr]

theorem popReply_nil (hr : (chan s c).replies = []) :
    popReply c s = (0, bump P.sysReplyUnderrun (onChan c (fun k => { k with intUnderrun := true }) s)) := by
  simp only [popReply, hr]

theorem readReply_cons {b : Byte} {bs : List Byte} {rest : List (List Byte)} (hq : s.seq.running = true)
    (hr : (chan s c).replies = (b :: bs) :: rest) : readReply c s = (b, softCount c
      (onChan c (fun k => { k with replies := if bs = [] then rest else bs :: rest, partly := !bs.isEmpty }) s)) := by
  simp [readReply, hq, popReply_cons hr, hr]

theorem readReply_nil (hq : s.seq.running = true) (hr : (chan s c).replies = []) :
    readReply c s = (0, bump P.sysReplyUnderrun (onChan c (fun k => { k with intUnderrun := true }) s)) := by
  simp [readReply, hq, popReply_nil hr, hr]

theorem readReply_stopped (hq : s.seq.running = false) : readReply c s = (0, s) := by simp [readReply, hq]

theorem flushCmd_stopped (hq : s.seq.running = false) : flushCmd c s = s := by simp [flushCmd, hq]

theorem flushReply_stopped (hq : s.seq.running = false) : flushReply c s = s := by simp [flushReply, hq]

end Sys2Proof.Machine

namespace Sys2Proof

open Machine

/-- Settles O21: a write acts by its address alone (`frontWrite_…`), a read of the reply mailbox by what waits there. -/
theorem frontAccesses : Obligations.FrontAccesses := by
  unfold Obligations.FrontAccesses
  intro c s
  refine ⟨fun hd => exec_frontAccess_dead (windowAnswers_of_dead hd) c, fun h1 h2 => ?_⟩
  have hw := windowAnswers_iff.2 ⟨h1, h2⟩
  refine ⟨fun b bs rest hq hr => ?_, fun hq hr => ?_, fun hq => ?_, fun hq => ?_, fun hq => ?_, fun hq => ⟨?_, ?_⟩, next_congr (if_pos hw),
    fun v => exec_alertStatusWrite hw, fun v => exec_frontWindowWrite hw (by decide), fun n v hn => ?_, fun v => ?_,
    fun v => exec_frontWindowWrite hw (by decide), fun v => exec_frontWindowWrite hw (by decide), ⟨exec_flushCmd hw, exec_flushReply hw⟩,
    fun a v ha hb => ?_, fun v => exec_frontWindowWrite hw (by decide), fun v => exec_frontWindowWrite hw (by decide),
    fun v => exec_frontWindowWrite hw (by decide), fun n v hn => ?_, fun a v ha => ?_⟩
  · rw [exec_replyMailboxRead hw, readReply_cons hq hr]
  · rw [exec_replyMailboxRead hw, readReply_nil hq hr]
    simp only [bump_front, onChan_front]
  · rw [exec_replyMailboxRead hw, readReply_stopped hq]
  · rw [exec_flushCmd hw]
    refine next_congr ?_
    rw [flushCmd, if_neg (by simp [hq])]
  · rw [exec_flushReply hw]
    refine next_congr ?_
    rw [flushReply, if_neg (by simp [hq])]
  · rw [exec_flushCmd hw, flushCmd_stopped hq]
  · rw [exec_flushReply hw, flushReply_stopped hq]
  · rw [exec_frontWindowWrite hw (by omega), frontWrite_intMask hn]
  · rw [exec_alertStatusWrite hw]
    exact exec_frontWindowWrite hw (by decide)
  · rw [exec_frontWindowWrite hw (by omega), frontWrite_mailbox ha hb, exec_cmdMailboxWrite hw]
  · rw [exec_frontWindowWrite hw (by omega), frontWrite_scratch hn]
  · rw [exec_frontWindowWrite hw (by omega), frontWrite_readOnly ha]

end Sys2Proof
end

section
/-! SUPPORT. SPI transactions (02 R36 to R39, 15 R417, 19 R475, R480, R489). -/

namespace Sys2Proof.Machine

variable {a n : Nat} {v : Byte} {s u : State} {needs : Bool} {body : State → List Byte × State}

/-! ### A transaction by whether the port is served and whether SEQ runs where it is needed -/

theorem spiServed_of (h1 : s.supply.resetHeld = none) (h2 : s.supply.iohOn = true) (h3 : s.front.bootMode ≠ 1) :
    spiServed s = true := by simp [spiServed, windowAnswers, h1, h2, h3]

theorem spiServed_dead (hd : s.supply.resetHeld ≠ none ∨ s.supply.iohOn = false ∨ s.front.bootMode = 1) : spiServed s = false := by
  rcases hd with hd | hd | hd <;> simp [spiServed, windowAnswers, hd]

theorem spiRun_dead (hs : spiServed s = false) : spiRun needs n body s = drive [] s := by simp [spiRun, hs]

theorem spiRun_served (hs : spiServed s = true) (hu : u = spiSelect s) (hn : needs = false ∨ u.seq.running = true) :
    spiRun needs n body s = drive (spiStatus false u :: (body u).1) (body u).2 := by
  subst hu
  have hw : (needs && !(spiSelect s).seq.running) = false := by rcases hn with hn | hn <;> simp [hn]
  simp only [spiRun, hs, hw, Bool.not_true, Bool.false_eq_true, if_false]

theorem spiRun_waking (hs : spiServed s = true) (hu : u = spiSelect s) (hq : u.seq.running = false) :
    spiRun true n body s = drive (spiStatus true u :: List.replicate n 0) (bump P.sysSpiWakingReplies u) := by
  subst hu
  simp only [spiRun, hs, hq, Bool.not_true, Bool.not_false, Bool.and_self, Bool.false_eq_true, if_false, if_true, countWaking]

/-! ### Runs of bytes -/

theorem needsSeq_low (ha : a < 0x20) : needsSeq a = false := decide_eq_false (by omega)
theorem needsSeq_high (ha : 0xE0 ≤ a) : needsSeq a = false := decide_eq_false (by omega)
theorem needsSeq_mailbox (h1 : 0x20 ≤ a) (h2 : a ≤ 0xDF) : needsSeq a = true := decide_eq_true ⟨h1, h2⟩

/-- Below the timebase latch a read shows bytes and changes nothing. -/
theorem readRun_status (n a : Nat) (s : State) (ha : a + n ≤ 0x18) :
    readRun n a s = ((List.range n).map (fun i => showByte .operator (a + i) s), false, s) := by
  induction n generalizing a with
  | zero => rfl
  | succ n ih =>
    have hread : frontRead .operator a s = (showByte .operator a s, s) := by
      simp only [frontRead, if_neg (show ¬(0x80 ≤ a ∧ a ≤ 0xDF) by omega), if_neg (show a ≠ 0x18 by omega)]
    simp only [readRun, needsSeq_low (show a < 0x20 by omega), Bool.false_and, Bool.false_eq_true, if_false, hread,
      Nat.mod_eq_of_lt (show a + 1 < 256 by omega), ih (a + 1) (by omega), Bool.or_self, List.range_succ_eq_map, List.map_cons,
      List.map_map, Nat.add_zero]
    have hnext : ∀ i, showByte .operator (a + 1 + i) s = showByte .operator (a + Nat.succ i) s := fun i => by
      rw [Nat.succ_eq_add_one, Nat.add_right_comm, Nat.add_assoc]
    simp only [hnext, Function.comp_def]

theorem writeRun_single (hn : needsSeq a = false) : writeRun [v] a s = (false, frontWrite .operator a v s) := by
  simp [writeRun, hn]

end Sys2Proof.Machine

namespace Sys2Proof

open Machine

/-- Settles O22: `spiRun` by whether the port is served and whether SEQ runs where bytes need it (`spiRun_dead`,
`spiRun_served`, `spiRun_waking`). -/
theorem spiTransactions : Obligations.SpiTransactions := by
  unfold Obligations.SpiTransactions
  intro s u q
  refine ⟨fun hd => ?_, fun h1 h2 h3 hu => ?_⟩
  · have hs := spiServed_dead hd
    have hne : (!spiServed s) = true := by simp [hs]
    exact ⟨fun d => next_congr (spiRun_dead hs), fun n => next_congr (spiRun_dead hs), fun a n => next_congr (spiRun_dead hs),
      fun a d => next_congr (spiRun_dead hs), fun n => next_congr (spiRun_dead hs), fun k => next_congr (if_pos hne)⟩
  have hs := spiServed_of h1 h2 h3
  have hne : ¬(!spiServed s) = true := by simp [hs]
  have hsel : u = spiSelect s := hu
  refine ⟨fun d hq => ?_, fun d hq => ?_, fun n hq => ?_, fun n hq => ?_, fun a n ha => ?_, fun a n ha hb hq => ?_, fun a v ha => ?_,
    fun a d ha hb hq => ?_, fun a n ha hq => ?_, fun a d ha hq => ?_, fun n => ?_, fun k hk => ?_, fun k hk => ?_⟩
  · exact next_congr (spiRun_served hs hsel (.inr hq))
  · exact next_congr (spiRun_waking hs hsel hq)
  · exact next_congr (spiRun_served hs hsel (.inr hq))
  · exact next_congr (spiRun_waking hs hsel hq)
  · refine next_congr ((spiRun_served hs hsel (.inl ?_)).trans ?_)
    all_goals rw [Nat.mod_eq_of_lt (show a < 256 by omega)]
    · exact needsSeq_low (by omega)
    · rw [readRun_status n a u ha]
      rfl
  · have hneed : needsSeq (a % 256) = true := needsSeq_mailbox (by omega) (by omega)
    refine next_congr ?_
    rw [hneed]
    exact spiRun_waking hs hsel hq
  · have hneed : needsSeq a = false := by
      rcases ha with ha | ha
      · exact needsSeq_low (by omega)
      · exact needsSeq_high ha.1
    refine next_congr ((spiRun_served hs hsel (.inl ?_)).trans ?_)
    all_goals rw [Nat.mod_eq_of_lt (show a < 256 by omega)]
    · exact hneed
    · rw [writeRun_single hneed]
      rfl
  · have hneed : needsSeq (a % 256) = true := needsSeq_mailbox (by omega) (by omega)
    refine next_congr ?_
    rw [hneed]
    exact spiRun_waking hs hsel hq
  · refine next_congr ((spiRun_served hs hsel ?_).trans ?_)
    all_goals rw [Nat.mod_eq_of_lt (show a < 256 by omega)]
    · exact hq
    · rfl
  · refine next_congr ((spiRun_served hs hsel ?_).trans ?_)
    all_goals rw [Nat.mod_eq_of_lt (show a < 256 by omega)]
    · exact hq
    · rfl
  · refine next_congr ((spiRun_served hs hsel (.inl rfl)).trans ?_)
    rfl
  · refine next_congr ?_
    rw [if_neg hne]
    exact (if_pos hk).trans (by rw [hsel])
  · refine next_congr ?_
    rw [if_neg hne]
    exact (if_neg hk).trans (by rw [hsel])

end Sys2Proof
end

section
/-! SUPPORT. The two-wire port (14 R391 to R404, 15 R417). -/

namespace Sys2Proof.Machine

variable {c : Chan} {x a n : Nat} {v : Byte} {s u : State} {r : TwRest} {m : Option Nat}

/-! ### Who is addressed -/

theorem twAddressed_none : twAddressed none x r s = twNotTaken s := rfl

theorem twAddressed_held (hh : s.tw.held ≠ none) : twAddressed (some c) x r s = s := by
  simp only [twAddressed, Option.isSome_iff_ne_none.2 hh, if_true]

theorem twAddressed_dead (hh : s.tw.held = none)
    (hd : s.supply.resetHeld ≠ none ∨ s.supply.iohOn = false ∨ (2 < s.power.state ∧ wakeEnabled s 1 0 = false)) :
    twAddressed (some c) x r s = twNotTaken s := by
  have hcond : (!windowAnswers s || (decide (2 < s.power.state) && !wakeEnabled s 1 0)) = true := by
    rcases hd with hd | hd | ⟨h1, h2⟩
    · rw [windowAnswers_of_dead (.inl hd)]
      rfl
    · rw [windowAnswers_of_dead (.inr hd)]
      rfl
    · simp [h1, h2]
  simp only [twAddressed, hh, Option.isSome_none, Bool.false_eq_true, if_false, hcond, if_true]

theorem twAddressed_asleep (hh : s.tw.held = none) (hw : windowAnswers s = true) (hp : 2 < s.power.state)
    (he : wakeEnabled s 1 0 = true) : twAddressed (some c) x r s = twStretched c x r [] [] (settle (fireWake 1 s)) := by
  simp only [twAddressed, hh, hw, hp, he, Option.isSome_none, Bool.not_true, Bool.and_false, Bool.or_self, Bool.false_eq_true, if_false,
    if_true]
  rfl

theorem twAddressed_awake (hh : s.tw.held = none) (hw : windowAnswers s = true) (hp : s.power.state ≤ 2)
    (hu : u = if wakeEnabled s 1 0 then settle (fireWake 1 s) else s) : twAddressed (some c) x r s = twServe c x r u := by
  have hp' : ¬2 < s.power.state := by omega
  simp only [twAddressed, hh, hw, hp', Option.isSome_none, Bool.not_true, decide_false, Bool.false_and, Bool.or_self,
    Bool.false_eq_true, if_false, ← hu]

/-! ### The channel's pointer -/

@[simp] theorem twPtr_setTwPtr (c : Chan) (p : Byte) (s : State) : twPtr (setTwPtr c p.toNat s) c = p.toNat := by
  cases c <;> exact Nat.mod_eq_of_lt p.isLt

@[simp] theorem setTwPtr_seq (c : Chan) (p : Nat) (s : State) : (setTwPtr c p s).seq = s.seq := by cases c <;> rfl
@[simp] theorem chan_setTwPtr (c d : Chan) (p : Nat) (s : State) : chan (setTwPtr c p s) d = chan s d := by
  cases c <;> cases d <;> rfl
@[simp] theorem cmdLevel_setTwPtr (c d : Chan) (p : Nat) (s : State) : cmdLevel (setTwPtr c p s) d = cmdLevel s d := by
  cases c <;> cases d <;> rfl

/-! ### The end of a write -/

theorem twWrite_served {as acks : List Bool} {d : List Byte} {t : State} (hp : twPuts c x d s = (as, none, t)) :
    twWrite c x d acks s = twDone [] (acks ++ as) t := by
  simp only [twWrite, hp]
  rfl

theorem twWrite_stretched {as acks : List Bool} {d l : List Byte} {t : State} (hp : twPuts c x d s = (as, some l, t)) :
    twWrite c x d acks s = twStretched c x (.put l) [] (acks ++ as) t := by
  simp only [twWrite, hp]
  rfl

theorem twPuts_single (hs : twStretch (twPtr s c) s = false) :
    twPuts c x [v] s = ([(twPut c x v s).1], none, (twPut c x v s).2) := by
  simp only [twPuts, hs, Bool.false_eq_true, if_false]
  split
  · next h => rw [h]
  · next h => rw [h]

theorem twPuts_stretch {l : List Byte} (hs : twStretch (twPtr s c) s = true) : twPuts c x (v :: l) s = ([], some (v :: l), s) := by
  simp only [twPuts, hs, if_true]

/-! ### One written byte -/

theorem twStretch_served (hn : needsSeq a = false ∨ s.seq.running = true ∨ s.seq.restarting = false) : twStretch a s = false := by
  rcases hn with hn | hn | hn <;> simp [twStretch, hn]

theorem twStretch_restarting (h1 : 0x20 ≤ a) (h2 : a ≤ 0xDF) (hr : s.seq.running = false) (hs : s.seq.restarting = true) :
    twStretch a s = true := by
  simp [twStretch, needsSeq_mailbox h1 h2, hr, hs]

/-- A byte for a register outside the mailboxes. -/
theorem twPut_register (ha : twPtr s c < 0x20 ∨ 0xE0 ≤ twPtr s c) :
    twPut c x v s = (true, setTwPtr c (twPtr s c + 1) (frontWrite c (twPtr s c) v s)) := by
  have hn : needsSeq (twPtr s c) = false := ha.elim needsSeq_low needsSeq_high
  have hm : ¬(twPtr s c ≤ 0x7F ∧ 0x20 ≤ twPtr s c ∧ ((chan s c).discard ∨ 2048 ≤ cmdLevel s c)) := by omega
  simp only [twPut, hn, Bool.false_and, Bool.false_eq_true, if_false, hm]

/-- A byte for the command mailbox, with room for it. -/
theorem twPut_command (h1 : 0x20 ≤ twPtr s c) (h2 : twPtr s c ≤ 0x7F) (hr : s.seq.running = true)
    (hd : (chan s c).discard = false) (hl : cmdLevel s c < 2048) :
    twPut c x v s = (true, setTwPtr c (twPtr s c + 1) (pushByte c v s)) := by
  have hl' : ¬2048 ≤ cmdLevel s c := by omega
  simp only [twPut, hr, Bool.not_true, Bool.and_false, Bool.false_eq_true, if_false, hd, hl', or_self, and_false,
    frontWrite_mailbox h1 h2, writeCmd, if_true]

/-- A byte for the command mailbox while bytes are dropped, or for which there is no room. -/
theorem twPut_full (h1 : 0x20 ≤ twPtr s c) (h2 : twPtr s c ≤ 0x7F) (hr : s.seq.running = true)
    (hf : (chan s c).discard = true ∨ 2048 ≤ cmdLevel s c) :
    twPut c x v s = (false, bump P.sysTwFullNacks (pushByte c v s)) := by
  simp only [twPut, hr, Bool.not_true, Bool.and_false, Bool.false_eq_true, if_false, h1, h2, hf, and_self, if_true]

/-- A byte that needs SEQ while SEQ does not run. -/
theorem twPut_unserved (h1 : 0x20 ≤ twPtr s c) (h2 : twPtr s c ≤ 0xDF) (hr : s.seq.running = false) :
    twPut c x v s = (false, twUnserved x 2 true s) := by
  simp only [twPut, needsSeq_mailbox h1 h2, hr, Bool.not_false, Bool.and_self, if_true]

/-- A write of one data byte after the pointer byte, where the device does not stretch it. -/
theorem twWrite_single {p v : Byte} {b : Bool} {t : State} (hs : twStretch p.toNat s = false)
    (hp : twPut c x v (setTwPtr c p.toNat s) = (b, t)) :
    twWrite c x [v] [true, true] (setTwPtr c p.toNat s) = twDone [] [true, true, b] t := by
  have hs' : twStretch (twPtr (setTwPtr c p.toNat s) c) (setTwPtr c p.toNat s) = false := by
    simpa only [twPtr_setTwPtr, twStretch, setTwPtr_seq] using hs
  have hput := twPuts_single (x := x) (v := v) hs'
  rw [hp] at hput
  exact twWrite_served hput

/-! ### One byte read -/

theorem twRead_single {b : Byte} {t : State} (hg : twGets c x none 1 0 false s = ([b], 0, t)) :
    twRead c x 1 0 none false [] s = twDone [b] [true] t := by
  simp only [twRead, hg]
  rfl

theorem twGets_served (hn : needsSeq (twPtr s c) = false ∨ s.seq.running = true) :
    twGets c x none 1 0 false s = ([(frontRead c (twPtr s c) s).1], 0, setTwPtr c (twPtr s c + 1) (frontRead c (twPtr s c) s).2) := by
  have hs : twStretch (twPtr s c) s = false := twStretch_served (hn.imp_right .inl)
  have hc : (needsSeq (twPtr s c) && !s.seq.running) = false := by
    rcases hn with hn | hn <;> simp [hn]
  simp only [twGets, hs, hc, Bool.and_false, Bool.or_self, Bool.false_eq_true, if_false, reduceCtorEq]

theorem twGets_unserved (h1 : 0x20 ≤ twPtr s c) (h2 : twPtr s c ≤ 0xDF) (hr : s.seq.running = false)
    (hs : s.seq.restarting = false) : twGets c x none 1 0 false s = ([0], 0, twUnserved x 2 true s) := by
  have hst : twStretch (twPtr s c) s = false := twStretch_served (.inr (.inr hs))
  simp only [twGets, hst, needsSeq_mailbox h1 h2, hr, Bool.and_false, Bool.false_eq_true, if_false, Bool.not_false, Bool.and_self,
    Bool.or_true, if_true]

theorem twRead_stretched (hs : twStretch (twPtr s c) s = true) :
    twRead c x (n + 1) 0 m false [] s = twStretched c x (.get (n + 1) 0 m) [] [true] s := by
  simp only [twRead, twGets, hs, Bool.not_false, Bool.and_self, if_true, twStretched]
  simp

theorem frontRead_register (h18 : a ≠ 0x18) (ha : a < 0x80 ∨ 0xDF < a) : frontRead c a s = (showByte c a s, s) := by
  have h : ¬(0x80 ≤ a ∧ a ≤ 0xDF) := by omega
  simp only [frontRead, h, h18, if_false]

theorem frontRead_latch : frontRead c 0x18 s = (showByte c 0x18 { s with front := { s.front with tbLatch := s.timebase } },
    { s with front := { s.front with tbLatch := s.timebase } }) := rfl

theorem frontRead_reply (h1 : 0x80 ≤ a) (h2 : a ≤ 0xDF) : frontRead c a s = readReply c s := if_pos ⟨h1, h2⟩

/-! ### The addresses -/

theorem twChannel_operator (rd : Bool) : twChannel s (0x48 + s.front.addrPins) rd = some .operator := if_pos rfl

theorem twChannel_custodian (rd : Bool) : twChannel s (0x50 + s.front.addrPins) rd = some .custodian :=
  (if_neg (by omega)).trans (if_pos rfl)

theorem twChannel_other (h1 : x ≠ 0x48 + s.front.addrPins) (h2 : x ≠ 0x50 + s.front.addrPins) (rd : Bool) :
    twChannel s x rd = if !rd && groupMatch s x then some .operator else none :=
  (if_neg h1).trans (if_neg h2)

/-! ### The two transfers -/

theorem exec_twWriteTransfer (d : List Byte) :
    exec (.twWriteTransfer x d) s = .next (twAddressed (twChannel s x false) x (.write d) s) := rfl

theorem exec_twReadTransfer :
    exec (.twReadTransfer x n m) s = .next (twAddressed (twChannel s x true) x (.read n m) s) := rfl

/-- What a transfer meets before its first byte: a transfer that is held, a device that does not answer, or sleep. -/
theorem twAddressed_before (r : TwRest) {out : Host.Outcome State Fault Refusal} (ho : out = .next (twAddressed (some c) x r s)) :
    (s.tw.held ≠ none → out = .next s) ∧
    (s.tw.held = none → s.supply.resetHeld ≠ none ∨ s.supply.iohOn = false ∨ (2 < s.power.state ∧ wakeEnabled s 1 0 = false) →
      out = .next (twNotTaken s)) ∧
    (s.tw.held = none → s.supply.resetHeld = none → s.supply.iohOn = true → 2 < s.power.state → wakeEnabled s 1 0 = true →
      out = .next (twStretched c x r [] [] (settle (fireWake 1 s)))) :=
  ⟨fun h => ho.trans (next_congr (twAddressed_held h)), fun h hd => ho.trans (next_congr (twAddressed_dead h hd)),
    fun h h1 h2 h3 h4 => ho.trans (next_congr (twAddressed_asleep h (windowAnswers_iff.2 ⟨h1, h2⟩) h3 h4))⟩

/-! ### The conditions of the port -/

/-- A match of the device, or a byte, that SEQ may leave unserved: the detail of the condition fits the power state. -/
theorem wakeDetail_fits {d : Nat} (hd : d = 1 ∧ 2 < s.power.state ∨ d = 2 ∧ s.power.state ≤ 2) :
    (d == 1 && decide (2 < s.power.state) || d == 2 && decide (s.power.state ≤ 2)) = true := by
  simpa only [Bool.or_eq_true, Bool.and_eq_true, beq_iff_eq, decide_eq_true_eq] using hd

theorem twIrregular_running {k : Nat} (hr : s.seq.running = true) :
    twIrregular k s = queueCounted (0x0011 * 65536) sec1 0x0011 k (bump P.sysTwProtoErr s) := if_pos (by simpa using hr)

theorem twIrregular_stopped {k : Nat} (hr : s.seq.running = false) : twIrregular k s = bump P.sysTwProtoErr s :=
  if_neg (by simp [hr])

/-- What the condition that SEQ served nothing within 2 ms does, where it applies. -/
theorem exec_twWakeNack {d : Nat} (hw : windowAnswers s = true) (hc : (twChannel s a false).isSome = true)
    (hr : s.seq.running = false) (hd : d = 1 ∧ 2 < s.power.state ∨ d = 2 ∧ s.power.state ≤ 2) :
    exec (.twWakeNack a d) s = .next (if s.tw.held.isSome then
      (if elapsed s (s.tw.heldAt + usTicks 2000) then twGivenUp s else s)
      else twUnserved a d true (onTw (fun t => { t with inTransfer := false }) s)) := by
  refine next_congr (if_neg ?_)
  simp only [hw, hr, wakeDetail_fits hd, ← Option.not_isSome, hc, Bool.not_true, Bool.or_self, Bool.false_eq_true, not_false_iff]

end Sys2Proof.Machine

namespace Sys2Proof

open Machine

/-- Settles O23: who is addressed (`twAddressed_awake` and its like), then the byte that the pointer names (`twPut_…`,
`twGets_…`). -/
theorem twoWireTransfers : Obligations.TwoWireTransfers := by
  unfold Obligations.TwoWireTransfers
  intro c x s u
  refine ⟨fun rd => ⟨twChannel_operator rd, twChannel_custodian rd⟩, fun h1 h2 => ⟨twChannel_other h1 h2 true, twChannel_other h1 h2 false⟩,
    fun d hc => ?_, fun n m hc => ?_, fun d hc => ?_, fun n m hc => ?_, fun hh h1 h2 hp hu => ⟨fun hc => ?_, fun hc => ?_⟩⟩
  · rw [exec_twWriteTransfer, hc, twAddressed_none]
  · rw [exec_twReadTransfer, hc, twAddressed_none]
  · exact twAddressed_before _ (by rw [exec_twWriteTransfer, hc])
  · exact twAddressed_before _ (by rw [exec_twReadTransfer, hc])
  · have hexec (d : List Byte) : exec (.twWriteTransfer x d) s = .next (twServe c x (.write d) u) := by
      rw [exec_twWriteTransfer, hc, twAddressed_awake hh (windowAnswers_iff.2 ⟨h1, h2⟩) hp hu]
    have hdata (p : Byte) (d : List Byte) :
        exec (.twWriteTransfer x (p :: d)) s = .next (twWrite c x d [true, true] (setTwPtr c p.toNat u)) := hexec (p :: d)
    refine ⟨hexec [], fun p => (hdata p []).trans (next_congr (twWrite_served rfl)), fun p v ha => ?_, fun p v ha hb hr hd hl => ?_,
      fun p v ha hb hr hf => ?_, fun p v ha hb hr hs => ?_, fun p v l ha hb hr hs => ?_, hdata⟩
    · have hput : twPut c x v (setTwPtr c p.toNat u) = _ := twPut_register (by rwa [twPtr_setTwPtr])
      rw [twPtr_setTwPtr] at hput
      exact (hdata p [v]).trans (next_congr (twWrite_single (twStretch_served (.inl (ha.elim needsSeq_low needsSeq_high))) hput))
    · have hput : twPut c x v (setTwPtr c p.toNat u) = _ := twPut_command (by rwa [twPtr_setTwPtr]) (by rwa [twPtr_setTwPtr])
        (by rwa [setTwPtr_seq]) (by rwa [chan_setTwPtr]) (by rwa [cmdLevel_setTwPtr])
      rw [twPtr_setTwPtr] at hput
      exact (hdata p [v]).trans (next_congr (twWrite_single (twStretch_served (.inr (.inl hr))) hput))
    · have hput : twPut c x v (setTwPtr c p.toNat u) = _ := twPut_full (by rwa [twPtr_setTwPtr]) (by rwa [twPtr_setTwPtr])
        (by rwa [setTwPtr_seq]) (by rwa [chan_setTwPtr, cmdLevel_setTwPtr])
      exact (hdata p [v]).trans (next_congr (twWrite_single (twStretch_served (.inr (.inl hr))) hput))
    · have hput : twPut c x v (setTwPtr c p.toNat u) = _ := twPut_unserved (by rwa [twPtr_setTwPtr]) (by rwa [twPtr_setTwPtr])
        (by rwa [setTwPtr_seq])
      exact (hdata p [v]).trans (next_congr (twWrite_single (twStretch_served (.inr (.inr hs))) hput))
    · have hst : twStretch (twPtr (setTwPtr c p.toNat u) c) (setTwPtr c p.toNat u) = true :=
        twStretch_restarting (by rwa [twPtr_setTwPtr]) (by rwa [twPtr_setTwPtr]) (by rwa [setTwPtr_seq]) (by rwa [setTwPtr_seq])
      exact (hdata p (v :: l)).trans (next_congr (twWrite_stretched (twPuts_stretch hst)))
  · have hexec (n : Nat) (m : Option Nat) : exec (.twReadTransfer x n m) s = .next (twRead c x n 0 m false [] u) := by
      rw [exec_twReadTransfer, hc, twAddressed_awake hh (windowAnswers_iff.2 ⟨h1, h2⟩) hp hu]
      rfl
    refine ⟨fun h18 ha => ?_, fun h18 => ?_, fun ha hb hr => ?_, fun hr hs ha hb => ?_, fun n m hr hs ha hb => ?_, hexec⟩
    · have hg := twGets_served (x := x) (c := c) (s := u) (.inl (ha.elim needsSeq_low fun h => needsSeq_high h.1))
      rw [frontRead_register h18 (by omega)] at hg
      exact (hexec 1 none).trans (next_congr (twRead_single hg))
    · intro v
      have hg := twGets_served (x := x) (c := c) (s := u) (.inl (needsSeq_low (by omega)))
      rw [h18, frontRead_latch] at hg
      exact (hexec 1 none).trans (next_congr (twRead_single hg))
    · have hg := twGets_served (x := x) (c := c) (s := u) (.inr hr)
      rw [frontRead_reply ha hb] at hg
      exact (hexec 1 none).trans (next_congr (twRead_single hg))
    · exact (hexec 1 none).trans (next_congr (twRead_single (twGets_unserved ha hb hr hs)))
    · exact (hexec (n + 1) m).trans (next_congr (twRead_stretched (twStretch_restarting ha hb hr hs)))

/-- Settles O24: each condition by whether the window answers and SEQ runs (`twIrregular_running`, `twIrregular_stopped`).
-/
theorem twoWireConditions : Obligations.TwoWireConditions := by
  unfold Obligations.TwoWireConditions
  intro s
  refine ⟨fun hd => ?_, fun o hh => next_congr (if_pos (Option.isSome_iff_ne_none.2 hh)), fun h1 h2 => ?_⟩
  · have hw : windowAnswers s = false := windowAnswers_of_dead hd
    refine ⟨fun o hh => next_congr ?_, fun k => next_congr (if_pos ?_), fun a d => next_congr (if_pos ?_),
      fun a => next_congr (if_pos ?_), fun b => next_congr (if_pos ?_)⟩
    · rw [hh, if_neg (by simp), if_pos (by simp [hw])]
    all_goals simp only [hw, Bool.not_false, Bool.true_or]
  · have hw : windowAnswers s = true := windowAnswers_iff.2 ⟨h1, h2⟩
    have hans (o : Byte) (hh : s.tw.held = none) : exec (.alertResponse o) s = .next (if !alertAsserted s then twNotTaken s
        else if alertByte s &&& o = alertByte s then
          bump P.sysTwAlertAnswers { s with tw := { s.tw with answered := true, sent := [alertByte s], acks := [true] } }
        else bump P.sysTwAlertLost { s with tw := { s.tw with sent := [alertByte s &&& o], acks := [true] } }) := by
      have hheld : ¬s.tw.held.isSome = true := by simp [hh]
      refine next_congr ((if_neg hheld).trans ?_)
      simp only [hw, Bool.not_true, Bool.false_or]
      rfl
    have herr (k : Nat) (hk1 : 1 ≤ k) (hk3 : k ≤ 3) : exec (.twProtoError k) s = .next
        (twIrregular k { s with tw := { s.tw with inTransfer := false, held := none } }) := by
      have hk0 : (k == 0) = false := beq_false_of_ne (by omega)
      have hk4 : ¬3 < k := by omega
      refine next_congr (if_neg ?_)
      simp only [hw, hk0, hk4, decide_false, Bool.not_true, Bool.or_self, Bool.false_eq_true, not_false_iff]
    refine ⟨fun o hh ha hb => ?_, fun o hh ha hb => ?_, fun o hh ha => ?_, fun k hk1 hk3 hr => ?_, fun k hk1 hk3 hr => ?_,
      fun a d hh hc hr hd => ?_, fun a d hh he hc hr hd => ?_, fun a hc he hp => ?_, fun b => ?_⟩
    · rw [hans o hh, ha, if_neg (by simp), if_pos hb]
    · rw [hans o hh, ha, if_neg (by simp), if_neg hb]
    · rw [hans o hh, ha, if_pos (by rfl)]
    · exact (herr k hk1 hk3).trans (next_congr (twIrregular_running hr))
    · exact (herr k hk1 hk3).trans (next_congr (twIrregular_stopped hr))
    · rw [exec_twWakeNack hw hc hr hd, hh, if_neg (by simp)]
      rfl
    · rw [exec_twWakeNack hw hc hr hd, if_pos (Option.isSome_iff_ne_none.2 hh), if_pos he]
    · refine next_congr ((if_neg ?_).trans (congrArg settle (if_pos hp)))
      have hp' : ¬s.power.state ≤ 2 := by omega
      simp only [hw, he, hp', ← Option.not_isSome, hc, decide_false, Bool.not_true, Bool.or_self, Bool.false_eq_true, not_false_iff]
    · refine next_congr (if_neg ?_)
      simp only [hw, Bool.not_true, Bool.false_eq_true, not_false_iff]

end Sys2Proof
end

section
/-! SUPPORT. Timeouts, held replies, the sequencer's watchdog and the alarm (02 R42 to R60, R526). -/

namespace Sys2Proof.Machine

variable {k : Channel} {c : Chan} {r : Running} {a : Alarm} {s : State} {tag : Nat}

/-! ### Held replies -/

theorem admitHeld_full (n : Nat) (hf : ∀ x xs, k.held = x :: xs → 4096 < replyLevel k + x.bytes.length) : admitHeld n k = k := by
  cases n with
  | zero => rfl
  | succ n =>
    cases hh : k.held with
    | nil => simp only [admitHeld, hh]
    | cons x xs =>
      have hx : ¬replyLevel k + x.bytes.length ≤ 4096 := by
        have := hf x xs hh
        omega
      simp only [admitHeld, hh, hx, if_false]

theorem admitHeld_cons (n : Nat) {x : Held} {xs : List Held} (hh : k.held = x :: xs) (hx : replyLevel k + x.bytes.length ≤ 4096) :
    admitHeld (n + 1) k = admitHeld n { k with
      replies := k.replies ++ [x.bytes], held := xs
      tags := match x.frees with | some t => k.tags &&& ~~~ tagBit t | none => k.tags } := by
  have hp : placeReply x.bytes x.frees { k with held := [] } = x.frees.elim { k with held := [], replies := k.replies ++ [x.bytes] }
      (freeTag { k with held := [], replies := k.replies ++ [x.bytes] }) := if_pos (decide_eq_true hx)
  simp only [admitHeld, hh, hx, if_true, hp]
  cases x.frees <;> rfl

/-! ### Timeouts and holds of a command -/

theorem exec_cmdTimeout_none (hn : s.running.find? (fun q => q.hdr.ch == c && q.hdr.tag == tag) = none) :
    exec (.cmdTimeout c tag) s = .next (settle s) := by
  refine next_congr ?_
  rw [hn]

theorem exec_replyDelayEnd_none (hn : s.running.find? (fun q => q.hdr.ch == c && q.hdr.tag == tag) = none) :
    exec (.replyDelayEnd c tag) s = .next (settle s) := by
  refine next_congr ?_
  rw [hn]

/-- A timeout pauses while its command stalls on a wake. -/
theorem exec_cmdTimeout_stalled {d : Nat} (hf : s.running.find? (fun q => q.hdr.ch == c && q.hdr.tag == tag) = some r)
    (hw : r.wait = .domainWake d) : exec (.cmdTimeout c tag) s = .next (settle s) := by
  refine next_congr ?_
  rw [hf]
  simp only [hw]

theorem exec_cmdTimeout_ends (hf : s.running.find? (fun q => q.hdr.ch == c && q.hdr.tag == tag) = some r)
    (hw : ∀ d, r.wait ≠ .domainWake d) : exec (.cmdTimeout c tag) s = .next (settle (queueEvent 0x0006 (cmdArg r.hdr r.op) r.cls
      (bump (timeoutCounter r.cls) (endCmd .timeout [] r s)))) := by
  refine next_congr ?_
  rw [hf]
  dsimp only
  cases hr : r.wait with
  | domainWake d => exact absurd hr (hw d)
  | _ => rfl

theorem exec_replyDelayEnd_start (hf : s.running.find? (fun q => q.hdr.ch == c && q.hdr.tag == tag) = some r)
    (hw : r.wait = .delayStart) :
    exec (.replyDelayEnd c tag) s = .next (settle (runCmd (progOf r.cmd) r (paramsOf r.cmd) (stopRunning r s))) := by
  refine next_congr ?_
  rw [hf]
  simp only [hw]

theorem exec_replyDelayEnd_reply (hf : s.running.find? (fun q => q.hdr.ch == c && q.hdr.tag == tag) = some r)
    (hw : r.wait = .replyDelay) :
    exec (.replyDelayEnd c tag) s = .next (settle (complete (progOf r.cmd) r (stopRunning r s))) := by
  refine next_congr ?_
  rw [hf]
  simp only [hw]

/-! ### The sequencer's watchdog -/

theorem exec_seqWatchdogExpiry (hr : s.seq.running = true) : exec .seqWatchdogExpiry s = .next (
    let recent := s.seq.expiries.filter (fun t => now s < t + 1228800000) ++ [now s]
    if 3 ≤ recent.length then
      let t := enterReset 4 (bump P.sysSeqRestarts s)
      { t with supply := { t.supply with wdogCause := 2 } }
    else seqRestarts { bump P.sysSeqRestarts s with seq := { s.seq with expiries := recent } }) := by
  refine next_congr ((if_neg (by simp [hr])).trans ?_)
  simp only [bump_seq, now, bump_timebase]
  rfl

/-- A channel is emptied at a restart of SEQ, and then holds the replies `l`. -/
def emptyChan (c : Chan) (l : List Held) (s : State) : State :=
  onChan c (fun k => { k with asm := [], discard := false, replies := [], partly := false, held := l }) s

/-- What a restart of SEQ does once both channels are emptied: the commands are undone and the perturbations `ns` disarmed. -/
def restartRest (ns : List Nat) (s : State) : State :=
  let s := each s.running (fun r s => undone (progOf r.cmd) r s) { s with running := [], waiting := [] }
  let s := each ns (disarm 3) { s with prot := { s.prot with proposal := none } }
  { s with seq := { s.seq with running := false, waking := true, restarting := true, softBytes := 0 } }

theorem seqRestarts_eq : seqRestarts s = restartRest [1, 2, 3, 4, 5, 6, 7, 8, 9]
    (emptyChan .custodian (abortedReplies .custodian s) (emptyChan .operator (abortedReplies .operator s) s)) := by
  have hl : (List.range 9).map (· + 1) = [1, 2, 3, 4, 5, 6, 7, 8, 9] := rfl
  have hop (l : List Held) : abortedReplies .custodian (emptyChan .operator l s) = abortedReplies .custodian s := rfl
  rw [← hop (abortedReplies .operator s), ← hl]
  simp only [seqRestarts, restartRest, emptyChan]

theorem each_nil {β : Type} (f : β → State → State) : each [] f s = s := rfl

theorem each_cons {β : Type} (x : β) (l : List β) (f : β → State → State) : each (x :: l) f s = each l f (f x s) := rfl

theorem disarm_none_armed (n cause : Nat) (ha : s.rattle.armed = []) : disarm cause n s = s := by
  simp only [disarm, ha, smFind]

theorem each_disarm_none_armed (ns : List Nat) (cause : Nat) (ha : s.rattle.armed = []) : each ns (disarm cause) s = s := by
  induction ns with
  | nil => rfl
  | cons n ns ih =>
    rw [each_cons, disarm_none_armed n cause ha, ih]

theorem restartRest_idle (ns : List Nat) (hr : s.running = []) (ha : s.rattle.armed = []) : restartRest ns s =
    { s with
      waiting := [], prot := { s.prot with proposal := none }
      seq := { s.seq with running := false, waking := true, restarting := true, softBytes := 0 } } := by
  simp only [restartRest, hr, each_nil, each_disarm_none_armed, ha]

theorem abortedReplies_idle (c : Chan) (hr : s.running = []) :
    abortedReplies c s = (chan s c).held.filterMap (fun x => x.frees.map (abortedReply (fldAt x.bytes 0 1))) := by
  simp only [abortedReplies, hr, List.filter_nil, List.map_nil, List.nil_append]

/-- A restart of SEQ with no command in flight and nothing armed empties both channels and drops the proposal. -/
theorem seqRestarts_idle (hr : s.running = []) (ha : s.rattle.armed = []) : seqRestarts s =
    { s with
      op := { s.op with
        asm := [], discard := false, replies := [], partly := false
        held := s.op.held.filterMap (fun x => x.frees.map (abortedReply (fldAt x.bytes 0 1))) }
      cu := { s.cu with
        asm := [], discard := false, replies := [], partly := false
        held := s.cu.held.filterMap (fun x => x.frees.map (abortedReply (fldAt x.bytes 0 1))) }
      waiting := [], prot := { s.prot with proposal := none }
      seq := { s.seq with running := false, waking := true, restarting := true, softBytes := 0 } } := by
  rw [seqRestarts_eq, restartRest_idle (s := emptyChan .custodian _ (emptyChan .operator _ s)) _ hr ha, abortedReplies_idle .operator hr, abortedReplies_idle .custodian hr]
  rfl

end Sys2Proof.Machine

namespace Sys2Proof

open Machine

/-- Settles O25: the command that the tag names decides (`exec_cmdTimeout_ends`), and the reply held first
(`admitHeld_cons`). -/
theorem protocolInstants : Obligations.ProtocolInstants := by
  unfold Obligations.ProtocolInstants
  intro c s
  refine ⟨fun ha => next_congr ?_, fun ha => next_congr ?_, rfl, fun hf => next_congr ?_, fun x xs hh hx hy => next_congr ?_,
    fun t r hf hw => exec_cmdTimeout_ends hf hw, fun t hn => ⟨exec_cmdTimeout_none hn, exec_replyDelayEnd_none hn⟩,
    fun t r d hf hw => exec_cmdTimeout_stalled hf hw, fun t r hf hw => exec_replyDelayEnd_start hf hw,
    fun t r hf hw => exec_replyDelayEnd_reply hf hw⟩
  · rw [if_neg (by simpa using ha)]
    cases c <;> rfl
  · rw [ha]
    rfl
  · exact congrArg settle (onChan_eq_self (admitHeld_full _ hf))
  · refine congrArg settle (onChan_congr ?_)
    rw [hh]
    refine (admitHeld_cons xs.length hh hx).trans (admitHeld_full _ ?_)
    intro y ys hys
    have := hy y ys hys
    simpa [replyLevel, Nat.add_assoc] using this

/-- Settles O26: a restart undoes each command and perturbation in turn; with none it leaves the channels empty
(`seqRestarts_idle`). -/
theorem sequencerInstants : Obligations.SequencerInstants := by
  unfold Obligations.SequencerInstants
  intro s
  have hsplit (n : Nat) (l : List Nat) : (l ++ [n]).length = l.length + 1 := List.length_append
  refine ⟨fun hr hl => ?_, fun hr => next_congr (if_pos (by rw [hr]; rfl)), seqRestarts_eq.trans ?_, fun hr ha => seqRestarts_idle hr ha,
    fun hr hl => ?_, fun hr => ?_, fun hr => next_congr (if_pos (by rw [hr]; rfl)), fun x hx => next_congr (if_pos (by rw [hx]; rfl)),
    fun hx => next_congr (if_neg (by simp [hx])), fun a ha ht h0 hb hp => ?_, fun a ha h1 hp hd => ?_, fun hp hd => ?_⟩
  · refine (exec_seqWatchdogExpiry hr).trans (next_congr (if_neg ?_))
    rw [hsplit]
    omega
  · simp only [restartRest, emptyChan, onChan]
  · refine ⟨_, (exec_seqWatchdogExpiry hr).trans (next_congr (if_pos ?_)), rfl, enterReset_seq 4 _, fun hh => ⟨?_, ?_, ?_⟩⟩
    · rw [hsplit]
      omega
    · exact enterReset_cause 4 _ (by simpa using hh)
    · exact enterReset_held 4 _ (by simpa using hh)
    · exact (enterReset_time 4 _ (by simpa using hh)).trans (bump_timebase _ _)
  · exact next_congr (if_neg (by simp [hr]))
  · have hdue : alarmDue s = true := by
      simp [alarmDue, hb, ha, ht]
    refine next_congr ((if_pos hdue).trans (congrArg settle ?_))
    simp only [fireAlarm, ha, h0, zero_ne_one, false_and, if_false]
  · have hdue : alarmDue s = true := by
      rcases hd with hd | hd
      · simp [alarmDue, hd, hp]
      · cases hb : s.clk.bridging <;> simp [alarmDue, hb, ha, hd, hp]
    refine next_congr ((if_pos hdue).trans (congrArg settle ?_))
    simp only [fireAlarm, ha, h1, hp, and_self, if_true]
  · have hdue : ¬alarmDue s = true := by
      have hp' : ¬2 < s.power.state := by omega
      rcases hd with hd | hd | ⟨a, ha, ht⟩
      · simp [alarmDue, hp', hd]
      · simp [alarmDue, hp', hd]
      · simp [alarmDue, hp', ha, ht]
    exact next_congr (if_neg hdue)

end Sys2Proof
end

section
/-! SUPPORT. What the resets leave, the reset release and the boot (15 R421, R422, 19 R479 to R490). -/

namespace Sys2Proof.Machine

variable {k : Nat} {s : State}

/-! ### What entering a reset leaves -/

theorem enterReset_alarm (hh : s.supply.resetHeld = none) :
    (enterReset k s).alarm = if resetsCkg k then none else (survive (lifeOf k) s).alarm := by
  unfold enterReset
  dsimp only
  rw [bumped State.alarm (by simp), hh]
  rfl

theorem enterReset_tw : (enterReset k s).tw = Tw.reset := by
  unfold enterReset
  dsimp only
  rw [bumped State.tw (by simp)]

theorem enterReset_power (hh : s.supply.resetHeld = none) :
    (enterReset k s).power = { Power.reset with on := if resetsCkg k then 1 else 0x805 } := by
  unfold enterReset
  dsimp only
  rw [bumped State.power (by simp), hh]
  rfl

theorem enterReset_front (hh : s.supply.resetHeld = none) :
    (enterReset k s).front = { resetFront k s.front with resetCause := if resetsCkg k then 0 else k } := by
  unfold enterReset
  dsimp only
  rw [bumped State.front (by simp), hh, Option.elim_none, (survive_keeps _ s).1]

theorem enterReset_supply (hh : s.supply.resetHeld = none) : (enterReset k s).supply = { s.supply with
    rfArmed := s.supply.rfArmed && decide (1 < k), brown := s.supply.brown && decide (1 < k), deferral := false
    resetHeld := if resetsCkg k then some k else none, booting := true } := by
  unfold enterReset
  dsimp only
  rw [bumped State.supply (by simp), hh, Option.elim_none, (survive_keeps _ s).2.1]

theorem enterReset_clk (hh : s.supply.resetHeld = none) : (enterReset k s).clk = resetClocks k (survive (lifeOf k) s).clk := by
  unfold enterReset
  dsimp only
  rw [bumped State.clk (by simp), hh]
  rfl

/-- A PIN reset keeps the low-frequency source. -/
theorem enterReset_pin_lf (hh : s.supply.resetHeld = none) : (enterReset 2 s).clk.lfCrystal = s.clk.lfCrystal := by
  rw [enterReset_clk hh]
  exact (survive_keeps _ s).2.2.2

/-! ### Boot -/

/-- What a boot does with its plan: `READY` rises where the plan has no knob left to raise. -/
def bootPlanned (u : State) : State :=
  match u.age.plan with
  | some p => if biasNow u = p.biasTo ∧ vselNow u = p.vselTo then settle (riseReady (endPlan p u)) else u
  | none => u

theorem bootPlanned_ready {p : Plan} {u : State} (hu : u.age.plan = some p) (hb : biasNow u = p.biasTo) (hv : vselNow u = p.vselTo) :
    bootPlanned u = settle (riseReady (endPlan p u)) := by
  simp only [bootPlanned, hu, hb, hv, and_self, if_true]

/-- Once its conditions hold a boot reads the OTP, and then ends in a failed ROM check or a reserved boot mode, or goes on to its
plan. -/
theorem exec_bootReady {ok : Bool} {l : List TopRead} (hh : s.supply.resetHeld = none) (hb : s.supply.booting = true)
    (hp : s.clk.pllLocked = true) (hr : s.front.romFail = false) (ha : s.age.plan = none) : exec (.bootReady ok l) s = .next (
      let t := { (draw s).2 with front := { s.front with otpValid := Config.otpCheckOk s.free, romFail := !ok } }
      if !ok || decide (2 ≤ s.front.bootMode) then t
      else bootPlanned (startPlan 1 (bootCount l t))) := by
  refine next_congr (if_neg ?_)
  rw [hb, hh, hp, hr, ha]
  decide

end Sys2Proof.Machine

namespace Sys2Proof

open Machine

/-- Settles O27: what the entry to a reset leaves of each part (`enterReset_…`), and the boot by its plan
(`bootPlanned_ready`). -/
theorem resetKinds : Obligations.ResetKinds := by
  unfold Obligations.ResetKinds
  intro s hh
  refine ⟨⟨_, rfl, enterReset_held 2 s hh, enterReset_time 2 s hh, enterReset_alarm hh, enterReset_seq 2 s, enterReset_tw, ?_, ?_, ?_,
    enterReset_pin_lf hh⟩, fun r hr => ⟨enterReset 1 s, next_congr ?_, enterReset_held 1 s hh, enterReset_time 1 s hh,
    enterReset_alarm hh, ?_, ?_, ?_, ?_, ?_⟩, fun r hr => next_congr (if_pos ?_), ⟨enterReset 0 s, rfl, enterReset_held 0 s hh,
    enterReset_time 0 s hh, enterReset_alarm hh, ?_, ?_⟩, fun o ho => next_congr (if_neg ho), fun k b a => rfl, fun k b a => rfl,
    fun b a => next_congr (by rw [hh]), fun ok l hd => next_congr (if_pos ?_), fun l hb hp hr ha hm => ?_, fun l hb hp hr ha => ?_,
    fun l p hb hp hr ha hm => ?_⟩
  · rw [enterReset_power hh]
    rfl
  · rw [enterReset_front hh]
    rfl
  · rw [enterReset_front hh]
    rfl
  · have hrail : ¬(r = 0 ∨ 3 < r ∨ (r = 2 ∧ (!s.supply.rfArmed) = true)) := by
      rcases hr with rfl | rfl | ⟨rfl, ha⟩
      · simp
      · simp
      · simp [ha]
    rw [if_neg hrail, hh, if_neg (by simp)]
  · rw [enterReset_front hh]
    rfl
  · rw [enterReset_front hh]
    rfl
  · rw [enterReset_supply hh]
    exact Bool.and_false _
  · rw [enterReset_supply hh]
    exact Bool.and_false _
  · rw [enterReset_power hh]
    rfl
  · simpa using hr
  · rw [enterReset_front hh]
    rfl
  · rw [enterReset_power hh]
    rfl
  · rcases hd with hd | hd | hd <;> simp [hd]
  · refine ⟨_, (exec_bootReady hh hb hp hr ha).trans (next_congr (if_pos ?_)), rfl, rfl⟩
    simp [hm]
  · exact ⟨_, exec_bootReady hh hb hp hr ha, rfl, rfl⟩
  · intro u hu hbias hvsel
    have hmode : ¬(!true || decide (2 ≤ s.front.bootMode)) = true := by
      have : ¬2 ≤ s.front.bootMode := by omega
      simp [this]
    exact (exec_bootReady hh hb hp hr ha).trans (next_congr ((if_neg hmode).trans (bootPlanned_ready hu hbias hvsel)))

end Sys2Proof
end

section
/-! SUPPORT. Detections of a lane (07 R196 to R203). -/

namespace Sys2Proof.Machine

variable {n k start i : Nat} {a b : Window} {t : Tracker} {x : Bool} {s : State}

/-! ### Where a detector does not fire -/

theorem exec_preambleDetected_none (hn : preambleFires (link s n).range a b = none) :
    exec (.preambleDetected n k start a b) s = .next s := by
  refine next_congr ?_
  rw [hn]

theorem exec_preambleDetected_some {df tau : Rat} (hf : preambleFires (link s n).range a b = some (df, tau)) :
    exec (.preambleDetected n k start a b) s = .next (
      if !laneRuns s n || decide (1 < k) || !preambleLevel (max a.power b.power) then s
      else detected n k (preambleTaken (link s n) k start) (newCandidate .pre start df tau (max a.power b.power)) s) := by
  refine next_congr ?_
  rw [hf]

theorem exec_preambleDetected_idle
    (hd : (!laneRuns s n || decide (1 < k) || !preambleLevel (max a.power b.power)) = true) :
    exec (.preambleDetected n k start a b) s = .next s := by
  cases hf : preambleFires (link s n).range a b with
  | none => exact exec_preambleDetected_none hf
  | some d => exact (exec_preambleDetected_some hf).trans (next_congr (if_pos hd))

theorem exec_syncWordDetected_idle (hd : (!laneRuns s n || decide (1 < k) || !syncFires (link s n).range i a b) = true) :
    exec (.syncWordDetected n k start i (a, b)) s = .next s := next_congr (if_pos hd)

theorem laneIdle (hd : laneRuns s n = false ∨ 1 < k) : (!laneRuns s n || decide (1 < k)) = true := by
  rcases hd with hd | hd <;> simp [hd]

/-! ### A candidate -/

theorem detected_excluded (he : (x || barred (period s) (link s n) t.start t.df) = true) : detected n k x t s = s := if_pos he

theorem onTrk_congr {f g : Tracker → Tracker} {l : Link} (hf : f (trk l k) = g (trk l k)) : onTrk k f l = onTrk k g l := by
  unfold onTrk
  split
  · next hk => rw [hk] at hf; exact congrArg (fun x => { l with t0 := x }) hf
  · next hk => rw [trk, if_neg hk] at hf; rw [hf]

theorem onLink_congr {f g : Link → Link} (hf : f (link s n) = g (link s n)) : onLink n f s = onLink n g s := by
  simp only [onLink, hf]

theorem takeCandidate_trk (f : Tracker → Tracker) : takeCandidate n k (f (trk (link s n) k)) s = onLink n (onTrk k f) s :=
  onLink_congr (onTrk_congr rfl)

/-- What a detection that nothing excludes does in each phase of the tracker. -/
theorem detected_search (hb : barred (period s) (link s n) t.start t.df = false) (hp : (trk (link s n) k).phase = .search) :
    detected n k false t s = onLink n (onTrk k (fun _ => t)) s := by
  simp only [detected, hb, hp, Bool.or_self, Bool.false_eq_true, if_false, takeCandidate]

theorem detected_watch (hb : barred (period s) (link s n) t.start t.df = false) (hp : (trk (link s n) k).phase = .watch) :
    detected n k false t s = tryCapture n k t s := by
  simp only [detected, hb, hp, Bool.or_self, Bool.false_eq_true, if_false]

theorem detected_busy (hb : barred (period s) (link s n) t.start t.df = false) (h1 : (trk (link s n) k).phase ≠ .search)
    (h2 : (trk (link s n) k).phase ≠ .watch) : detected n k false t s = s := by
  cases hp : (trk (link s n) k).phase with
  | search => exact absurd hp h1
  | watch => exact absurd hp h2
  | _ => simp only [detected, hb, hp, Bool.or_self, Bool.false_eq_true, if_false]

end Sys2Proof.Machine

namespace Sys2Proof

open Machine

/-- Settles O35: a detector that does not fire ends the row; a candidate meets its tracker by phase (`detected_search`,
`detected_watch`, `detected_busy`). -/
theorem linkDetections : Obligations.LinkDetections := by
  unfold Obligations.LinkDetections
  intro n k start a b s
  refine ⟨fun hd => ⟨exec_preambleDetected_idle ?_, fun i => exec_syncWordDetected_idle ?_⟩, fun hd => ?_,
    fun i hi => exec_syncWordDetected_idle ?_, fun hr hk => ⟨fun df tau hf hl => ?_, fun i hi => ⟨fun hp => ?_, fun hp => ?_⟩,
      fun t hb => ⟨detected_search hb, fun hp hc h8 => ?_, fun hp hc h8 => ?_, fun hp hc => ?_, detected_busy hb⟩,
      fun t => ⟨detected_excluded rfl, fun hb x => detected_excluded ?_⟩, fun hp ht => next_congr (if_neg ?_)⟩,
    fun hd => next_congr (if_pos hd)⟩
  · rw [laneIdle hd]
    rfl
  · rw [laneIdle hd]
    rfl
  · rcases hd with hd | hd
    · exact exec_preambleDetected_none hd
    · exact exec_preambleDetected_idle (by rw [hd, Bool.not_false, Bool.or_true])
  · rw [hi, Bool.not_false, Bool.or_true]
  · have hk' : ¬1 < k := by omega
    intro t
    exact (exec_preambleDetected_some hf).trans (next_congr (if_neg (by simp [hr, hk', hl])))
  · have hk' : ¬1 < k := by omega
    intro t
    exact next_congr ((if_neg (by simp [hr, hk', hi])).trans (if_neg hp))
  · have hk' : ¬1 < k := by omega
    refine next_congr ((if_neg (by simp [hr, hk', hi])).trans ((if_pos hp).trans ?_))
    exact ite_congr rfl (fun _ => takeCandidate_trk
      (fun t => { t with phase := .verify, start := start, level := max a.power b.power })) (fun _ => rfl)
  · rw [detected_watch hb hp]
    exact (if_neg (by simp [hc])).trans (if_neg h8)
  · rw [detected_watch hb hp]
    exact (if_neg (by simp [hc])).trans (if_pos h8)
  · rw [detected_watch hb hp]
    exact if_pos (by simp [hc])
  · rw [hb, Bool.or_true]
  · rintro (h | h | h)
    · omega
    · exact h hp
    · exact absurd h (Nat.not_lt.2 ht)

end Sys2Proof
end

section
/-! SUPPORT. Frames, losses and bars of a lane (06 R178, 07 R193, R198 to R211). -/

namespace Sys2Proof.Machine

variable {n k : Nat} {f : RxFrame} {s t : State} {v w : Verdict} {q : LaneFrame} {x : Option UpFrame} {u : UpFrame} {c : Bool × State}
  {l : Link}

/-! ### A candidate's frame -/

/-- What a candidate's frame leads to, from its equalised form `q`, what was parsed from it and the verdict of its CRC. -/
def verifyOutcome (n k : Nat) (f : RxFrame) (q : LaneFrame) (x : Option UpFrame) (c : Bool × State) : State :=
  let (ok, s) := c
  match x with
  | some u => if ok then passed n (verdictOf s n k f q u) (measureFrame n f q s) else settleTie n (falseStart n k s)
  | none => settleTie n (falseStart n k s)

theorem verifyFrame_eq : verifyFrame n k f s = (
    let q := demodulate s n (trk (link s n) k).training true f
    let x := uplinkParse (link s n).range (frameBits (link s n).range q.syms)
    verifyOutcome n k f q x (crcVerdict n x.isSome s)) := by
  delta verifyFrame verifyOutcome
  exact rfl

theorem verifyOutcome_falseStart (hd : x = none ∨ c.1 = false) :
    verifyOutcome n k f q x c = settleTie n (bump (P.linkFalseStarts n) (giveUp n k c.2)) := by
  cases x with
  | none => rfl
  | some u => exact if_neg (by simpa using hd)

theorem verifyOutcome_passes (hc : c.1 = true) :
    verifyOutcome n k f q (some u) c = passed n (verdictOf c.2 n k f q u) (measureFrame n f q c.2) := if_pos hc

/-! ### The ACTIVE tracker's frame -/

/-- What the ACTIVE tracker's frame of the link `l` leads to once it is decoded, where nothing abandons it. -/
def activeOutcome (n k : Nat) (f : RxFrame) (l : Link) (q : LaneFrame) (x : Option UpFrame) (c : Bool × State) : State :=
  let (ok, s) := c
  let b := dueOf l f.start
  match x with
  | some u =>
    let v := verdictOf s n k f q u
    if !ok then loseFrame n k q b (bump (P.linkFramesCrcFail n) s)
    else if u.airId ≠ l.air then loseFrame n k q b (intrusion n v s)
    else hopDone n (deliverFrame n v l.hopping.isNone (follow n v s))
  | none => loseFrame n k q b (bump (P.linkFramesCrcFail n) s)

theorem activeFrame_eq : activeFrame n k f s = (
    let l := link s n
    let t := trk l k
    if l.hopping.any (fun h => decide (nearPeriod f.start < h.period)) then lateFrame n k f s
    else if syncWindow l * symTicks < Machine.dist f.start t.start then s
    else if capturing l then abandonFrame n k s
    else
      let q := demodulate s n t.training (firstAfterHop l f.start) f
      let x := uplinkParse l.range (frameBits l.range q.syms)
      let m := measureFrame n f q
        (if decide (1 < |f.syncErr|) || q.aerial != l.aerial || l.hopping.isSome then bump (P.linkRunaheadUndos n) s else s)
      activeOutcome n k f l q x (crcVerdict n x.isSome m)) := by
  delta activeFrame activeOutcome
  exact rfl

theorem activeOutcome_fails (hd : x = none ∨ c.1 = false) : activeOutcome n k f l q x c =
    loseFrame n k q (dueOf l f.start) (bump (P.linkFramesCrcFail n) c.2) := by
  cases x with
  | none => rfl
  | some u => exact if_pos (by simpa using hd)

theorem activeOutcome_foreign (hc : c.1 = true) (hu : u.airId ≠ l.air) : activeOutcome n k f l q (some u) c =
    loseFrame n k q (dueOf l f.start) (intrusion n (verdictOf c.2 n k f q u) c.2) :=
  (if_neg (by simp [hc])).trans (if_pos hu)

theorem activeOutcome_delivers (hc : c.1 = true) (hu : u.airId = l.air) : activeOutcome n k f l q (some u) c =
    hopDone n (deliverFrame n (verdictOf c.2 n k f q u) l.hopping.isNone (follow n (verdictOf c.2 n k f q u) c.2)) :=
  (if_neg (by simp [hc])).trans (if_neg (not_not.2 hu))

theorem undoes_iff {e : Int} : (decide (1 < |e|) || q.aerial != l.aerial || l.hopping.isSome) = true ↔
    1 < |e| ∨ q.aerial ≠ l.aerial ∨ l.hopping ≠ none := by
  simp only [Bool.or_eq_true, decide_eq_true_eq, bne_iff_ne, Option.isSome_iff_ne_none, or_assoc]

/-! ### A frame that comes in -/

theorem fillBuffers_tracker : (fillBuffers n f t).2.tracker = f.tracker := rfl

/-- A frame of a lane that works: a verdict of the same tracker that still waits takes effect first. -/
theorem exec_uplinkFrame (hr : laneRuns s n = true) (hk : f.tracker ≤ 1)
    (ht : (if (link s n).tie.any (fun v => v.trk == f.tracker) then settleTie n s else s) = t) :
    ((trk (link t n) f.tracker).phase = .verify → exec (.uplinkFrame n f) s = .next
      (verifyFrame n f.tracker (fillBuffers n f t).2 (fillBuffers n f t).1)) ∧
    ((trk (link t n) f.tracker).phase = .active → exec (.uplinkFrame n f) s = .next
      (activeFrame n f.tracker (fillBuffers n f t).2 (fillBuffers n f t).1)) ∧
    ((trk (link t n) f.tracker).phase ≠ .verify → (trk (link t n) f.tracker).phase ≠ .active →
      exec (.uplinkFrame n f) s = .next t) := by
  have hk' : ¬1 < f.tracker := by omega
  have hgo : ¬(!laneRuns s n || decide (1 < f.tracker)) = true := by simp [hr, hk']
  refine ⟨fun hp => next_congr ((if_neg hgo).trans ?_), fun hp => next_congr ((if_neg hgo).trans ?_),
    fun h1 h2 => next_congr ((if_neg hgo).trans ?_)⟩
  · simp only [ht, fillBuffers_tracker, hp]
  · simp only [ht, fillBuffers_tracker, hp]
  · rw [ht]
    simp only [fillBuffers_tracker]

/-! ### Verdicts of both trackers -/

theorem passed_waits (ht : (link s n).tie = none) (h1 : (trk (link s n) (1 - v.trk)).phase = .verify)
    (h2 : nearPeriod (trk (link s n) (1 - v.trk)).start = nearPeriod v.start) :
    passed n v s = onLink n (fun l => { l with tie := some v }) s := by
  simp only [passed, ht, h1, h2, beq_self_eq_true, Bool.and_self, if_true]

theorem passed_alone (ht : (link s n).tie = none) (hd : (trk (link s n) (1 - v.trk)).phase ≠ .verify ∨
    nearPeriod (trk (link s n) (1 - v.trk)).start ≠ nearPeriod v.start) : passed n v s = settleVerdict n v s := by
  simp only [passed, ht]
  exact if_neg (by simpa [← or_iff_not_imp_left, imp_iff_not_or] using hd)

theorem passed_both (ht : (link s n).tie = some w) :
    passed n v s = settleBoth n v w (onLink n (fun l => { l with tie := none }) s) := by
  simp only [passed, ht]

theorem settleBoth_first (hv : v.airId = (link s n).air) (hl : frameLevel w < frameLevel v) :
    settleBoth n v w s = verified n v s := by
  simp only [settleBoth, hv, hl, beq_self_eq_true, decide_true, Bool.true_or, Bool.and_self, if_true]

theorem settleBoth_second (hw : w.airId = (link s n).air) (hl : frameLevel v < frameLevel w) :
    settleBoth n v w s = verified n w s := by
  have hlt : ¬frameLevel w < frameLevel v := by omega
  have hne : (frameLevel v == frameLevel w) = false := beq_false_of_ne (by omega)
  simp only [settleBoth, hw, hlt, hne, beq_self_eq_true, decide_false, Bool.false_and, Bool.or_self, Bool.not_true, Bool.and_false,
    Bool.false_eq_true, if_false, if_true]

/-! ### The window of the ACTIVE tracker, and a silent lane -/

theorem exec_syncWindowClose_none (ha : activeTrk (link s n) = none) : exec (.syncWindowClose n) s = .next s := by
  refine next_congr ?_
  simp only [ha]

theorem windowPast {b : Nat} (hr : laneRuns s n = true) (hs : b ≤ now s) :
    ¬(!laneRuns s n || decide (now s < b)) = true := by
  simpa [hr] using hs

theorem exec_syncWindowClose (ha : activeTrk (link s n) = some k) : exec (.syncWindowClose n) s = .next (
    if !laneRuns s n || decide (now s < (trk (link s n) k).start + syncWindow (link s n) * symTicks) then s
    else if capturing (link s n) then abandonFrame n k s
    else declareLoss n (dueOf (link s n) (trk (link s n) k).start) (bump (P.linkFramesNoSync n) (bump (P.linkRunaheadUndos n)
      (onLink n (onTrk k (fun t => { t with start := t.start + t.len }))
        (if firstAfterHop (link s n) (trk (link s n) k).start then
          onLink n (fun l => { l with tapsA := Taps.reset, tapsB := Taps.reset }) s else s))))) := by
  refine next_congr ?_
  simp only [ha]

end Sys2Proof.Machine

namespace Sys2Proof

open Machine

/-- Settles O36: a frame by its CRC verdict (`verifyOutcome_…`, `activeOutcome_…`), then the verdicts of both trackers
(`passed_…`, `settleBoth_…`). -/
theorem linkFrames : Obligations.LinkFrames := by
  unfold Obligations.LinkFrames
  intro n f s
  refine ⟨fun hd => next_congr (if_pos (laneIdle hd)), fun hr hk => ?_, fun v => ⟨passed_waits, fun ht hd hv => ?_, fun ht hd hv => ?_,
    fun w => passed_both, fun w hv _ hl => settleBoth_first hv hl, fun w hw hl => settleBoth_second hw hl⟩,
    fun k ha hr hs => ⟨fun hc => ?_, fun hc => ?_⟩, fun hd => ?_, fun k ha hs => ?_, rfl, fun ho hs => next_congr (if_neg ?_),
    fun hd => next_congr (if_pos ?_)⟩
  · intro k r t g l
    obtain ⟨hverify, hactive, hother⟩ := exec_uplinkFrame hr hk rfl
    refine ⟨fun hp => ?_, fun hp => ⟨fun hh => ?_, fun hh => ⟨fun hw => ?_, fun hw hc => ?_, fun hw hc => ?_⟩⟩, hother⟩
    · intro q x c
      have houtcome : exec (.uplinkFrame n f) s = .next (verifyOutcome n k g q x c) := (hverify hp).trans (next_congr verifyFrame_eq)
      refine ⟨fun hd => houtcome.trans (next_congr (verifyOutcome_falseStart hd)), fun u hu hc => ?_⟩
      rw [houtcome, hu]
      exact next_congr (verifyOutcome_passes hc)
    · exact (hactive hp).trans (next_congr (activeFrame_eq.trans (if_pos hh)))
    · exact (hactive hp).trans (next_congr (activeFrame_eq.trans ((if_neg (Bool.eq_false_iff.1 hh)).trans (if_pos hw))))
    · exact (hactive hp).trans (next_congr (activeFrame_eq.trans ((if_neg (Bool.eq_false_iff.1 hh)).trans
        ((if_neg (Nat.not_lt.2 hw)).trans (if_pos hc)))))
    · intro q x m c
      have houtcome : exec (.uplinkFrame n f) s = .next (activeOutcome n k g l q x c) := by
        refine (hactive hp).trans (next_congr (activeFrame_eq.trans ((if_neg (Bool.eq_false_iff.1 hh)).trans
          ((if_neg (Nat.not_lt.2 hw)).trans ((if_neg (Bool.eq_false_iff.1 hc)).trans ?_)))))
        exact congrArg (fun m => activeOutcome n k g l q x (crcVerdict n x.isSome (measureFrame n g q m))) (if_congr undoes_iff rfl rfl)
      refine ⟨fun hd => houtcome.trans (next_congr (activeOutcome_fails hd)), fun u hu hc => ?_⟩
      rw [houtcome, hu]
      exact ⟨fun hv => next_congr (activeOutcome_foreign hc hv), fun hv => next_congr (activeOutcome_delivers hc hv)⟩
  · exact (passed_alone ht hd).trans (if_pos hv)
  · exact (passed_alone ht hd).trans (if_neg hv)
  · refine (exec_syncWindowClose ha).trans (next_congr ((if_neg (windowPast hr hs)).trans (if_pos hc)))
  · intro u
    refine (exec_syncWindowClose ha).trans (next_congr ((if_neg (windowPast hr hs)).trans (if_neg (by simp [hc]))))
  · rcases hd with hd | hd
    · exact exec_syncWindowClose_none hd
    · cases ha : activeTrk (link s n) with
      | none => exact exec_syncWindowClose_none ha
      | some k => exact (exec_syncWindowClose ha).trans (next_congr (if_pos (by rw [hd]; rfl)))
  · refine (exec_syncWindowClose ha).trans (next_congr (if_pos ?_))
    rw [Bool.or_eq_true]
    exact .inr (decide_eq_true hs)
  · simp only [ho, Bool.not_true, Bool.false_eq_true, false_or]
    omega
  · simpa using hd

end Sys2Proof
end

section
/-! SUPPORT. Hops of a link (07 R219 to R224). -/

namespace Sys2Proof.Machine

variable {n k : Nat} {h : Hop} {s : State}

/-! ### The choice of an alternate -/

/-- The fold that chooses among alternates keeps one of them, with the lowest level. -/
theorem lowest_foldl (l : List (Nat × Nat)) (x : Nat × Nat) :
    let a := l.foldl (fun b y => if y.2 < b.2 then y else b) x
    (a = x ∨ a ∈ l) ∧ a.2 ≤ x.2 ∧ ∀ y ∈ l, a.2 ≤ y.2 := by
  induction l generalizing x with
  | nil => exact ⟨.inl rfl, Nat.le_refl _, fun y hy => nomatch hy⟩
  | cons y l ih =>
    obtain ⟨hmem, hx, hl⟩ := ih (if y.2 < x.2 then y else x)
    rw [List.foldl_cons]
    by_cases hy : y.2 < x.2
    · rw [if_pos hy] at hmem hx hl ⊢
      exact ⟨.inr (hmem.elim (fun e => by rw [e]; exact List.mem_cons_self) (List.mem_cons_of_mem y)), by omega,
        fun z hz => (List.mem_cons.1 hz).elim (fun e => e ▸ hx) (hl z)⟩
    · rw [if_neg hy] at hmem hx hl ⊢
      exact ⟨hmem.imp_right (List.mem_cons_of_mem y), hx,
        fun z hz => (List.mem_cons.1 hz).elim (fun e => e ▸ by omega) (hl z)⟩

theorem bestAlternate_lowest {l : List (Nat × Nat)} {a : Nat × Nat} (ha : bestAlternate l = some a) : a ∈ l ∧ ∀ y ∈ l, a.2 ≤ y.2 := by
  cases l with
  | nil => cases ha
  | cons x l =>
    obtain ⟨hmem, hx, hl⟩ := lowest_foldl l x
    obtain rfl := Option.some.inj ha
    exact ⟨List.mem_cons.2 hmem, fun z hz => (List.mem_cons.1 hz).elim (fun e => e ▸ hx) (hl z)⟩

theorem bestAlternate_none {l : List (Nat × Nat)} (ha : bestAlternate l = none) : l = [] := by
  cases l with
  | nil => rfl
  | cons x l => cases ha

/-! ### The boundary and the fallback -/

theorem exec_hopBoundary_none (hh : (link s n).hop = none) : exec (.hopBoundary n) s = .next s := by
  refine next_congr ?_
  rw [hh]

theorem exec_hopBoundary_early (hh : (link s n).hop = some h) (hp : period s < h.period) : exec (.hopBoundary n) s = .next s := by
  refine next_congr ?_
  rw [hh]
  exact if_pos hp

/-- At the boundary the lane of the link moves, and the ACTIVE tracker `k`, or T0 where none is, is preloaded. -/
theorem exec_hopBoundary (hh : (link s n).hop = some h) (hp : h.period ≤ period s)
    (hk : (activeTrk (link (settleTie n s) n)).getD 0 = k) : exec (.hopBoundary n) s = .next (
      let r := settleTie n s
      let t := trk (link r n) k
      let on : Tracker := { phase := .active, cand := (h.period + 1) * 61440, start := (h.period + 1) * 61440, len := t.len
                            df := t.df * h.target / (link r n).freq, tau := t.tau, level := t.level, training := true }
      let off : Tracker := { Tracker.reset with phase := .watch }
      remeasure n (onLink n (fun l => { l with
        freq := h.target, hop := none, hopping := some { h with old := l.freq, concealed := 0 }, lastHop := some h.period
        t0 := if k = 0 then on else off, t1 := if k = 0 then off else on })
        (clearHopFields n (parSet (P.linkFreq n) h.target (unannounced 0 n h r))))) := by
  subst hk
  refine next_congr ?_
  rw [hh]
  exact if_neg (Nat.not_lt.2 hp)

theorem exec_hopFailed_none (hh : (link s n).hopping = none) : exec (.hopFailed n) s = .next s := by
  refine next_congr ?_
  rw [hh]

theorem exec_hopFailed (hh : (link s n).hopping = some h) : exec (.hopFailed n) s = .next (
    if period s < h.period + 2 + parNow s (P.linkHopFallback n) then s
    else remeasure n (queueEvent 0x3006 n h.target (bump (P.linkHopFails n) (parSet (P.linkFreq n) h.old
      (onLink n (fun l => { searchLane l with freq := h.old, hopping := none }) s))))) := by
  refine next_congr ?_
  rw [hh]

/-- What the choice of an alternate leads to, from the machine `s` at the end of the measuring period of the link `l`. -/
def alternateChosen (n : Nat) (v : List Nat) (l : Link) (s : State) : State :=
  match bestAlternate (alternates s n v) with
  | some a => scheduleHop n a.1 (nextBeacon (period s + parNow s (P.linkHopLead n))) false s
  | none => queueEvent 0x3007 n (linkLqNow l) (bump (P.linkHopNoAlt n) s)

theorem alternateChosen_some {v : List Nat} {l : Link} {a : Nat × Nat} (ha : bestAlternate (alternates s n v) = some a) :
    alternateChosen n v l s = scheduleHop n a.1 (nextBeacon (period s + parNow s (P.linkHopLead n))) false s := by
  simp only [alternateChosen, ha]

theorem alternateChosen_none {v : List Nat} {l : Link} (ha : bestAlternate (alternates s n v) = none) :
    alternateChosen n v l s = queueEvent 0x3007 n (linkLqNow l) (bump (P.linkHopNoAlt n) s) := by
  simp only [alternateChosen, ha]

/-- The choice at the end of a measuring period: none where a hop is already scheduled. -/
theorem exec_hopAltChosen (v : List Nat) (ho : (link s n).isOpen = true) (hm : (link s n).measuring = true) :
    exec (.hopAltChosen n v) s = .next (
      let r := onLink n (fun l => { l with measuring := false }) s
      if (link s n).hop.isSome then r
      else alternateChosen n v (link s n) (onLink n (fun l => { l with lastHop := some (period s) }) r)) := by
  have hgo : ¬(!(link s n).isOpen || !(link s n).measuring) = true := by simp [ho, hm]
  refine next_congr ((if_neg hgo).trans ?_)
  delta alternateChosen
  exact rfl

end Sys2Proof.Machine

namespace Sys2Proof

open Machine

/-- Settles O37: the choice is the lowest score of the list (`bestAlternate_lowest`); each instant by the hop that stands
(`exec_hopBoundary`, `exec_hopFailed`). -/
theorem linkHops : Obligations.LinkHops := by
  unfold Obligations.LinkHops
  intro n s
  refine ⟨fun v ho hm => ?_, fun v hd => next_congr (if_pos ?_),
    fun l => ⟨fun a ha => bestAlternate_lowest ha, bestAlternate_none⟩, fun h hh hp => ?_, exec_hopBoundary_none,
    fun h hh hp => exec_hopBoundary_early hh hp, fun h hh hp => ?_, fun h hh hp => ?_, exec_hopFailed_none⟩
  · intro r u
    have hnone (hh : (link s n).hop = none) : exec (.hopAltChosen n v) s = .next (alternateChosen n v (link s n) u) :=
      (exec_hopAltChosen v ho hm).trans (next_congr (if_neg (by simp [hh])))
    exact ⟨fun hh => (exec_hopAltChosen v ho hm).trans (next_congr (if_pos (Option.isSome_iff_ne_none.2 hh))),
      fun a hh ha => (hnone hh).trans (next_congr (alternateChosen_some ha)),
      fun hh ha => (hnone hh).trans (next_congr (alternateChosen_none ha))⟩
  · rcases hd with hd | hd <;> simp [hd]
  · intro r u on off moved
    exact ⟨fun hk => (exec_hopBoundary hh hp hk).trans (next_congr (congrArg (fun f => remeasure n (onLink n f u)) (funext fun l => rfl))),
      fun hk => (exec_hopBoundary hh hp hk).trans (next_congr (congrArg (fun f => remeasure n (onLink n f u)) (funext fun l => rfl)))⟩
  · exact (exec_hopFailed hh).trans (next_congr (if_neg (Nat.not_lt.2 hp)))
  · exact (exec_hopFailed hh).trans (next_congr (if_pos hp))

end Sys2Proof
end

section
/-! SUPPORT. The instants of transmission (08 R236, R243 to R248). -/

namespace Sys2Proof.Machine

variable {c : Nat} {r : Hop} {s : State}

theorem mayRadiate_iff : mayRadiate s = true ↔ locked s 2 = true ∧ domOn s Dom.txd = true ∧ restarting s Dom.txd = false ∧
    s.clk.pllLocked = true ∧ restarting s Dom.ckg = false ∧ s.supply.brown = false := by
  simp [mayRadiate, unclocked, and_assoc]

theorem mayRadiate_of_fault (hd : locked s 2 = false ∨ domOn s Dom.txd = false ∨ restarting s Dom.txd = true ∨ s.supply.brown = true) :
    mayRadiate s = false := by
  rcases hd with hd | hd | hd | hd <;> simp [mayRadiate, hd]

theorem cannotStart {due : List Nat} (hd : due = [] ∨ mayRadiate s = false) : (decide (due = []) || !mayRadiate s) = true := by
  simpa using hd

theorem canStart {due : List Nat} (hd : due ≠ []) (hm : mayRadiate s = true) : ¬(decide (due = []) || !mayRadiate s) = true := by
  simp [hd, hm]

theorem mem_rampsDue : c ∈ rampsDue s ↔ ∃ q, (c, q) ∈ openCarriers s ∧ q.phase = .stopping ∧
    (q.stopCause = 3 ∨ s.supply.brown = true ∨ (q.m + 1) * 61440 + 2048 ≤ now s) := by
  simp only [rampsDue, List.mem_map, List.mem_filter, Prod.exists, Bool.and_eq_true, Bool.or_eq_true, beq_iff_eq, decide_eq_true_eq,
    or_assoc]
  constructor
  · rintro ⟨a, q, hq, rfl⟩
    exact ⟨q, hq⟩
  · rintro ⟨q, hq⟩
    exact ⟨c, q, hq, rfl⟩

/-- A ramp ends with its carrier open, but HELD where a brown hold began it and transmission resumes by itself. -/
theorem rampEnded_open (hd : (carrier s c).stopCause ≠ 3 ∨ parGet s P.sysTxAutoResume ≠ 1) :
    rampEnded c s = queueEvent 0x4002 c (carrier s c).stopCause (onCarrier c (fun q => { q with phase := .opened, m := 0 }) s) := by
  have hheld : (decide ((carrier s c).stopCause = 3) && parGet s P.sysTxAutoResume == 1) = false := by
    simpa [← imp_iff_not_or] using hd
  simp only [rampEnded, hheld, Bool.false_eq_true, if_false]

theorem rampEnded_held (h3 : (carrier s c).stopCause = 3) (ha : parGet s P.sysTxAutoResume = 1) :
    rampEnded c s = queueEvent 0x4002 c 3 (onCarrier c (fun q => { q with phase := .held, m := 0 }) s) := by
  simp only [rampEnded, h3, ha, decide_true, beq_self_eq_true, Bool.and_self, if_true]

theorem exec_carrierRetuned_none (hr : (carrier s c).retune = none) : exec (.carrierRetuned c) s = .next s := by
  refine next_congr ?_
  rw [hr]

theorem exec_carrierRetuned (hr : (carrier s c).retune = some r) : exec (.carrierRetuned c) s = .next (
    if (carrier s c).retuning && decide (r.period < period s) then
      queueEvent 0x4005 c r.target (bump (P.txRetunes c) (parSet (P.txRetunePeriodHi c) 0 (parSet (P.txRetunePeriodLo c) 0
        (parSet (P.txRetuneTarget c) 0 (onCarrier c (fun q => { q with retune := none, retuning := false }) s)))))
    else s) := by
  refine next_congr ?_
  rw [hr]
  rfl

theorem exec_carrierRetuned_idle (hd : (carrier s c).retuning = false ∨ ∃ r, (carrier s c).retune = some r ∧ period s ≤ r.period) :
    exec (.carrierRetuned c) s = .next s := by
  cases hr : (carrier s c).retune with
  | none => exact exec_carrierRetuned_none hr
  | some r =>
    refine (exec_carrierRetuned hr).trans (next_congr (if_neg ?_))
    rcases hd with hd | ⟨q, hq, hp⟩
    · simp [hd]
    · obtain rfl := Option.some.inj (hr.symm.trans hq)
      simp [hp]

end Sys2Proof.Machine

namespace Sys2Proof

open Machine

/-- Settles O38: a start, a ramp or a resumption acts where it is due and the air is allowed (`canStart`, `mem_rampsDue`,
`mayRadiate_iff`). -/
theorem txInstants : Obligations.TxInstants := by
  unfold Obligations.TxInstants
  intro s
  refine ⟨?_, mayRadiate_of_fault, rfl, fun c => mem_rampsDue, fun c => rampEnded_open, fun c => rampEnded_held,
    fun ho ht => next_congr (if_pos ?_), fun hd => next_congr (if_neg ?_), ?_, fun c r hr hg hp => ?_, fun c hd => ?_⟩
  · exact ⟨fun hd h1 h2 h3 h4 h5 h6 => next_congr (if_neg (canStart hd (mayRadiate_iff.2 ⟨h1, h2, h3, h5, h4, h6⟩))),
      fun hd => next_congr (if_pos (cannotStart hd))⟩
  · simp [ho, ht]
  · rcases hd with hd | hd
    · simp [hd]
    · simp [hd]
  · exact ⟨fun hd hm => next_congr (if_neg (canStart hd hm)), fun hd => next_congr (if_pos (cannotStart hd))⟩
  · exact (exec_carrierRetuned hr).trans (next_congr (if_pos (by simp [hg, hp])))
  · rcases hd with hd | hd
    · exact exec_carrierRetuned_none hd
    · exact exec_carrierRetuned_idle hd

end Sys2Proof
end

section
/-! SUPPORT. Beacon and reply slots of the command link (09 R255 to R258, R266, R276, R281). -/

namespace Sys2Proof.Machine

variable {n : Nat} {g l : Bool} {h : Hop} {r s t u : State}

/-! ### Beacons -/

theorem beaconOrNot_denied (hc : parGet s P.clCoexCfg = 1) : beaconOrNot false s = abandonBeacon (coexDenied s) :=
  if_pos (by simp [hc])

theorem notDenied (hg : parGet s P.clCoexCfg ≠ 1 ∨ g = true) : ¬(parGet s P.clCoexCfg == 1 && !g) = true := by
  rcases hg with hg | hg <;> simp [hg]

theorem beaconOrNot_unable (hg : parGet s P.clCoexCfg ≠ 1 ∨ g = true) (hd : locked s 3 = false ∨ clAble s = false) :
    beaconOrNot g s = abandonBeacon s :=
  (if_neg (notDenied hg)).trans (if_pos (by rcases hd with hd | hd <;> simp [hd]))

theorem beaconOrNot_sends (hg : parGet s P.clCoexCfg ≠ 1 ∨ g = true) (hl : locked s 3 = true) (ha : clAble s = true) :
    beaconOrNot g s = sendBeacon s := (if_neg (notDenied hg)).trans (if_neg (by simp [hl, ha]))

/-! ### A hop of the command link -/

theorem hopChannel_none (hd : s.cl.hop = none ∨ ∃ h, s.cl.hop = some h ∧ period s < h.period) : hopChannel l s = s := by
  rcases hd with hd | ⟨h, hh, hp⟩
  · simp only [hopChannel, hd]
  · simp only [hopChannel, hh]
    exact if_neg (Nat.not_le.2 hp)

theorem hopChannel_due (hh : s.cl.hop = some h) (hp : h.period ≤ period s) : hopChannel l s = doneWaiting .clHop (
    let t := lockChannel h.target l s
    if t.1 = some false then queueEvent 0x1009 3 0 (bump P.clkLockRetries t.2) else t.2) := by
  simp only [hopChannel, hh]
  exact if_pos hp

/-! ### The beacon slot -/

theorem beaconSlot_between (hp : period s % 20 ≠ 0) : beaconSlot g l s = s := if_pos hp

section
variable (hp : period s % 20 = 0) (hr : beaconEnds s = r)
include hp hr

theorem beaconSlot_running (hc : r.cl.phase = .running) : beaconSlot g l s = beaconOrNot g (newSuperframe (hopChannel l r)) := by
  refine (if_neg (not_not.2 hp)).trans ?_
  simp only [hr, hc]

theorem beaconSlot_held (hc : r.cl.phase = .held) (hu : newSuperframe (hopChannel l r) = u) : beaconSlot g l s =
    if clAble u && locked u 3 then
      beaconOrNot g (queueEvent 0x500A 0 (period u % 2 ^ 32) { u with cl := { u.cl with phase := .running } })
    else abandonBeacon u := by
  refine (if_neg (not_not.2 hp)).trans ?_
  simp only [hr, hc, hu]
  rfl

theorem beaconSlot_resumes (hc : r.cl.phase = .held) (hu : newSuperframe (hopChannel l r) = u) (ha : clAble u = true)
    (hl : locked u 3 = true) : beaconSlot g l s =
      beaconOrNot g (queueEvent 0x500A 0 (period u % 2 ^ 32) { u with cl := { u.cl with phase := .running } }) :=
  (beaconSlot_held hp hr hc hu).trans (if_pos (by simp [ha, hl]))

theorem beaconSlot_staysHeld (hc : r.cl.phase = .held) (hu : newSuperframe (hopChannel l r) = u)
    (hd : clAble u = false ∨ locked u 3 = false) : beaconSlot g l s = abandonBeacon u :=
  (beaconSlot_held hp hr hc hu).trans (if_neg (by rcases hd with hd | hd <;> simp [hd]))

theorem beaconSlot_starting (hc : r.cl.phase = .starting) : beaconSlot g l s = startSlot g l r := by
  refine (if_neg (not_not.2 hp)).trans ?_
  simp only [hr, hc]

theorem beaconSlot_quiet (hc : r.cl.phase = .stopped ∨ r.cl.phase = .muted) : beaconSlot g l s = r := by
  refine (if_neg (not_not.2 hp)).trans ?_
  rcases hc with hc | hc <;> simp only [hr, hc]

end

/-! ### The slot of a link that is starting -/

theorem startSlot_early (hd : period r < r.cl.b ∨ clAble r = false) : startSlot g l r = r :=
  if_pos (by simpa using hd)

section
variable (hb : r.cl.b ≤ period r) (ha : clAble r = true)
include hb ha

theorem mayStart : ¬(decide (period r < r.cl.b) || !clAble r) = true := by
  simp [hb, ha]

theorem startSlot_settling (hc : r.clk.cmd.phase = .calibrating ∨ r.clk.cmd.phase = .searching ∨ r.clk.cmd.phase = .retrying) :
    startSlot g l r = startLater r := by
  refine (if_neg (mayStart hb ha)).trans ?_
  rcases hc with hc | hc | hc <;> simp only [hc]

theorem startSlot_locked (hc : r.clk.cmd.phase = .locked) (hf : (startFreq r).getD r.clk.cmd.freq = r.clk.cmd.freq) :
    startSlot g l r = startBeacon g r := by
  refine (if_neg (mayStart hb ha)).trans ?_
  simp only [hc, hf, and_self, if_true]

/-- The synthesiser takes the channel of the start within the slot. -/
theorem startSlot_locks (hc : r.clk.cmd.phase = .off ∨
    (r.clk.cmd.phase = .locked ∧ (startFreq r).getD r.clk.cmd.freq ≠ r.clk.cmd.freq)) {o : Option Bool}
    (ht : lockChannel ((startFreq r).getD r.clk.cmd.freq) l r = (o, t)) : startSlot g l r =
      if o = some true then startBeacon g t
      else if o = some false then (if (failClLock t).cl.phase = .starting then startLater (failClLock t) else failClLock t)
      else startLater t := by
  refine (if_neg (mayStart hb ha)).trans ?_
  rcases hc with hc | ⟨hc, hf⟩
  · simp only [hc, reduceCtorEq, false_and, if_false, ht]
    rcases o with _ | _ | _ <;> rfl
  · simp only [hc, hf.symm, and_false, if_false, ht]
    rcases o with _ | _ | _ <;> rfl

end

/-! ### The end of a reply slot -/

theorem exec_replySlotEnd (hc : s.cl.phase = .running ∨ s.cl.phase = .held) (hn : n < 30) (hr : beaconEnds s = r) :
    exec (.replySlotEnd n g) s = .next (
      if decide (r.cl.phase ≠ .running) || !r.cl.listening then slotPins n r
      else settle (slotPins n (
        if slotRequested r n && !g then coexDenied r
        else if r.cl.acks.testBit n || joinSlot r n then r
        else missedPoll (slotSession r n) r))) := by
  subst hr
  refine next_congr (if_neg ?_)
  rcases hc with hc | hc <;> simp [hc, hn]

end Sys2Proof.Machine

namespace Sys2Proof

open Machine

/-- Settles O39: the beacon slot by the phase of the link (`beaconSlot_running`, `beaconSlot_held`,
`beaconSlot_starting`). -/
theorem commandLinkSlots : Obligations.CommandLinkSlots := by
  unfold Obligations.CommandLinkSlots
  intro s
  refine ⟨?_, fun g => ⟨fun ⟨hc, hg⟩ => hg ▸ beaconOrNot_denied hc, beaconOrNot_unable, beaconOrNot_sends⟩,
    fun h1 h2 => next_congr (if_pos (by simp [h1, h2])), fun hd => next_congr (if_neg ?_), fun h l hh hp => ?_,
    fun l hd => next_congr (congrArg settle (hopChannel_none hd)), fun hb hc => next_congr (if_pos (by simp [hb, hc])),
    fun hd => next_congr (if_neg ?_)⟩
  · intro r
    refine ⟨fun g l hp => next_congr (congrArg settle (beaconSlot_between hp)),
      fun g l hp hc => next_congr (congrArg settle (beaconSlot_running hp rfl hc)), fun g l hp hc => ?_, fun g l hp hc => ?_,
      fun g l hp hc => next_congr (congrArg settle (beaconSlot_quiet hp rfl hc)), fun n g hd => next_congr (if_pos hd),
      fun n g hc hn => ?_⟩
    · intro u
      exact ⟨fun ha hl => next_congr (congrArg settle (beaconSlot_resumes hp rfl hc rfl ha hl)),
        fun hd => next_congr (congrArg settle (beaconSlot_staysHeld hp rfl hc rfl hd))⟩
    · have hslot : exec (.beaconSlot g l) s = .next (settle (startSlot g l r)) :=
        next_congr (congrArg settle (beaconSlot_starting hp rfl hc))
      refine ⟨fun hd => hslot.trans (next_congr (congrArg settle (startSlot_early hd))), fun hb ha => ⟨fun hy => ?_, fun hy hf => ?_,
        fun t hy => ⟨fun ht => ?_, fun ht => ?_, fun ht => ?_⟩⟩⟩
      · exact hslot.trans (next_congr (congrArg settle (startSlot_settling hb ha hy)))
      · exact hslot.trans (next_congr (congrArg settle (startSlot_locked hb ha hy hf)))
      · exact hslot.trans (next_congr (congrArg settle (startSlot_locks hb ha hy ht)))
      · exact hslot.trans (next_congr (congrArg settle (startSlot_locks hb ha hy ht)))
      · exact hslot.trans (next_congr (congrArg settle (startSlot_locks hb ha hy ht)))
    · have hslot := exec_replySlotEnd (g := g) hc hn (r := r) rfl
      refine ⟨fun hd => hslot.trans (next_congr (if_pos (by simpa using hd))), fun h1 h2 => ?_⟩
      have hheard := hslot.trans (next_congr (if_neg (by simp [h1, h2])))
      refine ⟨fun hq hg => ?_, fun hd => ?_⟩
      · rw [hheard, if_pos (by simp [hq, hg])]
      · have hserved : ¬(slotRequested r n && !g) = true := by
          rcases hd with hd | hd <;> simp [hd]
        rw [hheard, if_neg hserved]
        exact ⟨fun ha => by rw [if_pos (by simpa using ha)], fun h1 h2 => by rw [if_neg (by simp [h1, h2])]⟩
  · rcases hd with hd | hd <;> simp [hd]
  · have hdone : exec (.clHopDone l) s = _ := next_congr (congrArg settle (hopChannel_due hh hp))
    intro t
    exact ⟨fun ht => hdone.trans (next_congr (congrArg settle (congrArg _ (if_neg ht)))),
      fun ht => hdone.trans (next_congr (congrArg settle (congrArg _ (if_pos ht))))⟩
  · rcases hd with hd | hd <;> simp [hd]

end Sys2Proof
end

section
/-! SUPPORT. Packets of a reply slot of the command link (09 R254, R262 to R268, R277). -/

namespace Sys2Proof.Machine

variable {n m : Nat} {pkt : ClPacket} {body : List Byte} {level : Int} {v : Bool × State} {r s u : State}

/-! ### Where a packet is received -/

theorem clPacketIn_idle (hr : beaconEnds s = r) (hd : r.cl.phase ≠ .running ∨ r.cl.listening = false ∨ 30 ≤ n) :
    clPacketIn n pkt s = r := by
  subst hr
  exact if_pos (by simpa [or_assoc] using hd)

section
variable (hr : beaconEnds s = r) (h1 : r.cl.phase = .running) (h2 : r.cl.listening = true) (hn : n < 30)
include hr h1 h2 hn

theorem clPacketIn_received : clPacketIn n pkt s =
    if captures pkt r = 0 then clPacketRead n pkt r
    else if parGet r P.clCapture8 = 1 then clPacketRead n pkt (bumpBy (captures pkt r) P.clCaptureRefused r)
    else bump P.clCaptureSwitches r := by
  subst hr
  exact if_neg (by simp [h1, h2, hn])

theorem clPacketIn_kept (hc : captures pkt r = 0) : clPacketIn n pkt s = clPacketRead n pkt r :=
  (clPacketIn_received hr h1 h2 hn).trans (if_pos hc)

theorem clPacketIn_lock (hc : captures pkt r ≠ 0) (hl : parGet r P.clCapture8 = 1) :
    clPacketIn n pkt s = clPacketRead n pkt (bumpBy (captures pkt r) P.clCaptureRefused r) :=
  (clPacketIn_received hr h1 h2 hn).trans ((if_neg hc).trans (if_pos hl))

theorem clPacketIn_captured (hc : captures pkt r ≠ 0) (hl : parGet r P.clCapture8 ≠ 1) :
    clPacketIn n pkt s = bump P.clCaptureSwitches r :=
  (clPacketIn_received hr h1 h2 hn).trans ((if_neg hc).trans (if_neg hl))

end

/-! ### What a packet that was kept leads to -/

/-- What a packet leads to, from its body and the verdict of its CRC. -/
def packetOutcome (n : Nat) (level : Int) (body : List Byte) (v : Bool × State) : State :=
  let (ok, s) := v
  if !ok then bump P.clCrcFails s
  else
    let sys := beNat ((body.drop 2).take 3)
    if sys ≠ parGet s P.clSystemId then clIntrusion (slotSession s n) sys s
    else
      match fldAt body 0 1 % 16 with
      | 1 => pollReply n level body s
      | 2 => joinIn n body s
      | _ => s

theorem clPacketRead_eq : clPacketRead n pkt s = (
    let a := clAirBody (clChannel s.cl.freq) 26 pkt.air
    packetOutcome n pkt.level a.1 (crcVerdict 0x80 a.2 s)) := by
  delta clPacketRead packetOutcome
  exact rfl

theorem packetOutcome_crcFails (hv : v.1 = false) : packetOutcome n level body v = bump P.clCrcFails v.2 :=
  if_pos (by simp [hv])

section
variable (hv : v.1 = true)
include hv

theorem packetOutcome_foreign (hs : beNat ((body.drop 2).take 3) ≠ parGet v.2 P.clSystemId) : packetOutcome n level body v =
    queueLimited 0x500B 12288000 0x500B (slotSession v.2 n) (beNat ((body.drop 2).take 3)) (bump P.clIntrusions v.2) :=
  (if_neg (by simp [hv])).trans (if_pos hs)

variable (hs : beNat ((body.drop 2).take 3) = parGet v.2 P.clSystemId)
include hs

theorem packetOutcome_poll (hk : fldAt body 0 1 % 16 = 1) : packetOutcome n level body v = pollReply n level body v.2 := by
  refine (if_neg (by simp [hv])).trans ((if_neg (not_not.2 hs)).trans ?_)
  simp only [hk]

theorem packetOutcome_join (hk : fldAt body 0 1 % 16 = 2) : packetOutcome n level body v = joinIn n body v.2 := by
  refine (if_neg (by simp [hv])).trans ((if_neg (not_not.2 hs)).trans ?_)
  simp only [hk]

theorem packetOutcome_other (h1 : fldAt body 0 1 % 16 ≠ 1) (h2 : fldAt body 0 1 % 16 ≠ 2) : packetOutcome n level body v = v.2 := by
  refine (if_neg (by simp [hv])).trans ((if_neg (not_not.2 hs)).trans ?_)
  split
  · next h => exact absurd h h1
  · next h => exact absurd h h2
  · rfl

end

/-! ### Poll replies -/

theorem pollReply_foreign (hd : joinSlot s n = true ∨ fldAt body 1 1 ≠ slotSession s n) : pollReply n level body s =
    queueLimited 0x500B 12288000 0x500B (slotSession s n) (beNat ((body.drop 2).take 3) + 2 ^ 31) (bump P.clIntrusions s) :=
  if_pos (by rcases hd with hd | hd <;> simp [hd])

section
variable (hj : joinSlot s n = false) (hm : fldAt body 1 1 = slotSession s n)
include hj hm

theorem pollReply_noKey (hk : (session s (slotSession s n)).phase = .free ∨
    replyKey (session s (slotSession s n)) (fldAt body 5 1) = none) : pollReply n level body s = bump P.clMicFails s := by
  have hnone : (if (session s (slotSession s n)).phase = .free then none
      else replyKey (session s (slotSession s n)) (fldAt body 5 1)) = none := by
    rcases hk with hk | hk <;> simp [hk]
  refine (if_neg (by simp [hj, hm])).trans ?_
  rw [hnone]

variable {key : List Byte} {epoch : Nat} (hp : (session s (slotSession s n)).phase ≠ .free)
  (hk : replyKey (session s (slotSession s n)) (fldAt body 5 1) = some (key, epoch))
include hp hk

theorem pollReply_keyed : pollReply n level body s =
    if clMic key s.cl.b n (body.take 22) ≠ (body.drop 22).take 4 then bump P.clMicFails s
    else pollValid n (slotSession s n) level (if (session s (slotSession s n)).flags.testBit 1 then
      body.take 7 ++ clCrypt key 4 n (slotSession s n) s.cl.b epoch ((body.drop 7).take 15) ++ body.drop 22 else body) s := by
  refine (if_neg (by simp [hj, hm])).trans ?_
  rw [if_neg hp, hk]

end

/-! ### Joins -/

theorem session_ackSlot : session (ackSlot n s) m = session s m := by
  simp [session, ackSlot]

theorem joinIn_elsewhere (hd : joinSlot s n = false ∨ fldAt body 1 1 ≠ slotSession s n) : joinIn n body s = s :=
  if_pos (by simpa using hd)

section
variable (hj : joinSlot s n = true) (hm : fldAt body 1 1 = slotSession s n)
include hj hm

theorem joinIn_unknown (hx : sessionOfTx s (beNat ((body.drop 5).take 4)) = none) :
    joinIn n body s = queueEvent 0x5003 0 (beNat ((body.drop 5).take 4)) (bump P.clJoinUnknown s) := by
  refine (if_neg (by simp [hj, hm])).trans ?_
  simp only [hx]

variable (hx : sessionOfTx s (beNat ((body.drop 5).take 4)) = some m)
include hx

theorem joinIn_micFails (hc : clMic (session s m).key s.cl.b n (body.take 22) ≠ (body.drop 22).take 4) :
    joinIn n body s = bump P.clMicFails s := by
  refine (if_neg (by simp [hj, hm])).trans ?_
  simp only [hx]
  exact if_pos hc

variable (hc : clMic (session s m).key s.cl.b n (body.take 22) = (body.drop 22).take 4)
include hc

theorem joinIn_verified : joinIn n body s =
    if (session s m).phase = .removing then ackSlot n s
    else bump P.clJoins (onSession m (fun x => { x with
      phase := .assigned, assign := some (beNat ((body.drop 9).take 4)), missed := 0 })
        (if (session s m).phase = .joined then failSends (some m) (ackSlot n s) else ackSlot n s)) := by
  refine (if_neg (by simp [hj, hm])).trans ?_
  simp only [hx]
  rw [if_neg (not_not.2 hc), session_ackSlot]

end

end Sys2Proof.Machine

namespace Sys2Proof

open Machine

/-- Settles O40: a packet by capture (`clPacketIn_kept`), CRC and system (`packetOutcome_…`), then as a poll reply or a
join (`pollReply_…`, `joinIn_…`). -/
theorem commandLinkPackets : Obligations.CommandLinkPackets := by
  unfold Obligations.CommandLinkPackets
  intro s n pkt
  refine ⟨?_, ?_⟩
  · intro r read
    have hrun {t : State} (ht : clPacketIn n pkt s = t) : exec (.pollReply n pkt) s = .next (settle t) ∧
        exec (.join n pkt) s = .next (settle t) := ⟨next_congr (congrArg settle ht), next_congr (congrArg settle ht)⟩
    exact ⟨fun hd => hrun (clPacketIn_idle rfl hd), fun h1 h2 hn => ⟨fun hc => hrun (clPacketIn_kept rfl h1 h2 hn hc),
      fun hc hl => hrun (clPacketIn_lock rfl h1 h2 hn hc hl), fun hc hl => hrun (clPacketIn_captured rfl h1 h2 hn hc hl)⟩⟩
  · intro a v u sys mine
    have hread : clPacketRead n pkt s = packetOutcome n pkt.level a.1 v := clPacketRead_eq
    rw [hread]
    refine ⟨packetOutcome_crcFails, fun hv hs => packetOutcome_foreign hv hs, fun hv hs hk => ?_, fun hv hs hk => ?_,
      fun hv hs h1 h2 => packetOutcome_other hv hs h1 h2⟩
    · rw [packetOutcome_poll hv hs hk]
      refine ⟨fun hd => pollReply_foreign hd, fun hj hm => ?_⟩
      intro x
      refine ⟨fun hx => pollReply_noKey hj hm hx, fun key epoch hp hx => ⟨fun hc => ?_, fun hc => ?_⟩⟩
      · exact (pollReply_keyed hj hm hp hx).trans (if_pos hc)
      · exact (pollReply_keyed hj hm hp hx).trans (if_neg (not_not.2 hc))
    · rw [packetOutcome_join hv hs hk]
      intro tx
      refine ⟨fun hd => joinIn_elsewhere hd, fun hj hm => ⟨fun hx => joinIn_unknown hj hm hx, fun m hx =>
        ⟨fun hc => joinIn_micFails hj hm hx hc, fun hc => ⟨fun hp => ?_, fun hp hq => ?_, fun hp => ?_⟩⟩⟩⟩
      · exact (joinIn_verified hj hm hx hc).trans (if_pos hp)
      · rw [joinIn_verified hj hm hx hc, if_neg hp, if_neg hq]
      · rw [joinIn_verified hj hm hx hc, if_pos hp, if_neg (by rw [hp]; decide)]

end Sys2Proof
end

section
/-! SUPPORT. The entry to a power state (15 R411 to R413). -/

namespace Sys2Proof.Machine

variable {d n : Nat} {e f : Entry} {s t : State}

/-! ### An entry goes on -/

/-- What an entry does after an acknowledgement, from the entry `f` as it then stands: the next domain is asked, or it completes. -/
def entryGoesOn (f : Entry) (s : State) : State :=
  match f.ask with
  | [] => entryComplete f.target s
  | n :: _ =>
    if f.abort then abandonEntry s
    else if refusalOf s n ≠ 0 then refuseEntry n (refusalOf s n) s
    else askDomain n s

/-- The acknowledgement of the domain asked, once its action is done. -/
theorem exec_domainEntryAck (he : s.power.entry = some e) (hh : e.ask.head? = some d) (hd : entryDone d s = true)
    {l : List Nat} (hl : nextAsked (e.ask.drop 1) (stopDomain d s) = l) (ht : stopDomain d s = t)
    (hf : { t.power.entry.getD e with ask := l, askedAt := now t, stopped := d :: e.stopped } = f) :
    exec (.domainEntryAck d) s = .next (settle (entryGoesOn f { t with power := { t.power with entry := some f } })) := by
  subst hl ht hf
  refine next_congr ?_
  rw [he]
  exact if_neg (by simp [hh, hd])

theorem exec_domainEntryAck_idle (he : s.power.entry = some e) (hd : e.ask.head? ≠ some d ∨ entryDone d s = false) :
    exec (.domainEntryAck d) s = .next s := by
  refine next_congr ?_
  rw [he]
  exact if_pos (by rcases hd with hd | hd <;> simp [hd])

theorem exec_powerHandshakeTimeout (he : s.power.entry = some e) : exec (.powerHandshakeTimeout d) s = .next (
    if e.ask.head? = some d && elapsed s (e.askedAt + msTicks (delayMs d)) then settle (refuseEntry d 2 s) else s) := by
  refine next_congr ?_
  rw [he]

theorem exec_entryAborted (he : s.power.entry = some e) : exec .entryAborted s = .next (
    if e.abort then settle (failWaiting .powerEntry .aborted (bump P.pwrWakeAborts (rollback s))) else s) := by
  have habandon : abandonEntry s = failWaiting .powerEntry .aborted (bump P.pwrWakeAborts (rollback s)) := if_neg (by simp [he])
  refine next_congr ?_
  rw [habandon, he]
  rfl

theorem exec_noEntry (hn : s.power.entry = none) : exec (.domainEntryAck d) s = .next s ∧
    exec (.powerHandshakeTimeout d) s = .next s ∧ exec .entryAborted s = .next s := by
  refine ⟨next_congr ?_, next_congr ?_, next_congr ?_⟩ <;> rw [hn]
  exact if_neg (by simp)

end Sys2Proof.Machine

namespace Sys2Proof

open Machine

/-- Settles O28: each instant by the entry in progress, which `entryGoesOn` takes on (`exec_domainEntryAck`,
`exec_entryAborted`). -/
theorem powerEntry : Obligations.PowerEntry := by
  unfold Obligations.PowerEntry
  intro s d
  refine ⟨exec_noEntry, fun e he => ⟨?_, exec_domainEntryAck_idle he, fun hd => ?_, fun hh ht => ?_, fun ha => ?_, fun ha => ?_⟩⟩
  · intro u f
    refine ⟨fun hh hd hl => (exec_domainEntryAck he hh hd hl rfl rfl).trans rfl, fun n l hh hd hl => ?_⟩
    have hack := exec_domainEntryAck he hh hd hl rfl rfl
    exact ⟨fun ha => hack.trans (next_congr (congrArg settle (if_pos ha))),
      fun ha hr => hack.trans (next_congr (congrArg settle ((if_neg (Bool.eq_false_iff.1 ha)).trans (if_neg (not_not.2 hr))))),
      fun ha hr => hack.trans (next_congr (congrArg settle ((if_neg (Bool.eq_false_iff.1 ha)).trans (if_pos hr))))⟩
  · refine (exec_powerHandshakeTimeout he).trans (next_congr (if_neg ?_))
    rcases hd with hd | hd <;> simp [hd]
  · exact (exec_powerHandshakeTimeout he).trans (next_congr (if_pos (by simp [hh, ht])))
  · exact (exec_entryAborted he).trans (next_congr (if_pos ha))
  · exact (exec_entryAborted he).trans (next_congr (if_neg (Bool.eq_false_iff.1 ha)))

end Sys2Proof
end

section
/-! SUPPORT. Idle gating, wakes on demand, wake sources and the wake from sleep (15 R408, R409, R413, R417 to R419). -/

namespace Sys2Proof.Machine

variable {d n p us lf : Nat} {e : Entry} {r : Running} {s : State}

/-! ### Idle gating -/

theorem exec_idleGate_gates (hm : mayGate s d = true) (ht : 2 * parGet s P.pwrIdleDelay ≤ smGet 0 s.power.idle d)
    (he : s.power.entry = none) : exec (.idleGate d) s = .next { stopDomain d s with
      power := { (stopDomain d s).power with idle := smErase (stopDomain d s).power.idle d } } :=
  next_congr (if_pos (by simp [hm, ht, he]))

theorem exec_idleGate_idle (hd : mayGate s d = false ∨ smGet 0 s.power.idle d < 2 * parGet s P.pwrIdleDelay ∨
    ∃ e, s.power.entry = some e ∧ e.ask.contains d = true) : exec (.idleGate d) s = .next s := by
  refine next_congr (if_neg ?_)
  rcases hd with hd | hd | ⟨e, he, hd⟩
  · simp [hd]
  · have hlt : ¬2 * parGet s P.pwrIdleDelay ≤ smGet 0 s.power.idle d := by omega
    simp [hlt]
  · simp only [he, Option.any_some, hd, Bool.not_true, Bool.and_false, Bool.false_eq_true, not_false_iff]

/-! ### Wakes on demand -/

/-- Whether a command stalls on the wake of a domain. -/
def stallsOn (d : Nat) (s : State) (r : Running) : Bool :=
  match r.wait with
  | .domainWake _ => ((progOf r.cmd).needs s).contains d
  | _ => false

theorem stallsOn_wake (hw : ∃ e, r.wait = .domainWake e) : stallsOn d s r = ((progOf r.cmd).needs s).contains d := by
  obtain ⟨e, he⟩ := hw
  simp only [stallsOn, he]

theorem stallsOn_other (hw : ∀ e, r.wait ≠ .domainWake e) : stallsOn d s r = false := by
  unfold stallsOn
  split
  · next e he => exact absurd he (hw e)
  · rfl

theorem exec_domainWakeDone (hc : s.power.coming.contains d = true) (ha : domAllowed s.power.state d = true) :
    exec (.domainWakeDone d us) s = .next (settle (planResume (resumeStalled (
      if s.running.any (stallsOn d s) then
        parSet P.pwrWakeStallMax (max (parGet (startDomain d s) P.pwrWakeStallMax) (min us 65535)) (startDomain d s)
      else startDomain d s)))) :=
  next_congr (if_neg (by rw [hc, ha]; decide))

theorem exec_domainWakeDone_idle (hd : s.power.coming.contains d = false ∨ domAllowed s.power.state d = false) :
    exec (.domainWakeDone d us) s = .next s :=
  next_congr (if_pos (by rcases hd with hd | hd <;> simp only [hd, Bool.not_false, Bool.or_true, Bool.true_or]))

/-- A wake that exceeds its longest time ends the commands that stall on it. -/
theorem exec_domainWakeFault (hc : s.power.coming.contains d = true)
    (ht : elapsed s (smGet 0 s.power.comingAt d + usTicks (wakeUs d)) = true) : exec (.domainWakeFault d) s = .next (
      let v := { s with power := { s.power with
        coming := s.power.coming.filter (fun e => e != d), comingAt := smErase s.power.comingAt d } }
      let stalled := s.running.filter (stallsOn d v)
      settle (each stalled (fun r t => endCmd .hwFault [] r (queueEvent 0x9004 d (cmdArg r.hdr r.op) t))
        (if stalled = [] then queueEvent 0x9004 d 0 (bump P.pwrWakeTimeouts v) else bump P.pwrWakeTimeouts v))) :=
  next_congr (if_neg (by rw [hc, ht]; decide))

/-! ### Wake sources -/

theorem exec_wakeSourceFire_disabled (hw : wakeEnabled s n p = false) : exec (.wakeSourceFire n p) s = .next s :=
  next_congr (if_pos (by simp [hw]))

theorem exec_wakeSourceFire (hn : n ≤ 2) (hw : wakeEnabled s n p = true) :
    exec (.wakeSourceFire n p) s = .next (settle (fireWake n s)) :=
  next_congr ((if_neg (by simp [hw])).trans (if_neg (by omega)))

theorem fireWake_entry (hp : s.power.state ≤ 2) (he : s.power.entry = some e) (ht : 2 < e.target) : fireWake n s =
    if e.ask.head? = some Dom.seq then abandonEntry s
    else { s with power := { s.power with entry := some { e with abort := true } } } := by
  have ht' : ¬e.target ≤ 2 := by omega
  have hp' : ¬2 < s.power.state := by omega
  simp only [fireWake, hp', if_false, he, ht']
  rfl

theorem wakeEnabled_off (ho : s.supply.iohOn = false) (hn : n ≤ 2) : wakeEnabled s n p = false := by
  match n, hn with
  | 0, _ => simp [wakeEnabled, ho]
  | 1, _ => simp [wakeEnabled, ho]
  | 2, _ => simp [wakeEnabled, ho]

/-! ### The wake from sleep -/

theorem exec_woke_idle (hd : s.power.state ≤ 2 ∨ s.power.waking = false ∨ s.clk.pllLocked = false) :
    exec (.woke lf us) s = .next s :=
  next_congr (if_pos (by simpa using hd))

end Sys2Proof.Machine

namespace Sys2Proof

open Machine

/-- Settles O29: each instant by the domain that gates or comes (`exec_idleGate_gates`, `exec_domainWakeDone`), a source
by whether it is enabled. -/
theorem powerInstants : Obligations.PowerInstants := by
  unfold Obligations.PowerInstants
  intro s
  refine ⟨fun d => exec_idleGate_gates, fun d => exec_idleGate_idle, fun d us hc ha hw => ?_, fun d us r hc ha hr hw hn => ?_,
    fun d hc ht => ?_, fun d hc => next_congr (if_pos ?_), fun d us => exec_domainWakeDone_idle, fun n p hn hw hp => ?_,
    fun n p e hn hw hp he ht => ⟨fun hh => ?_, fun hh => ?_⟩, fun n p => exec_wakeSourceFire_disabled,
    fun n p => wakeEnabled_off, fun lf us hp hw hl => next_congr (if_neg ?_), fun lf us => exec_woke_idle⟩
  · have hnone : ¬s.running.any (stallsOn d s) = true := by
      rw [Bool.not_eq_true, List.any_eq_false]
      exact fun r hr => by simp [stallsOn_other (hw r hr)]
    rw [exec_domainWakeDone hc ha, if_neg hnone]
  · have hsome : s.running.any (stallsOn d s) = true := List.any_eq_true.2 ⟨r, hr, (stallsOn_wake hw).trans hn⟩
    rw [exec_domainWakeDone hc ha, if_pos hsome]
  · intro v stalled u
    have hfault : exec (.domainWakeFault d) s = .next (settle (each stalled
        (fun r t => endCmd .hwFault [] r (queueEvent 0x9004 d (cmdArg r.hdr r.op) t))
        (if stalled = [] then queueEvent 0x9004 d 0 u else u))) := exec_domainWakeFault hc ht
    refine ⟨fun hd => ?_, fun hd => ?_⟩
    · rw [hfault, if_pos hd, hd]
      rfl
    · rw [hfault, if_neg hd]
  · rw [hc, Bool.not_false, Bool.true_or]
  · exact (exec_wakeSourceFire hn hw).trans (next_congr (congrArg settle (if_pos hp)))
  · exact (exec_wakeSourceFire hn hw).trans (next_congr (congrArg settle ((fireWake_entry hp he ht).trans (if_pos hh))))
  · exact (exec_wakeSourceFire hn hw).trans (next_congr (congrArg settle ((fireWake_entry hp he ht).trans (if_neg hh))))
  · have hp' : ¬s.power.state ≤ 2 := by omega
    simp [hp', hw, hl]

end Sys2Proof
end

section
/-! SUPPORT. Supply monitoring, brown hold and rail presence (19 R475, R481 to R485, R492). -/

namespace Sys2Proof.Machine

variable {r us : Nat} {b o : Bool} {mv : Nat} {s : State}

/-! ### A rail that falls below its warning threshold -/

/-- A warning that is noted: the rail is low, it is counted and alerted. -/
def brownNoted (r : Nat) (s : State) : State :=
  raiseAlert (fun f => { f with alertBrown := true }) (bump (warnCounter r) { s with supply := { s.supply with
    low := s.supply.low ||| BitVec.ofNat 3 (2 ^ r)
    lowAt := if s.supply.low = 0 then now s else max s.supply.lowAt (now s) } })

theorem brownNoted_power : (brownNoted r s).power = s.power := by simp [brownNoted]
theorem brownNoted_brown : (brownNoted r s).supply.brown = s.supply.brown := by simp [brownNoted]

theorem brownCross_unwatched (hd : 2 < r ∨ (r = 1 ∧ s.supply.rfArmed = false) ∨ s.supply.resetHeld ≠ none ∨ (2 < s.power.state ∧ r ≠ 2)) :
    brownCross r 0 s = s := if_pos (by simpa [Option.isSome_iff_ne_none] using hd)

theorem brownCross_sleep (hh : s.supply.resetHeld = none) (hp : 2 < s.power.state) (hr : r = 2) : brownCross r 0 s = brownNoted r s := by
  refine (if_neg (by simp [hh, hr])).trans (if_pos ?_)
  show 2 < (brownNoted r s).power.state
  rwa [brownNoted_power]

section
variable (h2 : r ≤ 2) (ha : r = 1 → s.supply.rfArmed = true) (hh : s.supply.resetHeld = none)
include h2 ha hh

theorem brownCross_awake (hp : s.power.state ≤ 2) : brownCross r 0 s = (
    let w := brownNoted r s
    let u := queueCounted (0x0020 * 65536 + r) 1228800 0x0020 r
      (if w.supply.brown then { w with supply := { w.supply with entered := w.supply.entered ||| BitVec.ofNat 3 (2 ^ r) } } else brownBegins w)
    if r = 1 then stopCalibrate u else u) := by
  have h2' : ¬2 < r := by omega
  have hp' : ¬2 < s.power.state := by omega
  have hp'' : ¬2 < (brownNoted r s).power.state := by rwa [brownNoted_power]
  exact (if_neg (by simpa [h2', hh, hp'] using ha)).trans (if_neg hp'')

end

/-! ### The end of brown hold -/

theorem exec_brownHoldEnd (ht : elapsed s (s.supply.lowAt + msTicks 1) = true) : exec (.brownHoldEnd us) s = .next (
    if !s.supply.brown then { s with supply := { s.supply with low := 0 } }
    else settle (planResume (queueWhenRunning 0x0021 s.supply.entered.toNat (us % 2 ^ 32)
      (parSet P.sysBrownHoldMax (max (parGet s P.sysBrownHoldMax) (min us 4294967295))
        { s with supply := { s.supply with low := 0, lowAt := now s, entered := 0, brown := false, deferral := true } })))) :=
  next_congr (if_neg (by rw [ht]; decide))

theorem exec_postBrownHoldDeferralEnd_idle (hd : s.supply.deferral = false ∨ elapsed s (s.supply.lowAt + msTicks 1) = false) :
    exec .postBrownHoldDeferralEnd s = .next s :=
  next_congr (if_pos (by rcases hd with hd | hd <;> rw [hd] <;> simp))

/-! ### Rails and banks -/

theorem exec_railPresence_plain (h3 : 3 ≤ r) (h9 : r ≤ 9) : exec (.railPresenceChange r b o mv) s = .next { s with supply := { s.supply with
    up := if b then s.supply.up ||| BitVec.ofNat 10 (2 ^ r) else s.supply.up &&& ~~~ BitVec.ofNat 10 (2 ^ r)
    present := if o then s.supply.present &&& ~~~ BitVec.ofNat 10 (2 ^ r) else s.supply.present ||| BitVec.ofNat 10 (2 ^ r) } } := by
  refine next_congr ((if_neg (by omega)).trans ((if_neg (by omega)).trans ((if_neg (by omega)).trans ((if_neg (by omega)).trans ?_))))
  cases o <;> rfl

end Sys2Proof.Machine

namespace Sys2Proof

open Machine

/-- Settles O30: a rail that crosses by the power state (`brownCross_sleep`, `brownCross_awake`); the end of the hold by
its time. -/
theorem supplyInstants : Obligations.SupplyInstants := by
  unfold Obligations.SupplyInstants
  intro s
  refine ⟨rfl, fun r h2 ha hh hp hb => ?_, fun r hr hh hp hb => ?_, fun hh hp => ?_,
    fun r hd => next_congr (congrArg settle (brownCross_unwatched hd)), fun us hb ht => ?_, fun us hb ht => ?_,
    fun us ht => ⟨next_congr (if_pos (by rw [ht]; rfl)), exec_postBrownHoldDeferralEnd_idle (.inr ht)⟩,
    fun hd ht => next_congr (if_neg (by rw [hd, ht]; decide)), fun hd => exec_postBrownHoldDeferralEnd_idle (.inl hd),
    fun r b o mv => exec_railPresence_plain, fun b mv => ?_, fun mv hu ho => ?_⟩
  · intro u
    refine next_congr (congrArg settle ((brownCross_awake h2 ha hh hp).trans ?_))
    simp only [brownNoted_brown, hb, Bool.false_eq_true, if_false]
    rfl
  · have h2 : r ≤ 2 := by omega
    have h1 : r ≠ 1 := by omega
    refine ⟨{ brownNoted r s with supply := { (brownNoted r s).supply with
      entered := (brownNoted r s).supply.entered ||| BitVec.ofNat 3 (2 ^ r) } }, next_congr (congrArg settle
        ((brownCross_awake h2 (fun h => absurd h h1) hh hp).trans ((if_neg h1).trans ?_))), ?_, ?_, ?_, ?_, ?_, ?_⟩
    · rw [brownNoted_brown, if_pos hb]
    · simp [brownNoted]
    · simp [brownNoted]
    · simp [brownNoted, hb]
    · simp [brownNoted]
    · simp [brownNoted]
    · simp [brownNoted]
  · exact next_congr (congrArg settle (brownCross_sleep hh hp rfl))
  · exact (exec_brownHoldEnd ht).trans (next_congr (if_neg (by simp [hb])))
  · exact (exec_brownHoldEnd ht).trans (next_congr (if_pos (by simp [hb])))
  · exact next_congr ((if_neg (by decide)).trans ((if_pos rfl).trans rfl))
  · refine next_congr ((if_neg (by decide)).trans ((if_neg (by decide)).trans ((if_pos rfl).trans ?_)))
    have hbank : bankAfter true ((s.supply.up ||| 4).getLsbD 0) false s.supply.ioaOn s.supply.ioa33 mv = (true, decide (2500 < mv)) := by
      simp [bankAfter, ho, hu]
    exact congrArg (fun b : Bool × Bool => { s with supply := { s.supply with
      up := s.supply.up ||| 4, present := s.supply.present ||| 4, ioaOn := b.1, ioa33 := b.2 } }) hbank

end Sys2Proof
end

section
/-! SUPPORT. Crystals, the low-frequency source and the main PLL (04 R92 to R98). -/

namespace Sys2Proof.Machine

variable {c : Bool} {lf b a : Nat} {v : Bool × State} {s : State}

/-! ### Crystals -/

theorem exec_xtalQualified_idle (hd : (s.supply.resetHeld ≠ none ∧ s.clk.xtalHeld = false) ∨
    (s.power.state = 4 ∧ s.power.waking = false)) : exec .xtalQualified s = .next s :=
  next_congr (if_pos (by simpa [Option.isSome_iff_ne_none] using hd))

theorem exec_xtalQualified (h1 : s.supply.resetHeld = none ∨ s.clk.xtalHeld = true) (h2 : s.power.state ≠ 4 ∨ s.power.waking = true) :
    exec .xtalQualified s = .next (refreshOuts { s with clk := { s.clk with xtalQual := true, xtalMeant := true } }) := by
  refine next_congr (if_neg ?_)
  rcases h1 with h1 | h1 <;> rcases h2 with h2 | h2 <;> simp [h1, h2]

/-- A failure of the crystal in service holds every domain but AON in a WDOG reset, with the timebase as it was. -/
theorem exec_xtalFail (hm : s.clk.xtalMeant = true) (hx : s.clk.xtalHeld = false) (hh : s.supply.resetHeld = none) :
    exec .xtalFail s = .next (
      let t := enterReset 4 (bump P.clkXtalFails s)
      { t with
        timebase := s.timebase
        clk := { Clocks.reset with xtalMeant := true, xtalHeld := true, bridging := true, lfCrystal := t.clk.lfCrystal,
                                   dieTemp := t.clk.dieTemp, calRef := t.clk.calRef }
        power := { t.power with on := 1 }
        supply := { t.supply with resetHeld := some 4, wdogCause := 1 } }) :=
  next_congr ((if_neg (by rw [hm]; decide)).trans ((if_neg (by rw [hx]; decide)).trans (if_neg (by rw [hh]; decide))))

theorem exec_xtalFail_idle (hd : s.clk.xtalMeant = false ∨ (s.clk.xtalHeld = true ∧ s.clk.xtalQual = false) ∨
    (s.clk.xtalHeld = false ∧ s.supply.resetHeld ≠ none)) : exec .xtalFail s = .next s := by
  cases hm : s.clk.xtalMeant with
  | false => exact next_congr (if_pos (by rw [hm]; rfl))
  | true =>
    rcases hd with hd | ⟨hx, hq⟩ | ⟨hx, hh⟩
    · exact absurd (hm.symm.trans hd) (by decide)
    · exact next_congr ((if_neg (by rw [hm]; decide)).trans ((if_pos hx).trans (if_neg (by rw [hq]; decide))))
    · exact next_congr ((if_neg (by rw [hm]; decide)).trans ((if_neg (by rw [hx]; decide)).trans
        (if_pos (Option.isSome_iff_ne_none.2 hh))))

theorem exec_xtalFailRelease_idle (hd : s.clk.xtalHeld = false ∨ s.clk.xtalQual = false) :
    exec (.xtalFailRelease lf b a) s = .next s :=
  next_congr (if_pos (by rcases hd with hd | hd <;> simp [hd]))

/-! ### The main PLL -/

theorem exec_mainPllLockCheck_idle (hd : s.clk.xtalQual = false ∨ s.clk.pllLocked = true ∨ s.supply.resetHeld ≠ none ∨
    (2 < s.power.state ∧ s.power.waking = false)) : exec (.mainPllLockCheck c lf) s = .next s :=
  next_congr (if_pos (by simpa [Option.isSome_iff_ne_none, or_assoc] using hd))

theorem exec_mainPllLockCheck (hq : s.clk.xtalQual = true) (hl : s.clk.pllLocked = false) (hh : s.supply.resetHeld = none)
    (hp : s.power.state ≤ 2 ∨ s.power.waking = true) (hv : lockVerdict 0 false c s = v) :
    exec (.mainPllLockCheck c lf) s = .next (
      let u := refreshOuts (bridge lf { v.2 with clk := { v.2.clk with pllLocked := true } })
      if !v.1 then v.2 else if restarting u Dom.ckg && decide (period v.2 < period u) then gapMisses u else u) := by
  subst hv
  refine next_congr (if_neg ?_)
  rcases hp with hp | hp <;> simp [hq, hl, hh, hp]

theorem lockVerdict_unarmed (id : Nat) (second : Bool) (ha : s.rattle.armed = []) : lockVerdict id second c s = (c, s) := by
  simp only [lockVerdict, acting, ha, smFind, Option.filter_none]

theorem pllLost_locked (hl : s.clk.pllLocked = true) :
    pllLost s = refreshOuts (lockFault 0 0 true (restartDomain Dom.ckg 3 (pllDown s))) := if_neg (by rw [hl]; decide)

theorem pllLost_unlocked (hl : s.clk.pllLocked = false) : pllLost s = s := if_pos (by rw [hl]; rfl)

end Sys2Proof.Machine

namespace Sys2Proof

open Machine

/-- Settles O31: each instant by the crystal or the PLL it is about; a check by its verdict, which nothing armed overrules
(`lockVerdict_unarmed`). -/
theorem clockInstants : Obligations.ClockInstants := by
  unfold Obligations.ClockInstants
  intro s
  refine ⟨exec_xtalQualified, exec_xtalQualified_idle, fun hm hx hh => ⟨_, exec_xtalFail hm hx hh, rfl, rfl, rfl, rfl, rfl, rfl, rfl,
    ?_, rfl, enterReset_seq 4 _⟩, fun hm hx hq => next_congr ?_, exec_xtalFail_idle,
    fun lf b a hx hq => next_congr (if_neg (by rw [hx, hq]; decide)), fun lf b a => exec_xtalFailRelease_idle, rfl,
    fun hl => next_congr (if_pos hl), fun hl => next_congr (if_neg (by rw [hl]; decide)), fun c lf hq hl hh hp => ?_,
    fun c => lockVerdict_unarmed 0 false, fun lf hb => (if_pos hb).trans rfl, fun c lf => exec_mainPllLockCheck_idle,
    fun hl => next_congr (congrArg settle (pllLost_locked hl)), fun hl => next_congr (congrArg settle (pllLost_unlocked hl))⟩
  · exact (enterReset_lf _ (by simpa using hh)).trans (by simp)
  · exact (if_neg (by rw [hm]; decide)).trans ((if_pos hx).trans (if_pos hq))
  · intro v u
    have hcheck := exec_mainPllLockCheck (c := c) (lf := lf) hq hl hh hp rfl
    exact ⟨fun hv => hcheck.trans (next_congr (if_neg (by rw [hv]; decide))),
      fun hv => hcheck.trans (next_congr (if_pos (by rw [hv]; rfl)))⟩

end Sys2Proof
end

section
/-! SUPPORT. The reference loop and cascade synchronisation (04 R99 to R103, R115 to R118). -/

namespace Sys2Proof.Machine

variable {p : Nat} {e : Int} {s : State}

/-! ### The correction -/

/-- A correction within its range moves by at most `n`, stays in range, and reaches a goal in range that is no farther than `n`. -/
theorem slewTo_bounds {n g c : Int} (hn : 0 ≤ n) (h1 : -200000 ≤ c) (h2 : c ≤ 200000) :
    |slewTo n g c - c| ≤ n ∧ -200000 ≤ slewTo n g c ∧ slewTo n g c ≤ 200000 ∧
      (|g - c| ≤ n → -200000 ≤ g → g ≤ 200000 → slewTo n g c = g) := by
  unfold slewTo clampI
  rw [abs_le, abs_le]
  omega

/-! ### Synchronisation -/

/-- What a sync instant loads: the timebase, and the accumulators of the LOs not in use. -/
def syncLoaded (p : Nat) (s : State) : State :=
  each [1, 2] (fun id t => if loInUse id t then t else onSynth id (fun y => { y with acc := some (p * 61440) }) t)
    { s with timebase := BitVec.ofNat 64 (p * 61440), clk := { s.clk with synced := true, divPhase := p * 61440 } }

section
variable (ha : parGet s P.clkSyncArm = 1) (hl : s.clk.pllLocked = true)
  (hp : parGet s P.clkSyncPeriodLo + 2 ^ 32 * parGet s P.clkSyncPeriodHi = p)
include ha hl hp

theorem exec_syncInstant_primary (hr : parGet s P.clkSyncRole = 1) (hn : now s = p * 61440) :
    exec .syncInstant s = .next (queueEvent 0x1005 1 (p % 2 ^ 32) (parSet P.clkSyncArm 0 (syncLoaded p s))) := by
  subst hp
  refine next_congr ?_
  rw [hr]
  exact if_neg (by simpa [ha, hl, periodLen] using hn)

theorem exec_syncInstant_follower (hr : parGet s P.clkSyncRole = 2) : exec .syncInstant s = .next (queueEvent 0x1005 2 (p % 2 ^ 32)
    (parSet P.clkSyncArm 0 (followerEdge (p * 1966080 : Nat) (syncLoaded p s)))) := by
  subst hp
  refine next_congr ?_
  rw [hr]
  exact if_neg (by simp [ha, hl])

end

theorem exec_syncInstant_idle (hp : parGet s P.clkSyncPeriodLo + 2 ^ 32 * parGet s P.clkSyncPeriodHi = p)
    (hd : parGet s P.clkSyncArm ≠ 1 ∨ parGet s P.clkSyncRole = 0 ∨ s.clk.pllLocked = false ∨
      (parGet s P.clkSyncRole = 1 ∧ now s ≠ p * 61440)) : exec .syncInstant s = .next s := by
  subst hp
  exact next_congr (if_pos (by simpa [periodLen] using hd))

theorem exec_syncMonitorEdge (ha : parGet s P.clkSyncArm = 2) (hr : parGet s P.clkSyncRole = 2) :
    exec (.syncMonitorEdge e) s = .next (
      let u := parSet P.clkSyncError (uint 16 (clampI (-32768) 32767 e)) (followerEdge (((now s + 30720) / 61440 * 1966080 : Nat) + e) s)
      if 4 < |e| then queueEvent 0x1006 0 (uint 32 e) (bump P.clkSyncSlips u) else u) :=
  next_congr (if_neg (by simp [ha, hr]))

end Sys2Proof.Machine

namespace Sys2Proof

open Machine

/-- Settles O32: the correction stays within its step (`slewTo_bounds`); a sync instant by the role
(`exec_syncInstant_primary`, `exec_syncInstant_follower`). -/
theorem referenceInstants : Obligations.ReferenceInstants := by
  unfold Obligations.ReferenceInstants
  intro s
  refine ⟨fun hm h2 h3 => next_congr (if_neg (by simp [hm, h2, h3])), fun hd => next_congr (if_pos hd),
    fun c h2 => next_congr (if_neg (not_not.2 h2)), fun c h2 => next_congr (if_pos h2), fun k c hd => next_congr (if_neg (by omega)),
    fun k c h2 h3 => next_congr (if_pos ⟨h2, h3⟩), fun n g c => slewTo_bounds, fun h4 => next_congr (if_neg (not_not.2 h4)),
    fun h4 => next_congr (if_pos h4), fun h5 h0 => next_congr (if_pos ⟨h5, h0⟩), fun hd => next_congr (if_neg (by omega)), ?_,
    fun e ha hr => ?_, fun e hd => next_congr (if_pos hd)⟩
  · intro p u
    exact ⟨fun ha hr hl hn => exec_syncInstant_primary ha hl rfl hr hn, fun ha hr hl => exec_syncInstant_follower ha hl rfl hr,
      exec_syncInstant_idle rfl⟩
  · intro u
    refine ⟨fun h1 h2 => ?_, fun hd => ?_⟩
    · have hsmall : ¬4 < |e| := not_lt.2 (abs_le.2 ⟨h1, h2⟩)
      have hclamp : clampI (-32768) 32767 e = e := by
        unfold clampI
        omega
      rw [exec_syncMonitorEdge ha hr, if_neg hsmall, hclamp]
    · have hlarge : 4 < |e| := lt_abs.2 (by omega)
      rw [exec_syncMonitorEdge ha hr, if_pos hlarge]

end Sys2Proof
end

section
/-! SUPPORT. Synthesiser locks, calibrations and the die temperature (04 R106 to R112, 05 R138, 08 R227, R229). -/

namespace Sys2Proof.Machine

variable {id b : Nat} {c : Bool} {t : Int} {v : Bool × State} {s : State}

/-! ### Lock checks -/

theorem exec_synthLockCheck_first (ha : synthAble id s = true) (hp : (synth s id).phase = .searching)
    (hv : lockVerdict id false c s = v) : exec (.synthLockCheck id c b) s = .next (settle (
      if v.1 then lockDeclared id b v.2 else firstCheckFails id b v.2)) := by
  subst hv
  have hsecond : ((synth s id).phase == .retrying) = false := by rw [hp]; decide
  refine next_congr ((if_neg (by rw [ha]; decide)).trans ?_)
  simp only [hsecond, Bool.false_eq_true, if_false]
  exact if_neg (fun h => h.1 hp)

theorem exec_synthLockCheck_second (ha : synthAble id s = true) (hp : (synth s id).phase = .retrying)
    (hv : lockVerdict id true c s = v) : exec (.synthLockCheck id c b) s = .next (settle (
      if v.1 then lockDeclared id b v.2 else secondCheckFails id b v.2)) := by
  subst hv
  have hsecond : ((synth s id).phase == .retrying) = true := by rw [hp]; decide
  refine next_congr ((if_neg (by rw [ha]; decide)).trans ?_)
  simp only [hsecond, Bool.not_true, Bool.false_eq_true, and_false, if_false, if_true]

theorem exec_synthLockCheck_idle
    (hd : synthAble id s = false ∨ ((synth s id).phase ≠ .searching ∧ (synth s id).phase ≠ .retrying)) :
    exec (.synthLockCheck id c b) s = .next s := by
  cases ha : synthAble id s with
  | false => exact next_congr (if_pos (by rw [ha]; rfl))
  | true =>
    rcases hd with hd | hd
    · exact absurd (ha.symm.trans hd) (by decide)
    · exact next_congr ((if_neg (by rw [ha]; decide)).trans (if_pos (by simpa using hd)))

/-! ### Lost locks -/

theorem synthLost_idle (hd : locked s id = false ∨ id = 0 ∨ 3 < id) : synthLost id b s = s :=
  if_pos (by simpa [or_assoc] using hd)

theorem synthLost_locked (hl : locked s id = true) (h1 : 1 ≤ id) (h3 : id ≤ 3) : synthLost id b s =
    if id = 2 then txFaultCut 4 (lockFault id b true (researchSynth id s))
    else if id = 3 then clFaultCut 3 (lockFault id b true (researchSynth id s))
    else lockFault id b true (researchSynth id s) := by
  have h0 : (id == 0) = false := beq_false_of_ne (by omega)
  have h4 : ¬3 < id := by omega
  exact if_neg (by simp only [hl, h0, h4, Bool.not_true, decide_false, Bool.or_self, Bool.false_eq_true, not_false_iff])

/-! ### Calibrations -/

theorem exec_fullSynthCalibrationDone (h1 : 1 ≤ id) (h3 : id ≤ 3) (hp : (synth s id).phase = .calibrating) :
    exec (.fullSynthCalibrationDone id) s = .next (
      let u := onSynth id (fun y => { y with calDue := false, phase := .off }) s
      if (synth s id).freq ≠ 0 ∧ domOn u (synthDomain id) then startLock id (synth s id).freq u
      else settle (
        let v := if (waitingFor (.lock id) u).isEmpty then u else relockWindow id u
        if (synth s id).inCal then synthPart id v else v)) := by
  refine next_congr (if_neg ?_)
  simp only [hp, ne_eq, not_true, or_false]
  omega

/-! ### The die temperature -/

/-- A sample with SEQ running: it is kept, and the trims in lock and the stale records follow it. -/
def tempNoted (t : Int) (s : State) : State :=
  staleTx t (stalePriv t (each [1, 2, 3] (fun id v => if locked v id then onSynth id (fun y => { y with trim := false }) v else v)
    (onClk (fun k => { k with dieTemp := t, calRef := some (k.calRef.getD t) }) s)))

/-- What noting a sample leaves of what neither an event, a trim nor a record holds. -/
theorem tempNoted_field {α : Type} (g : State → α) (hev : ∀ k a d u, g (queueEvent k a d u) = g u)
    (hpriv : ∀ i f u, g (onPriv i f u) = g u) (htx : ∀ (u : State) x, g { u with tx := x } = g u)
    (hsynth : ∀ id u, g (onSynth id (fun y => { y with trim := false }) u) = g u) :
    g (tempNoted t s) = g (onClk (fun k => { k with dieTemp := t, calRef := some (k.calRef.getD t) }) s) := by
  have htxStale (u : State) : g (staleTx t u) = g u := by
    unfold staleTx
    dsimp only
    split
    · rw [hev, htx]
    · rfl
  have hprivStale (u : State) : g (stalePriv t u) = g u := by
    refine each_field g _ _ _ (fun i v => ?_)
    dsimp only
    split
    · rw [hev, hpriv]
    · rfl
  rw [tempNoted, htxStale, hprivStale]
  refine each_field g _ _ _ (fun id v => ?_)
  split
  · exact hsynth id v
  · rfl

theorem onSynth_calRef (f : Synth → Synth) : (onSynth id f s).clk.calRef = s.clk.calRef := by
  unfold onSynth
  split_ifs <;> rfl

theorem onSynth_calDeferred (f : Synth → Synth) : (onSynth id f s).clk.calDeferred = s.clk.calDeferred := by
  unfold onSynth
  split_ifs <;> rfl

theorem tempNoted_calRef : (tempNoted t s).clk.calRef = some (s.clk.calRef.getD t) :=
  tempNoted_field (fun u => u.clk.calRef) (fun _ _ _ _ => by simp) (fun _ _ _ => rfl) (fun _ _ => rfl) (fun _ _ => onSynth_calRef _)

theorem tempNoted_calDeferred : (tempNoted t s).clk.calDeferred = s.clk.calDeferred :=
  tempNoted_field (fun u => u.clk.calDeferred) (fun _ _ _ _ => by simp) (fun _ _ _ => rfl) (fun _ _ => rfl)
    (fun _ _ => onSynth_calDeferred _)

theorem tempNoted_supply : (tempNoted t s).supply = s.supply :=
  tempNoted_field State.supply (fun _ _ _ _ => by simp) (fun _ _ _ => rfl) (fun _ _ => rfl) (fun _ _ => by simp)

/-- What a sample leads to once it is noted, where the temperature last calibrated at is `ref`. -/
def tempJudged (t ref : Int) (deferred brown : Bool) (u : State) : State :=
  if decide (|t - ref| < 80) || deferred then u
  else if brown then { u with clk := { u.clk with calDeferred := true } }
  else tempCal u

theorem exec_tempSample (hr : s.seq.running = true) : exec (.tempSample t) s = .next (
    tempJudged t (s.clk.calRef.getD t) s.clk.calDeferred s.supply.brown (tempNoted t s)) := by
  have hnoted : exec (.tempSample t) s = .next (tempJudged t ((tempNoted t s).clk.calRef.getD t) (tempNoted t s).clk.calDeferred
      (tempNoted t s).supply.brown (tempNoted t s)) := by
    refine next_congr ((if_neg (by rw [hr]; decide)).trans ?_)
    delta tempJudged tempNoted
    exact rfl
  rw [hnoted, tempNoted_calRef, tempNoted_calDeferred, tempNoted_supply, Option.getD_some]

theorem tempJudged_near {ref : Int} {deferred brown : Bool} (hd : |t - ref| < 80 ∨ deferred = true) :
    tempJudged t ref deferred brown s = s := if_pos (by simpa using hd)

theorem tempJudged_far {ref : Int} {brown : Bool} (ht : 80 ≤ |t - ref|) : tempJudged t ref false brown s =
    if brown then { s with clk := { s.clk with calDeferred := true } } else tempCal s := if_neg (by simp [not_lt.2 ht])

end Sys2Proof.Machine

namespace Sys2Proof

open Machine

/-- Settles O33: a check by its place in the search (`exec_synthLockCheck_first`, `exec_synthLockCheck_second`); a sample
by its distance from the last calibration (`tempJudged_far`). -/
theorem synthInstants : Obligations.SynthInstants := by
  unfold Obligations.SynthInstants
  intro s
  refine ⟨fun id c b ha hp => ?_, fun id c b ha hp => ?_, fun id second c => lockVerdict_unarmed id second,
    fun id c b => exec_synthLockCheck_idle, fun b hl => next_congr (congrArg settle (synthLost_locked hl (by decide) (by decide))),
    fun b hl => next_congr (congrArg settle (synthLost_locked hl (by decide) (by decide))),
    fun b hl => next_congr (congrArg settle (synthLost_locked hl (by decide) (by decide))),
    fun id b hd => next_congr (congrArg settle (synthLost_idle hd)), fun id h1 h3 hp => ?_, fun id hd => next_congr (if_pos hd),
    fun hq => next_congr (if_neg (by rw [hq]; decide)), fun hq => next_congr (if_pos (by rw [hq]; rfl)),
    fun t hr => next_congr (if_pos (by rw [hr]; rfl)), fun t hr => ?_⟩
  · intro v
    have hcheck := exec_synthLockCheck_first (c := c) (b := b) ha hp rfl
    exact ⟨fun hv => hcheck.trans (next_congr (congrArg settle (if_pos hv))),
      fun hv => hcheck.trans (next_congr (congrArg settle (if_neg (Bool.eq_false_iff.1 hv))))⟩
  · intro v
    have hcheck := exec_synthLockCheck_second (c := c) (b := b) ha hp rfl
    exact ⟨fun hv => hcheck.trans (next_congr (congrArg settle (if_pos hv))),
      fun hv => hcheck.trans (next_congr (congrArg settle (if_neg (Bool.eq_false_iff.1 hv))))⟩
  · intro u
    have hdone := exec_fullSynthCalibrationDone h1 h3 hp
    refine ⟨fun hf ho => hdone.trans (next_congr (if_pos ⟨hf, ho⟩)), fun hd => hdone.trans (next_congr (if_neg ?_))⟩
    rintro ⟨hf, ho⟩
    exact hd.elim hf (Bool.eq_false_iff.1 · ho)
  · intro u
    have hu : tempNoted t s = u := rfl
    rw [exec_tempSample hr, hu]
    exact ⟨fun hd => next_congr (tempJudged_near hd), fun ht hd => by rw [hd, tempJudged_far ht]⟩

end Sys2Proof
end

section
/-! SUPPORT. Image calibration, the privileged calibration and the scan (04 R113, R114, 05 R133 to R147). -/

namespace Sys2Proof.Machine

variable {n i a : Nat} {sc : Scan} {m : List ScanMeas} {s : State}

/-! ### The image calibration -/

theorem exec_imageCalAlarm (ha : a ≤ 1) (hi : i < 55) (hm : s.rf.imageCal ≠ 1) (hb : 2000 ≤ (chain a s).below)
    (hr : (chain a s).irrAlarmed = false) : exec (.imageCalAlarm a i) s = .next
      (queueEvent 0x2002 a i (onChain a (fun c => { c with irr := i, irrAlarmed := true }) s)) := by
  have hmod : i % 256 = i := Nat.mod_eq_of_lt (by omega)
  have ha' : ¬1 < a := by omega
  have hi' : ¬55 ≤ i := by omega
  have hb' : ¬(chain a s).below < secPeriods := Nat.not_lt.2 hb
  refine next_congr ((if_neg (by simp only [ha', hi', hm, hb', hr, Bool.false_eq_true, or_self, not_false_iff])).trans ?_)
  rw [hmod]

/-! ### The privileged calibration -/

theorem exec_privCalDone_none (v w x y : Int) (hp : privOf s n = none) : exec (.privCalDone n v w x y) s = .next s := by
  refine next_congr ?_
  rw [hp]

theorem toneOver_iff {o : Option Nat} {t : Nat} : o.any (fun u => decide (u + 122880 ≤ t)) = true ↔ ∃ u, o = some u ∧ u + 122880 ≤ t := by
  cases o <;> simp

theorem exec_privCalDone_early (v w x y : Int) (hd : measured s ≠ some n ∨ ∀ t, s.rf.toneAt = some t → now s < t + 122880) :
    exec (.privCalDone n v w x y) s = .next s := by
  cases hp : privOf s n with
  | none => exact exec_privCalDone_none v w x y hp
  | some i =>
    refine next_congr ?_
    rw [hp]
    refine if_pos (hd.imp_right fun ht => ?_)
    rw [Bool.not_eq_true', Bool.eq_false_iff]
    intro h
    obtain ⟨t, hs, hn⟩ := toneOver_iff.1 h
    exact absurd (ht t hs) (Nat.not_lt.2 hn)

/-- The record that is measured becomes valid, and the lanes of its link take the path. -/
def privValid (n i : Nat) (v w x y : Int) (s : State) : State :=
  withTone (onPriv i (fun r => { r with
    valid := true, stale := false, measuring := false, temp := s.clk.dieTemp, freq := (link s n).freq
    aRe := clampI (-32768) 32767 v, aIm := clampI (-32768) 32767 w, bRe := clampI (-32768) 32767 x
    bIm := clampI (-32768) 32767 y })) s

theorem now_privValid (v w x y : Int) : now (privValid n i v w x y s) = now s := by
  unfold privValid withTone
  dsimp only
  split <;> rfl

theorem exec_privCalDone (v w x y : Int) {t : Nat} (hp : privOf s n = some i) (hm : measured s = some n) (ht : s.rf.toneAt = some t)
    (hn : t + 122880 ≤ now s) : exec (.privCalDone n v w x y) s = .next (
      let u := onLink n (pathFrom true (now s)) (privValid n i v w x y s)
      settle (imagePart (doneWaiting (.privCal n)
        (if calWants 1 u && (waitingFor (.privCal n) u).isEmpty then queueEvent 0x2004 n i u else u)))) := by
  rw [← now_privValid (n := n) (i := i) v w x y]
  refine next_congr ?_
  rw [hp]
  refine if_neg ?_
  rintro (h | h)
  · exact h hm
  · rw [Bool.not_eq_true', Bool.eq_false_iff] at h
    exact h (toneOver_iff.2 ⟨t, ht, hn⟩)

/-! ### The scan -/

theorem linearScan_iff : linearScan s = true ↔ parGet s P.clkRampProfile = 1 := beq_iff_eq

theorem exec_scanDwellEnd_none (hs : s.rf.scan = none) : exec (.scanDwellEnd m) s = .next s := by
  refine next_congr ?_
  rw [hs]

theorem exec_scanDwellEnd_unlocked (hl : locked s 1 = false) : exec (.scanDwellEnd m) s = .next s := by
  cases hs : s.rf.scan with
  | none => exact exec_scanDwellEnd_none hs
  | some sc =>
    refine next_congr ?_
    rw [hs]
    exact if_pos (by rw [hl]; rfl)

theorem exec_scanDwellEnd (hs : s.rf.scan = some sc) (hl : locked s 1 = true) : exec (.scanDwellEnd m) s = .next (
    if linearScan s then { s with free := s.free + 1, rf := { s.rf with scan := some (measureDwell m sc s) } }
    else if sc.stop < sc.f ∨ now s < sc.began + usTicks (parGet s P.clkRampDwell) then s
    else
      let u := { s with free := s.free + 1, rf := { s.rf with scan := some { measureDwell m sc s with
        f := sc.f + 16 * sc.step, began := now s, loFree := loFree s } } }
      if sc.stop < sc.f + 16 * sc.step then u else moveLo u) := by
  refine next_congr ?_
  rw [hs]
  exact if_neg (by rw [hl]; decide)

theorem exec_scanDwellEnd_early (hs : s.rf.scan = some sc) (hr : parGet s P.clkRampProfile ≠ 1)
    (hd : sc.stop < sc.f ∨ now s < sc.began + usTicks (parGet s P.clkRampDwell)) : exec (.scanDwellEnd m) s = .next s := by
  cases hl : locked s 1 with
  | false => exact exec_scanDwellEnd_unlocked hl
  | true => exact (exec_scanDwellEnd hs hl).trans (next_congr ((if_neg (mt linearScan_iff.1 hr)).trans (if_pos hd)))

/-- Whether a pass of the scan is still under way. -/
def passRuns (sc : Scan) (s : State) : Bool :=
  if linearScan s then !travelled sc s (sc.stop - sc.start) else decide (sc.f ≤ sc.stop)

theorem passRuns_ended (hp : if parGet s P.clkRampProfile = 1 then travelled sc s (sc.stop - sc.start) = true else sc.stop < sc.f) :
    ¬passRuns sc s = true := by
  unfold passRuns
  by_cases hr : parGet s P.clkRampProfile = 1
  · rw [if_pos hr] at hp
    rw [if_pos (linearScan_iff.2 hr), hp]
    decide
  · rw [if_neg hr] at hp
    rw [if_neg (mt linearScan_iff.1 hr), decide_eq_true_eq]
    exact Nat.not_le.2 hp

theorem passRuns_of (hp : if parGet s P.clkRampProfile = 1 then travelled sc s (sc.stop - sc.start) = false else sc.f ≤ sc.stop) :
    passRuns sc s = true := by
  unfold passRuns
  by_cases hr : parGet s P.clkRampProfile = 1
  · rw [if_pos hr] at hp
    rw [if_pos (linearScan_iff.2 hr), hp]
    rfl
  · rw [if_neg hr] at hp
    rw [if_neg (mt linearScan_iff.1 hr)]
    exact decide_eq_true hp

theorem exec_scanPassEnd_none (hs : s.rf.scan = none) : exec .scanPassEnd s = .next s := by
  refine next_congr ?_
  rw [hs]

theorem exec_scanPassEnd (hs : s.rf.scan = some sc) : exec .scanPassEnd s = .next (
    if passRuns sc s then s
    else
      let total := sc.pass.foldl joinPass sc.total
      let t := each (sc.pass.map Prod.fst) (writeBin total) s
      let u := { t with free := t.free + 1 }
      let v := parSet P.rfrScanPasses (min 255 (sc.done + 1)) { u with rf := { u.rf with scan := some { sc with
        done := sc.done + 1, f := sc.start, began := now u, loFree := loFree u, seen := [], pass := [], total := total } } }
      settle (if sc.passes = sc.done + 1 then endScan v else moveLo v)) := by
  refine next_congr ?_
  rw [hs]
  rfl

end Sys2Proof.Machine

namespace Sys2Proof

open Machine

/-- Settles O34: each instant by the record or the scan that it ends (`exec_privCalDone`, `exec_scanDwellEnd`,
`exec_scanPassEnd`). -/
theorem rfInstants : Obligations.RfInstants := by
  unfold Obligations.RfInstants
  intro s
  refine ⟨fun hm ht => next_congr (if_neg (by omega)), fun hd => next_congr (if_pos hd),
    fun i hi hm hb hr => exec_imageCalAlarm (by decide) hi hm hb hr, fun i hi hm hb hr => exec_imageCalAlarm (by decide) hi hm hb hr,
    fun a i hd => next_congr (if_pos hd), fun n i a b c d t hp hm ht hn => exec_privCalDone a b c d hp hm ht hn,
    fun n a b c d hd => ?_, fun sc m hs hl hr hf hn => ?_, fun sc m hs hl hr => ?_, fun m hd => ?_,
    fun sc m hs hr hd => exec_scanDwellEnd_early hs hr hd, fun sc hs hp => ?_, fun sc hs hp => ?_, exec_scanPassEnd_none⟩
  · rcases hd with hd | hd
    · exact exec_privCalDone_none a b c d hd
    · exact exec_privCalDone_early a b c d hd
  · have hdwell := (exec_scanDwellEnd (m := m) hs hl).trans (next_congr ((if_neg (mt linearScan_iff.1 hr)).trans (if_neg (by omega))))
    exact ⟨fun h => hdwell.trans (next_congr (if_pos h)), fun h => hdwell.trans (next_congr (if_neg (Nat.not_lt.2 h)))⟩
  · exact (exec_scanDwellEnd hs hl).trans (next_congr (if_pos (linearScan_iff.2 hr)))
  · exact hd.elim exec_scanDwellEnd_none exec_scanDwellEnd_unlocked
  · have hpass := (exec_scanPassEnd hs).trans (next_congr (if_neg (passRuns_ended hp)))
    intro total t u v
    exact ⟨fun h => hpass.trans (next_congr (congrArg settle (if_pos h))), fun h => hpass.trans (next_congr (congrArg settle (if_neg h)))⟩
  · exact (exec_scanPassEnd hs).trans (next_congr (if_pos (passRuns_of hp)))

end Sys2Proof
end

section
/-! SUPPORT. Ends of a session and of its key change, and the instants of audio ports (09 R268, R272, 11 R314 to R327). -/

namespace Sys2Proof.Machine

variable {n p : Nat} {k : KeyChange} {s : State}

/-! ### Sessions -/

theorem exec_sessionRemoved_kept {r : Nat} (hd : (session s n).phase ≠ .removing ∨ r = 0 ∨ 3 < r ∨ (r = 1 ∧ (session s n).remove = true) ∨
    (r = 2 ∧ s.cl.phase = .running) ∨ (r = 3 ∧ now s < (session s n).removeAt + sec1)) : exec (.sessionRemoved n r) s = .next s := by
  refine next_congr (if_neg ?_)
  rcases hd with hd | rfl | hd | ⟨rfl, hd⟩ | ⟨rfl, hd⟩ | ⟨rfl, hd⟩
  · simp [hd]
  · simp
  · obtain ⟨m, rfl⟩ : ∃ m, r = m + 4 := ⟨r - 4, by omega⟩
    simp
  · simp [hd]
  · simp [hd]
  · simp [hd]

theorem exec_keyChangeBoundary_none (hk : (session s n).change = none) : exec (.keyChangeBoundary n) s = .next s := by
  refine next_congr ?_
  rw [hk]

theorem exec_keyChangeBoundary (hk : (session s n).change = some k) : exec (.keyChangeBoundary n) s = .next (
    if k.switched || decide (period s < k.n) then s
    else if k.confirmed then
      onSession n (fun x => { x with
        epoch := (x.epoch + 1) % 2 ^ 32, key := x.pendKey, pendKey := x.key, change := some { k with switched := true } }) s
    else onSession n (fun x => { x with change := some { k with n := k.n + 20 * parGet s P.clKeyLead, half := 0 } }) s) := by
  refine next_congr ?_
  rw [hk]

theorem keyChange_due (h1 : k.switched = false) (h2 : k.n ≤ period s) : ¬(k.switched || decide (period s < k.n)) = true := by
  simp [h1, h2]

end Sys2Proof.Machine

namespace Sys2Proof

open Machine

/-- Settles O41: a removal by its reason (`exec_sessionRemoved_kept`), a key change by its boundary (`keyChange_due`). -/
theorem sessionInstants : Obligations.SessionInstants := by
  unfold Obligations.SessionInstants
  intro n s
  refine ⟨fun hp hr => next_congr (if_pos (by simp [hp, hr])), fun hp hr => next_congr (if_pos (by simp [hp, hr])),
    fun hp hr => next_congr (if_pos (by simp [hp, hr])), fun r => exec_sessionRemoved_kept,
    fun k hk h1 h2 hc => (exec_keyChangeBoundary hk).trans (next_congr ((if_neg (keyChange_due h1 h2)).trans (if_pos hc))),
    fun k hk h1 h2 hc => (exec_keyChangeBoundary hk).trans (next_congr ((if_neg (keyChange_due h1 h2)).trans
      (if_neg (Bool.eq_false_iff.1 hc)))),
    fun k hk hd => (exec_keyChangeBoundary hk).trans (next_congr (if_pos (by simpa using hd))), exec_keyChangeBoundary_none⟩

end Sys2Proof
end

section
/-! SUPPORT. The instants of audio ports (11 R314 to R327). -/

namespace Sys2Proof.Machine

variable {p c us r o t : Nat} {x : Int} {f : Bool} {s : State}

/-! ### Without a clock -/

theorem portsHeld (hu : unclocked s = true) : exec (.portStartInstant p) s = .next s ∧ exec .startTrig s = .next s ∧
    exec (.portStopped p) s = .next s ∧ exec (.portLost p c) s = .next s ∧ exec (.portEdgesReturn p) s = .next s ∧
    exec (.portReturned p us) s = .next s ∧ exec (.asrcAcquired p) s = .next s ∧ exec (.portGlitch p) s = .next s ∧
    exec (.portSlip p f) s = .next s ∧ exec (.portRateMeasured p r x o) s = .next s := by
  refine ⟨next_congr ?_, next_congr (if_pos (by simp [hu])), next_congr (if_pos (by simp [hu])), next_congr (if_pos (by simp [hu])),
    next_congr (if_neg (by simp [hu])), next_congr (if_neg (by simp [hu])), next_congr (if_neg (by simp [hu])),
    next_congr (if_neg (by simp [hu])), next_congr (if_neg (by simp [hu])), next_congr (if_pos (by simp [hu]))⟩
  split
  · exact if_pos (by simp [hu])
  · rfl

/-! ### Start and stop -/

theorem exec_portStartInstant (hp : (port s p).phase = .armed) (ha : (port s p).startAt = some t) :
    exec (.portStartInstant p) s = .next (
      if decide (now s < t) || !domOn s Dom.aud || unclocked s then s
      else queueEvent 0x6005 p (t % 2 ^ 32) (parSet P.audStartTimeLo (t % 2 ^ 32) (parSet P.audStartTimeHi (t / 2 ^ 32)
        (onPort p (fun q => { q with
          phase := .running, startAt := none, differs := 0
          acquired := !isSlip (port s p).cfg && q.cfg.role == 0, fade := if isSlip (port s p).cfg then 2 else 0 }) s)))) := by
  refine next_congr ?_
  rw [hp, ha]

theorem exec_portStartInstant_idle (hd : (port s p).phase ≠ .armed ∨ (port s p).startAt = none ∨ domOn s Dom.aud = false ∨
    ∃ t, (port s p).startAt = some t ∧ now s < t) : exec (.portStartInstant p) s = .next s := by
  by_cases hp : (port s p).phase = .armed
  · cases ha : (port s p).startAt with
    | none =>
      refine next_congr ?_
      rw [hp, ha]
    | some t =>
      refine (exec_portStartInstant hp ha).trans (next_congr (if_pos ?_))
      rcases hd with hd | hd | hd | ⟨u, hu, hd⟩
      · exact absurd hp hd
      · exact absurd (ha.symm.trans hd) nofun
      · simp [hd]
      · obtain rfl := Option.some.inj (ha.symm.trans hu)
        simp [hd]
  · refine next_congr ?_
    split
    · next h _ => exact absurd h hp
    · rfl

/-- The trigger sets S for the armed ports that wait for it. -/
theorem exec_startTrig (hu : unclocked s = false) (ha : domOn s Dom.aud = true) (hi : s.supply.ioaOn = true) :
    exec .startTrig s = .next (each (List.range 6) (fun i => onPort i (fun q =>
      if q.phase = .armed ∧ q.start = 1 ∧ q.startAt = none then { q with startAt := some (ceilDiv (now s + 1229) 2560 * 2560) } else q))
        (bump P.audStartTrigs s)) := by
  have harm : (fun q : Port => if q.phase == .armed && q.start == 1 && q.startAt.isNone then
      { q with startAt := some (ceilDiv (now s + 1229) 2560 * 2560) } else q) = (fun q =>
      if q.phase = .armed ∧ q.start = 1 ∧ q.startAt = none then { q with startAt := some (ceilDiv (now s + 1229) 2560 * 2560) } else q) :=
    funext fun q => if_congr (by simp [and_assoc]) rfl rfl
  rw [← harm]
  exact next_congr (if_neg (by simp [hu, ha, hi]))

/-! ### The measured rate -/

/-- What a measurement leads to, from the port `q` as it was and the machine with the measurement taken. -/
def rateJudged (p : Nat) (q : Port) (s : State) : State :=
  let cls := portClass (port s p)
  let same := cls == cfgClass q.cfg
  match q.phase with
  | .running =>
    if same then onPort p (fun q => { q with differs := 0 }) s
    else if q.differs = 0 then onPort p (fun q => { q with differs := 1 }) s
    else muteRate p s
  | .reacquiring => if same then s else muteRate p s
  | _ =>
    if same then onPort p (fun q => { q with phase := .reacquiring }) s
    else if cls = portClass q then s else followRate p s

theorem exec_portRateMeasured (hu : unclocked s = false) (hc : clocked (port s p) = true) :
    exec (.portRateMeasured p r x o) s = .next (rateJudged p (port s p) (onPort p (measuredPort r x o) s)) := by
  refine next_congr ((if_neg (by simp [hu, hc])).trans ?_)
  delta rateJudged
  exact rfl

section
variable {q : Port} {u : State}

theorem rateJudged_running (hp : q.phase = .running) : rateJudged p q u =
    if portClass (port u p) = cfgClass q.cfg then onPort p (fun q => { q with differs := 0 }) u
    else if q.differs = 0 then onPort p (fun q => { q with differs := 1 }) u else muteRate p u := by
  simp only [rateJudged, hp, beq_iff_eq]

theorem rateJudged_reacquiring (hp : q.phase = .reacquiring) : rateJudged p q u =
    if portClass (port u p) = cfgClass q.cfg then u else muteRate p u := by
  simp only [rateJudged, hp, beq_iff_eq]

theorem rateJudged_muted (hp : q.phase = .rateMuted) : rateJudged p q u =
    if portClass (port u p) = cfgClass q.cfg then onPort p (fun q => { q with phase := .reacquiring }) u
    else if portClass (port u p) = portClass q then u else followRate p u := by
  simp only [rateJudged, hp, beq_iff_eq]

theorem measuredPort_onGrid : (measuredPort r x o q).onGrid =
    (if 246 ≤ o then false else q.onGrid || (decide (o ≤ 122) && decide (49 ≤ q.gridRun))) := by
  have hrun : ((if o ≤ 122 then min 50 (q.gridRun + 1) else 0) == 50) = (decide (o ≤ 122) && decide (49 ≤ q.gridRun)) := by
    rw [Bool.eq_iff_iff, beq_iff_eq, Bool.and_eq_true, decide_eq_true_eq, decide_eq_true_eq]
    split <;> omega
  simp only [measuredPort, gridStep, hrun]

end

end Sys2Proof.Machine

namespace Sys2Proof

open Machine

/-- Settles O42: without a clock no row acts (`portsHeld`); a measured rate by the phase of the port (`rateJudged_…`). -/
theorem portInstants : Obligations.PortInstants := by
  unfold Obligations.PortInstants
  intro p s
  refine ⟨fun hu c us f r x o => portsHeld hu, fun hu => ⟨fun t hp ha ht hd => ?_,
    fun t ha ht => exec_portStartInstant_idle (.inr (.inr (.inr ⟨t, ha, ht⟩))),
    fun hd => exec_portStartInstant_idle (hd.imp_right (Or.imp_right .inl)), exec_startTrig hu,
    fun hd => next_congr (if_pos (by rcases hd with hd | hd <;> simp [hd])), fun hs ht => next_congr (if_neg (by simp [hu, hs, ht])),
    fun hd => next_congr (if_pos (by rcases hd with hd | hd <;> simp [hd])), fun c hr hp => next_congr (if_neg ?_),
    fun c hc => next_congr (if_pos (by simp [hc])), fun hp => next_congr (if_pos (by simp [hu, hp])),
    fun hp => next_congr (if_neg (by simp [hp])), fun us hp => next_congr (if_pos (by simp [hu, hp])),
    fun us hp => next_congr (if_neg (by simp [hp])), fun hp hs => next_congr (if_pos (by simp [hu, hp, hs])),
    fun hd => next_congr (if_neg (by rcases hd with hd | hd <;> simp [hd])), fun hr hp => next_congr (if_pos (by simp [hu, hr, hp])),
    fun hd => ⟨next_congr (if_neg (by rcases hd with hd | hd <;> simp [hd])),
      fun f => next_congr (if_neg (by rcases hd with hd | hd <;> simp [hd]))⟩,
    fun f hs hr hp => next_congr (if_pos (by simp [hu, hs, hr, hp])), fun f hs => next_congr (if_neg (by simp [hs])),
    fun r x o hc => next_congr (if_pos (by simp [hc])), fun r x o hc => ?_, fun r x o q => ⟨rfl, rfl, measuredPort_onGrid⟩⟩⟩
  · exact (exec_portStartInstant hp ha).trans (next_congr (if_neg (by simp [hu, ht, hd])))
  · have hclocked : clocked (port s p) = true := by
      rcases hp with hp | hp | hp <;> simp [clocked, hr, hp]
    simp [hclocked, hu]
  · intro u same
    have hjudged : exec (.portRateMeasured p r x o) s = .next (rateJudged p (port s p) u) := exec_portRateMeasured hu hc
    rw [hjudged]
    refine ⟨fun hp => ?_, fun hp => ?_, fun hp => ?_⟩
    · rw [rateJudged_running hp]
      exact ⟨fun hs => next_congr (if_pos hs), fun hs hd => next_congr ((if_neg hs).trans (if_pos hd)),
        fun hs hd => next_congr ((if_neg hs).trans (if_neg hd))⟩
    · rw [rateJudged_reacquiring hp]
      exact ⟨fun hs => next_congr (if_pos hs), fun hs => next_congr (if_neg hs)⟩
    · rw [rateJudged_muted hp]
      exact ⟨fun hs => next_congr (if_pos hs), fun hs hd => next_congr ((if_neg hs).trans (if_pos hd)),
        fun hs hd => next_congr ((if_neg hs).trans (if_neg hd))⟩

end Sys2Proof
end

section
/-! SUPPORT. Zero crossings, timeouts and fade ends of the router (11 R331, R334, R335). -/

namespace Sys2Proof.Machine

variable {e : Option Int} {x : List Int} {i : Nat}

theorem firstCrossing_iff : firstCrossing e x = some i ↔ i < 24 ∧ crossesAt e x i = true ∧ ∀ j, j < i → crossesAt e x j = false := by
  unfold firstCrossing
  rw [List.find?_range_eq_some]
  simp only [List.mem_range, Bool.not_eq_true']
  exact ⟨fun ⟨hc, hi, hj⟩ => ⟨hi, hc, hj⟩, fun ⟨hi, hc, hj⟩ => ⟨hc, hi, hj⟩⟩

theorem crossesAt_succ : crossesAt e x (i + 1) = true ↔ x.getD i 0 * x.getD (i + 1) 0 ≤ 0 := by
  rw [crossesAt, if_neg (Nat.succ_ne_zero i), decide_eq_true_eq, Nat.add_sub_cancel]

end Sys2Proof.Machine

namespace Sys2Proof

open Machine

/-- Settles O43: the first crossing is the least sample with a product of 0 or less (`firstCrossing_iff`,
`crossesAt_succ`). -/
theorem routerInstants : Obligations.RouterInstants := by
  unfold Obligations.RouterInstants
  intro b n s
  refine ⟨fun i hp hc => next_congr (if_neg (by simp [hp, hc])), fun i hd => next_congr (if_pos hd), fun e x i => firstCrossing_iff,
    fun e x i => crossesAt_succ, fun hp ht => next_congr (if_neg ?_), fun hd => next_congr (if_pos hd),
    fun hf he => next_congr (if_pos (by simp [hf, he])), fun hd => next_congr (if_neg (by rcases hd with hd | hd <;> simp [hd]))⟩
  rintro (h | h)
  · exact h hp
  · exact absurd h (Nat.not_lt.2 ht)

end Sys2Proof
end

section
/-! SUPPORT. The instants of local analog audio (12 R342 to R359). -/

namespace Sys2Proof.Machine

variable {t j n : Nat} {b : Bool} {s : State}

/-! ### Sequences -/

theorem sequenceEnds_input (hu : (ana s t).up = true) (ht : t < 6) :
    sequenceEnds t s = onAna t (fun _ => { ana s t with phase := 2 }) s := by
  simp only [sequenceEnds, hu, ht, if_true]

theorem sequenceEnds_output (hu : (ana s t).up = true) (ht : 6 ≤ t) :
    sequenceEnds t s = onAna t (fun _ => { ana s t with phase := 2, ramp := Ramp.at (outGain s t) }) s := by
  simp only [sequenceEnds, hu, Nat.not_lt.2 ht, if_true, if_false]

theorem sequenceEnds_down (hu : (ana s t).up = false) : sequenceEnds t s = onAna t (fun _ => AnaObj.reset) s := by
  simp only [sequenceEnds, hu, Bool.false_eq_true, if_false]

theorem exec_analogSequenceEnd (hp : (ana s t).phase = 1 ∨ (ana s t).phase = 3) (he : (ana s t).endAt ≤ now s) :
    exec (.analogSequenceEnd t) s = .next (settle (doneWaiting (.analogSeq t) (sequenceEnds t s))) :=
  next_congr (if_neg (by omega))

/-! ### Jacks -/

theorem exec_jackChanged_first (hd : domDown s Dom.ana = false) (hb : s.ana.jack1 ≠ b)
    (ht : s.ana.jack1At + msTicks (parGet s P.audJackState8) ≤ now s) : exec (.jackChanged 1 b) s = .next (reviseJacks
      (queueEvent 0x6010 1 (if b then 1 else 0) (bump P.audJackChanges { s with ana := { s.ana with jack1 := b, jack1At := now s } }))) :=
  next_congr (if_neg (by simp [hd, hb, ht]))

theorem exec_jackChanged_second (hd : domDown s Dom.ana = false) (hb : s.ana.jack2 ≠ b)
    (ht : s.ana.jack2At + msTicks (parGet s P.audJackState8) ≤ now s) : exec (.jackChanged 2 b) s = .next (reviseJacks
      (queueEvent 0x6010 2 (if b then 1 else 0) (bump P.audJackChanges { s with ana := { s.ana with jack2 := b, jack2At := now s } }))) :=
  next_congr (if_neg (by simp [hd, hb, ht]))

theorem exec_jackChanged_idle (hd : domDown s Dom.ana = true ∨ (j ≠ 1 ∧ j ≠ 2) ∨
    (j = 1 ∧ (s.ana.jack1 = b ∨ now s < s.ana.jack1At + msTicks (parGet s P.audJackState8))) ∨
    (j = 2 ∧ (s.ana.jack2 = b ∨ now s < s.ana.jack2At + msTicks (parGet s P.audJackState8)))) :
    exec (.jackChanged j b) s = .next s := by
  refine next_congr (if_pos ?_)
  rcases hd with hd | hd | ⟨rfl, hd⟩ | ⟨rfl, hd⟩
  · simp [hd]
  · simp [hd]
  · show (domDown s Dom.ana || _ || s.ana.jack1 == b || decide (now s < s.ana.jack1At + msTicks (parGet s P.audJackState8))) = true
    rcases hd with hd | hd <;> simp [hd]
  · show (domDown s Dom.ana || _ || s.ana.jack2 == b || decide (now s < s.ana.jack2At + msTicks (parGet s P.audJackState8))) = true
    rcases hd with hd | hd <;> simp [hd]

/-! ### The speaker -/

theorem exec_spkOvercurrent (hl : speakerLive s = true)
    (hlength : decide (3 ≤ (now s :: s.ana.spkFaults.filter (fun t => now s < t + sec1)).length) = b) :
    exec .spkOvercurrent s = .next (settle (clampSpeaker 1 b
      { s with ana := { s.ana with spkFaults := now s :: s.ana.spkFaults.filter (fun t => now s < t + sec1) } })) :=
  (next_congr (if_neg (by rw [hl]; decide))).trans (next_congr (congrArg (fun b => settle (clampSpeaker 1 b _)) hlength))

end Sys2Proof.Machine

namespace Sys2Proof

open Machine

/-- Settles O44: a sequence by what it ends in (`sequenceEnds_…`), a jack by its own debounce, an overcurrent by how many
faults lie within 1 s. -/
theorem analogInstants : Obligations.AnalogInstants := by
  unfold Obligations.AnalogInstants
  intro s
  have hend {t : Nat} {u : State} (hp : (ana s t).phase = 1 ∨ (ana s t).phase = 3) (he : (ana s t).endAt ≤ now s)
      (hu : sequenceEnds t s = u) : exec (.analogSequenceEnd t) s = .next (settle (doneWaiting (.analogSeq t) u)) :=
    hu ▸ exec_analogSequenceEnd hp he
  refine ⟨fun t hp he hu ht => hend hp he (sequenceEnds_input hu ht), fun t hp he hu ht => hend hp he (sequenceEnds_output hu ht),
    fun t hp he hu => hend hp he (sequenceEnds_down hu), fun t hd => next_congr (if_pos hd), fun b => exec_jackChanged_first,
    fun b => exec_jackChanged_second, fun j b => exec_jackChanged_idle, fun hl hf => ?_, fun hl hf => ?_,
    fun hl => next_congr (if_neg (by rw [hl]; decide)),
    fun hl => ⟨next_congr (if_pos (by rw [hl]; rfl)), next_congr (if_pos (by rw [hl]; rfl))⟩,
    fun hr hd ht => next_congr (if_neg (by simp [hr, hd, ht])),
    fun hd => next_congr (if_pos (by rcases hd with hd | hd | hd <;> simp [hd])),
    fun n hn hd hp hl => next_congr (if_neg ?_), fun n hd => next_congr (if_pos ?_), fun n hn => next_congr (if_pos hn),
    fun n hn => next_congr (if_neg (by omega))⟩
  · have hlength : decide (3 ≤ (now s :: s.ana.spkFaults.filter (fun t => now s < t + sec1)).length) = false := by
      rw [List.length_cons]
      exact decide_eq_false (by omega)
    exact exec_spkOvercurrent hl hlength
  · have hlength : decide (3 ≤ (now s :: s.ana.spkFaults.filter (fun t => now s < t + sec1)).length) = true := by
      rw [List.length_cons]
      exact decide_eq_true (by omega)
    exact exec_spkOvercurrent hl hlength
  · rcases hn with rfl | rfl <;> simp [hd, hp, hl]
  · rcases hd with hd | hd | hd | hd <;> simp [hd]

end Sys2Proof
end

section
/-! SUPPORT. The instants of the instrumentation (13 R368 to R385) while ANA is on. -/

namespace Sys2Proof.Machine

variable {t p n ch : Nat} {v : Int} {c : Conv} {s : State}

/-! ### Triggers -/

theorem exec_timerTick (hd : domDown s Dom.ana = false) (hn : t ≤ 3) (ho : timerOn s t = true)
    (hk : now s % (10 * parGet s (P.measTmPeriod t)) = 10 * parGet s (P.measTmPhase t)) :
    exec (.timerTick t) s = .next (each (List.range 8) (fun c u => match (cdac u c).pending with
      | some (v, code) => if v = t + 1 then onCdac c (Cdac.aim (now u) code) u else u
      | none => u) (triggerAll (2 + t) s)) :=
  next_congr (if_neg (by simp [hd, Nat.not_lt.2 hn, ho, ticksNow, hk]))

theorem exec_timerTick_idle (h : 3 < t ∨ timerOn s t = false ∨
      now s % (10 * parGet s (P.measTmPeriod t)) ≠ 10 * parGet s (P.measTmPhase t)) :
    exec (.timerTick t) s = .next s :=
  next_congr (if_pos (by rcases h with h | h | h <;> simp [h, ticksNow]))

theorem exec_pwmEdgeTrigger (hd : domDown s Dom.ana = false) (hn : p ≤ 3) (ho : parGet s (P.measPwmCfg p) = 1)
    (hr : (pwmNow s p).rises (parGet s (P.measPwmCfg1 p) == 1) = some (now s)) :
    exec (.pwmEdgeTrigger p) s = .next (triggerAll (6 + p) s) :=
  next_congr (if_neg (by simp [hd, Nat.not_lt.2 hn, ho, hr]))

theorem exec_pwmEdgeTrigger_idle (h : 3 < p ∨ parGet s (P.measPwmCfg p) ≠ 1 ∨
      (pwmNow s p).rises (parGet s (P.measPwmCfg1 p) == 1) ≠ some (now s)) :
    exec (.pwmEdgeTrigger p) s = .next s :=
  next_congr (if_pos (by rcases h with h | h | h <;> simp [h]))

/-! ### Results -/

/-- A conversion that ends with a result: what the model does with it once its time has come. -/
def conversionResult (n : Nat) (v : Int) (c : Conv) (s : State) : State :=
  let code := (resultOf s c.channel v).1
  let ovr := (resultOf s c.channel v).2
  let tag := (fine s n).tag
  let s := onFine n (fun f => { f with conv := none, tag := (tag + 1) % 256 }) s
  let s := supervise n c.channel c.start code (if ovr then bump P.measOverranges s else s)
  if c.urgent then
    settle (each (waitingFor (.conversion n) s) (fun r s =>
      workDone (progOf r.cmd) { r with aux := uint 32 code * 256 + tag } s) s)
  else
    goOn n c (if (fine s n).streaming then streamRecord n c.channel ovr tag code s
      else queueResult ⟨n, c.channel, tag, ovr, code, c.start⟩ s)

theorem exec_conversionDone_due (hd : domDown s Dom.ana = false) (hn : n ≤ 1) (hc : (fine s n).conv = some c)
    (hdue : c.due ≤ now s) : exec (.conversionDone n v) s = .next (
      if !c.urgent && (fine s n).trigger == 1 && !refReady s then onFine n (fun f => { f with conv := none }) s
      else conversionResult n v c s) := by
  refine next_congr ?_
  rw [hc]
  exact if_neg (by simp [hd, Nat.not_lt.2 hn, Nat.not_lt.2 hdue])

theorem exec_conversionDone_idle (h : ∀ c, (fine s n).conv = some c → 1 < n ∨ now s < c.due) :
    exec (.conversionDone n v) s = .next s := by
  refine next_congr ?_
  cases hc : (fine s n).conv with
  | none => rfl
  | some c => exact if_pos (by rcases h c hc with h | h <;> simp [h])

theorem conversionResult_queued (hu : c.urgent = false) : conversionResult n v c s = (
    let u := onFine n (fun f => { f with conv := none, tag := ((fine s n).tag + 1) % 256 }) s
    let u := supervise n c.channel c.start (resultOf s c.channel v).1
      (if (resultOf s c.channel v).2 then bump P.measOverranges u else u)
    goOn n c (if (fine u n).streaming then streamRecord n c.channel (resultOf s c.channel v).2 (fine s n).tag (resultOf s c.channel v).1 u
      else queueResult ⟨n, c.channel, (fine s n).tag, (resultOf s c.channel v).2, (resultOf s c.channel v).1, c.start⟩ u)) :=
  if_neg (by simp [hu])

theorem conversionResult_urgent (hu : c.urgent = true) : conversionResult n v c s = settle (
    let u := onFine n (fun f => { f with conv := none, tag := ((fine s n).tag + 1) % 256 }) s
    let u := supervise n c.channel c.start (resultOf s c.channel v).1
      (if (resultOf s c.channel v).2 then bump P.measOverranges u else u)
    each (waitingFor (.conversion n) u) (fun r t => workDone (progOf r.cmd)
      { r with aux := uint 32 (resultOf s c.channel v).1 * 256 + (fine s n).tag } t) u) :=
  if_pos hu

/-! ### The range change of a control DAC -/

theorem exec_cdacRangePhaseEnd_zero (hd : domDown s Dom.ana = false) (hp : (cdac s ch).phase = 2) (ho : (cdac s ch).out = 0) :
    exec (.cdacRangePhaseEnd ch) s = .next (onCdac ch (fun x => { x with phase := 3, phaseAt := now s }) s) :=
  next_congr ((if_neg (by simp [hd])).trans (if_pos ⟨hp, ho⟩))

theorem exec_cdacRangePhaseEnd_switch (hd : domDown s Dom.ana = false) (hp : (cdac s ch).phase = 3) :
    exec (.cdacRangePhaseEnd ch) s = .next (if now s < (cdac s ch).phaseAt + usTicks 50 then s
      else onCdac ch (fun x => { x with phase := 4, range := x.newRange }) s) :=
  next_congr ((if_neg (by simp [hd])).trans ((if_neg (by simp [hp])).trans (if_pos hp)))

theorem exec_cdacRangePhaseEnd_other (hd : domDown s Dom.ana = false) (hz : (cdac s ch).phase = 2 → (cdac s ch).out ≠ 0)
    (hp : (cdac s ch).phase ≠ 3) : exec (.cdacRangePhaseEnd ch) s = .next (
      if (cdac s ch).phase = 4 ∧ (cdac s ch).out = (cdac s ch).target then
        queueEvent 0x8005 ch (cdac s ch).range (onCdac ch (fun x => { x with phase := 0, idleSince := now s }) s)
      else s) :=
  next_congr ((if_neg (by simp [hd])).trans ((if_neg (fun h => hz h.1 h.2)).trans (if_neg hp)))

theorem exec_cdacRangePhaseEnd_idle (hd : domDown s Dom.ana = false)
    (hi : (cdac s ch).phase ≤ 1 ∨ 4 < (cdac s ch).phase ∨ ((cdac s ch).phase = 2 ∧ (cdac s ch).out ≠ 0) ∨
      ((cdac s ch).phase = 3 ∧ now s < (cdac s ch).phaseAt + usTicks 50) ∨
      ((cdac s ch).phase = 4 ∧ (cdac s ch).out ≠ (cdac s ch).target)) :
    exec (.cdacRangePhaseEnd ch) s = .next s := by
  by_cases hp : (cdac s ch).phase = 3
  · rw [exec_cdacRangePhaseEnd_switch hd hp, if_pos (by omega)]
  · rw [exec_cdacRangePhaseEnd_other hd (by omega) hp, if_neg (by omega)]

end Sys2Proof.Machine

namespace Sys2Proof

open Machine

/-- Settles O45: a conversion that is due gives its result (`exec_conversionDone_due`, `conversionResult_queued`); a range
change by its phase. -/
theorem instrumentInstants : Obligations.InstrumentInstants := by
  unfold Obligations.InstrumentInstants
  intro s hd
  refine ⟨fun t => exec_timerTick hd, fun t => exec_timerTick_idle, fun p => exec_pwmEdgeTrigger hd,
    fun p => exec_pwmEdgeTrigger_idle, fun n v c hn hc hdue hu href => ?_, fun n v c hn hc hdue hu ht hr => ?_,
    fun n v c hn hc hdue hu => ?_, fun n v hc => exec_conversionDone_idle (by simp [hc]),
    fun n v c hc hidle => exec_conversionDone_idle (by simpa [hc] using hidle),
    fun he hr => next_congr (if_neg (by simp [hd, he, Nat.not_lt.2 hr])),
    fun hr => next_congr (if_pos (by rcases hr with hr | hr <;> simp [hr])),
    fun hs => next_congr (if_neg (by simp [hd, Nat.not_lt.2 hs])),
    fun hs => next_congr (if_pos (.inr hs)), fun c hp ho => ?_, fun c hp ht => ?_, fun c hp ho => ?_, fun c hi => ?_⟩
  · rw [exec_conversionDone_due hd hn hc hdue, conversionResult_queued hu, if_neg (by cases hr : refReady s <;> simp_all)]
  · rw [exec_conversionDone_due hd hn hc hdue, if_pos (by simp [hu, ht, hr])]
  · rw [exec_conversionDone_due hd hn hc hdue, conversionResult_urgent hu, if_neg (by simp [hu])]
  · exact exec_cdacRangePhaseEnd_zero hd hp ho
  · rw [exec_cdacRangePhaseEnd_switch hd hp, if_neg (Nat.not_lt.2 ht)]
  · rw [exec_cdacRangePhaseEnd_other hd (by omega) (by omega), if_pos ⟨hp, ho⟩]
  · exact exec_cdacRangePhaseEnd_idle hd hi

end Sys2Proof
end

section
/-! SUPPORT. Stage timeouts, domain watchdogs and the ends of domain restarts (03 R82 to R88). -/

namespace Sys2Proof.Machine

variable {d g : Nat} {w : Option WorkRef} {s : State}

/-- What a stage timeout leaves: its event, and the miss of the item whose output is replaced. -/
def stageTimeoutEffect (d g : Nat) (work : Option WorkRef) (s : State) : State :=
  let u := queueEvent 0xA010 d g (bump P.rckStageTimeouts s)
  match work with
  | some w => { u with rck := { u.rck with stalled := u.rck.stalled ++ [(dueAfter u d w, ⟨d, w, stretched u d⟩)] } }
  | none => u

theorem exec_stageTimeout (hd : d ≤ 11) (ho : domOn s d = true) (hr : restarting s d = false) :
    exec (.stageTimeout d g w) s = .next (stageTimeoutEffect d g w s) :=
  next_congr ((if_neg (by simp [Nat.not_lt.2 hd, ho, hr])).trans (by cases w <;> rfl))

theorem exec_stageTimeout_idle (h : 11 < d ∨ domOn s d = false ∨ restarting s d = true) :
    exec (.stageTimeout d g w) s = .next s :=
  next_congr (if_pos (by rcases h with h | h | h <;> simp [h]))

/-! ### Watchdogs -/

theorem dogDue_iff : dogDue s d = true ↔ ∀ t, smFind s.rck.servedAt d = some t → t + 1228800 ≤ now s := by
  have hperiod : sec1 / 100 = 1228800 := by norm_num [sec1]
  rw [← hperiod]
  unfold dogDue
  cases smFind s.rck.servedAt d with
  | none => simp
  | some t =>
    rw [Option.all_some, decide_eq_true_iff]
    exact ⟨fun h _ he => Option.some.inj he ▸ h, fun h => h t rfl⟩

theorem exec_domainWdog (hl : 2 ≤ d) (hu : d ≤ 11) (ho : domOn s d = true) (hr : restarting s d = false)
    (hw : s.rck.wdog.contains d = false) (hdue : dogDue s d = true) : exec (.domainWdog d) s = .next
      (queueEvent 0xA012 d 0 (bump P.rckDomainWdog { s with rck := { s.rck with wdog := s.rck.wdog ++ [d] } })) :=
  next_congr (if_neg (by rw [decide_eq_false (Nat.not_lt.2 hl), decide_eq_false (Nat.not_lt.2 hu), ho, hr, hw, hdue]; decide))

theorem exec_domainWdog_idle (h : d < 2 ∨ 11 < d ∨ domOn s d = false ∨ restarting s d = true ∨ s.rck.wdog.contains d = true ∨
      dogDue s d = false) : exec (.domainWdog d) s = .next s :=
  next_congr (if_pos (by rcases h with h | h | h | h | h | h <;> simp only [h, decide_true, Bool.or_true, Bool.true_or, Bool.not_false]))

/-! ### Restarts -/

theorem exec_domainRestart (hr : restarting s d = true) (hp : d = Dom.ckg → s.clk.pllLocked = true) :
    exec (.domainRestart d) s = .next (settle (restartEnds d s)) := by
  refine next_congr (if_neg ?_)
  rw [hr]
  by_cases hd : d = Dom.ckg
  · simp [hp hd]
  · simp [hd]

theorem exec_domainRestart_idle (h : restarting s d = false ∨ (d = Dom.ckg ∧ s.clk.pllLocked = false)) :
    exec (.domainRestart d) s = .next s :=
  next_congr (if_pos (by rcases h with h | ⟨rfl, h⟩ <;> simp [h]))

end Sys2Proof.Machine

namespace Sys2Proof

open Machine

/-- Settles O46: a watchdog is due 10 ms after its domain was served (`dogDue_iff`), and a restart ends once CKG has its
PLL (`exec_domainRestart`). -/
theorem deadlineInstants : Obligations.DeadlineInstants := by
  unfold Obligations.DeadlineInstants
  intro d s
  refine ⟨fun g w => exec_stageTimeout, fun g => exec_stageTimeout, fun g w => exec_stageTimeout_idle,
    fun hl hu ho hr hw hdue => exec_domainWdog hl hu ho hr hw (dogDue_iff.2 hdue), fun hd => exec_domainWdog_idle ?_,
    exec_domainRestart, fun hr hp => exec_domainRestart_idle (.inr ⟨rfl, hp⟩), fun hr => exec_domainRestart_idle (.inl hr)⟩
  rcases hd with hd | hd | hd | hd | hd | ⟨t, ht, hd⟩
  · exact .inl hd
  · exact .inr (.inl hd)
  · exact .inr (.inr (.inl hd))
  · exact .inr (.inr (.inr (.inl hd)))
  · exact .inr (.inr (.inr (.inr (.inl hd))))
  · exact .inr (.inr (.inr (.inr (.inr (Bool.eq_false_iff.2 fun hdue => Nat.not_le.2 hd (dogDue_iff.1 hdue t ht))))))

end Sys2Proof
end

section
/-! SUPPORT. Counts of the Tops, the scheduled plan and its steps, and expiries (16 R435, R438, 17 R451 to R457, 18 R467). -/

namespace Sys2Proof.Machine

variable {n : Nat} {x : TopRead} {l : List TopRead} {p : Plan} {s : State}

/-! ### Readings of one Top -/

theorem takeReadings_on (hd : domOn s (topDomain x.top) = true) : takeReadings [x] s = takeReading x s := by
  simp only [takeReadings, List.filter_cons, hd, if_true]
  rfl

theorem takeReadings_off (hd : domOn s (topDomain x.top) = false) : takeReadings [x] s = s := by
  rw [takeReadings, List.filter_cons_of_neg (by simp [hd])]
  rfl

theorem keepOffCounts_on (hd : domOn s (topDomain x.top) = true) : keepOffCounts [x] s = s := by
  rw [keepOffCounts, List.filter_cons_of_neg (by simp [hd])]
  rfl

theorem keepOffCounts_off (hd : domOn s (topDomain x.top) = false) (ht : x.top < 32) :
    keepOffCounts [x] s = { s with age := { s.age with offCounts := smPut s.age.offCounts x.top x.reading } } := by
  rw [keepOffCounts, List.filter_cons_of_pos (by simp [hd, ht])]
  rfl

theorem takeReading_good (ht : x.top < 32) (he : topExcluded s x.top = false) (hf : topFaulty s x.top x.reading = false) :
    takeReading x s = { s with age := { s.age with
      readings := smPut s.age.readings x.top ((x.reading :: (smFind s.age.readings x.top).getD []).take 100) } } := by
  simp [takeReading, he, hf, Nat.not_le.2 ht]

theorem takeReading_faulty (ht : x.top < 32) (he : topExcluded s x.top = false) (hf : topFaulty s x.top x.reading = true) :
    takeReading x s = queueWhenRunning 0xA022 x.top x.reading (bump P.rckTopsFaults
      (parSet P.rckTopsExcluded (Nat.lor (parGet s P.rckTopsExcluded) (2 ^ x.top)) s)) := by
  simp [takeReading, he, hf, Nat.not_le.2 ht]

theorem queueWhenRunning_running {code arg detail : Nat} (hr : s.seq.running = true) :
    queueWhenRunning code arg detail s = queueEvent code arg detail s := if_pos hr

/-! ### The count of every 10 ms -/

/-- The machine whose count of the Tops has begun. -/
def countBegun (s : State) : State := { s with age := { s.age with countAt := now s } }

theorem exec_topsCount (hr : s.seq.running = true) (ht : s.age.countAt = 0 ∨ elapsed s (s.age.countAt + 1228800) = true) :
    exec (.topsCount l) s = .next (keepOffCounts l (takeReadings l (countBegun s))) :=
  next_congr (if_pos (by rcases ht with ht | ht <;> simp [hr, ht]))

theorem exec_topsCount_idle (h : s.seq.running = false ∨ (s.age.countAt ≠ 0 ∧ elapsed s (s.age.countAt + 1228800) = false)) :
    exec (.topsCount l) s = .next s :=
  next_congr (if_neg (by rcases h with h | ⟨hc, he⟩ <;> simp [*]))

theorem takeReadings_countBegun_good (hd : domOn s (topDomain x.top) = true) (ht : x.top < 32) (he : topExcluded s x.top = false)
    (hf : topFaulty s x.top x.reading = false) : takeReadings [x] (countBegun s) = { s with age := { s.age with
      countAt := now s
      readings := smPut s.age.readings x.top ((x.reading :: (smFind s.age.readings x.top).getD []).take 100) } } :=
  (takeReadings_on (s := countBegun s) hd).trans (takeReading_good (s := countBegun s) ht he hf)

theorem takeReadings_countBegun_faulty (hd : domOn s (topDomain x.top) = true) (ht : x.top < 32)
    (he : topExcluded s x.top = false) (hf : topFaulty s x.top x.reading = true) (hr : s.seq.running = true) :
    takeReadings [x] (countBegun s) = queueEvent 0xA022 x.top x.reading (bump P.rckTopsFaults
      (parSet P.rckTopsExcluded (Nat.lor (parGet s P.rckTopsExcluded) (2 ^ x.top)) (countBegun s))) :=
  ((takeReadings_on (s := countBegun s) hd).trans (takeReading_faulty (s := countBegun s) ht he hf)).trans
    (queueWhenRunning_running hr)

/-! ### The scheduled plan -/

theorem planAllowed_iff : planAllowed s = true ↔
    s.age.plan = none ∧ s.supply.brown = false ∧ s.power.entry = none ∧ s.power.state ≤ 2 := by
  simp [planAllowed, and_assoc]

theorem exec_scheduledPlan (hh : 1440 ≤ parGet s P.rckHoursSincePlan) (hp : ∀ p, s.age.plan = some p → p.kind ≠ 2 ∧ p.kind ≠ 3) :
    exec .scheduledPlan s = .next (settle (planDue 2 s)) := by
  refine next_congr (if_neg ?_)
  cases h : s.age.plan with
  | none => simpa using hh
  | some p => simpa [hh] using hp p h

theorem exec_scheduledPlan_idle
    (h : parGet s P.rckHoursSincePlan < 1440 ∨ ∃ p, s.age.plan = some p ∧ (p.kind = 2 ∨ p.kind = 3)) :
    exec .scheduledPlan s = .next s :=
  next_congr (if_pos (h.imp_right fun ⟨p, hp, hk⟩ => by simpa [hp] using hk))

/-! ### The verification of a step -/

theorem exec_knobStepVerified
    (h : ∀ p, s.age.plan = some p → elapsed s (p.stepAt + usTicks (parGet s P.rckVselSettle + 1000)) = true) :
    exec (.knobStepVerified l) s = .next (settle (afterPlan s.age.plan (verifyStep l s))) := by
  refine next_congr (if_neg ?_)
  cases hp : s.age.plan with
  | none => simp
  | some p => simp [h p hp]

theorem exec_knobStepVerified_early (hp : s.age.plan = some p)
    (he : elapsed s (p.stepAt + usTicks (parGet s P.rckVselSettle + 1000)) = false) :
    exec (.knobStepVerified l) s = .next s :=
  next_congr (if_pos (by simp [hp, he]))

theorem verifyStep_idle (h : ∀ p, s.age.plan = some p → p.verifying = none) : verifyStep l s = s := by
  unfold verifyStep
  cases hp : s.age.plan with
  | none => rfl
  | some p => simp only [h p hp]

/-- The Tops that the extra count after a step counts. -/
def countedTops (l : List TopRead) (s : State) : List TopRead :=
  l.filter (fun x => decide (x.top < 32) && domOn s (topDomain x.top) && !topExcluded s x.top)

theorem verifyStep_answered (hp : s.age.plan = some p) (hv : p.verifying = some true)
    (ha : p.u * |gainOf (vselNow s) (biasNow s) - gainOf (vselNow s - 1) (biasNow s)| / 4 ≤ changeSeen (countedTops l s) s) :
    verifyStep l s = onPlan (fun p => { p with verifying := none }) (takeReadings (countedTops l s) s) := by
  simp only [verifyStep, hp, hv]
  exact if_pos (decide_eq_true ha)

theorem onPlan_some {f : Plan → Plan} (hp : s.age.plan = some p) :
    onPlan f s = { s with age := { s.age with plan := some (f p) } } := by
  rw [onPlan, hp]
  rfl

theorem afterPlan_unchanged : afterPlan s.age.plan s = s := by
  unfold afterPlan
  cases s.age.plan <;> simp

theorem afterPlan_running {before : Option Plan} (h : s.age.plan = some p) : afterPlan before s = s := by
  simp [afterPlan, h]

/-! ### Expiries -/

theorem exec_cosignExpired {q : Proposal} (hp : s.prot.proposal = some q) (hn : q.patch = none) (he : q.made + sec30 ≤ now s) :
    exec .cosignExpired s = .next (expireProposal s) := by
  refine next_congr ((if_pos (by simp [hp, hn])).trans ?_)
  simp only [judgeExpiry, hp, hn]
  exact if_pos he

theorem exec_patchSequenceTimeout {q : Proposal} (hp : s.prot.proposal = some q) (hn : q.patch.isSome = true)
    (he : q.patchAt + sec30 ≤ now s) : exec .patchSequenceTimeout s = .next (expireProposal s) := by
  refine next_congr ((if_pos (by simp [hp, hn])).trans ?_)
  simp only [judgeExpiry, hp, hn]
  exact if_pos he

theorem exec_cosignExpired_idle (h : ∀ q, s.prot.proposal = some q → q.patch.isSome = true ∨ now s < q.made + sec30) :
    exec .cosignExpired s = .next s := by
  refine next_congr ?_
  cases hp : s.prot.proposal with
  | none => simp
  | some q =>
    cases hq : q.patch with
    | some m => exact if_neg (by simp [hq])
    | none =>
      refine (if_pos (by simp [hq])).trans ?_
      simp only [judgeExpiry, hp, hq]
      exact if_neg (Nat.not_le.2 ((h q hp).resolve_left (by simp [hq])))

theorem exec_patchSequenceTimeout_idle (h : ∀ q, s.prot.proposal = some q → q.patch = none ∨ now s < q.patchAt + sec30) :
    exec .patchSequenceTimeout s = .next s := by
  refine next_congr ?_
  cases hp : s.prot.proposal with
  | none => simp
  | some q =>
    cases hq : q.patch with
    | none => exact if_neg (by simp [hq])
    | some m =>
      refine (if_pos (by simp [hq])).trans ?_
      simp only [judgeExpiry, hp, hq]
      exact if_neg (Nat.not_le.2 ((h q hp).resolve_left (by simp [hq])))

theorem expireProposal_eq {q : Proposal} (hp : s.prot.proposal = some q) : expireProposal s =
    raiseAlert (fun f => { f with alertCosign := true }) (queueEvent 0xB004 (roleNo q.role) (protState s)
      (bump P.protExpiries { s with prot := { s.prot with proposal := none } })) := by
  simp only [expireProposal, hp]
  rfl

/-! ### The arm limit of a perturbation -/

theorem disarm_unarmed {q : Pert} {cause : Nat} (hp : smFind s.rattle.armed n = some q) (ha : q.isArmed = false) :
    disarm cause n s = s := by
  simp only [disarm, hp]
  exact if_pos (by simp [ha])

theorem exec_rattleArmLimit_some {q : Pert} (hp : smFind s.rattle.armed n = some q) : exec (.rattleArmLimit n) s = .next (
    if q.again.elim q.armedAt (fun x => x.2.2) + sec1 * parGet s P.tstArmLimit ≤ now s then disarm 2 n s else s) := by
  refine next_congr ?_
  rw [hp]

theorem exec_rattleArmLimit_none (hp : smFind s.rattle.armed n = none) : exec (.rattleArmLimit n) s = .next s := by
  refine next_congr ?_
  rw [hp]

end Sys2Proof.Machine

namespace Sys2Proof

open Machine

/-- Settles O47: a single count by its domain and verdict (`takeReadings_countBegun_good`,
`takeReadings_countBegun_faulty`), a plan by `planAllowed_iff`, an expiry by the proposal. -/
theorem dueInstants : Obligations.DueInstants := by
  unfold Obligations.DueInstants
  intro s
  refine ⟨fun x hr ht hd hx he hf => ?_, fun x hr ht hd hx he hf => ?_, fun x hr ht hd hx => ?_, fun l hr ht => exec_topsCount hr ht,
    fun l => exec_topsCount_idle, ?_⟩
  · rw [exec_topsCount hr ht, takeReadings_countBegun_good hd hx he hf]
    exact next_congr (keepOffCounts_on hd)
  · rw [exec_topsCount hr ht, takeReadings_countBegun_faulty hd hx he hf hr]
    rfl
  · rw [exec_topsCount hr ht]
    exact next_congr ((congrArg _ (takeReadings_off (s := countBegun s) hd)).trans (keepOffCounts_off (s := countBegun s) hd hx))
  refine ⟨fun hh hp hb he hs => ?_, fun hh hk hb => ?_, exec_scheduledPlan_idle, fun l p => exec_knobStepVerified_early,
    fun l h => ?_, fun l p hp he => ?_, fun l p hp he hv => ?_, fun p hp hn he => ?_, fun p hp hn he => ?_,
    exec_cosignExpired_idle, exec_patchSequenceTimeout_idle, fun n p hp ha ht => ?_, fun n h => ?_⟩
  · rw [exec_scheduledPlan hh (by simp [hp]), planDue, if_pos (planAllowed_iff.2 ⟨hp, hb, he, hs⟩)]
  · have hallowed : ¬ planAllowed s = true := by
      rw [planAllowed_iff]
      rintro ⟨hp, hbrown, hentry, hstate⟩
      rcases hb with hb | hb | hb | hb
      · simp [hp] at hb
      · simp [hbrown] at hb
      · simp [hentry] at hb
      · omega
    rw [exec_scheduledPlan hh hk, planDue, if_neg hallowed]
  · rw [exec_knobStepVerified fun p hp => (h p hp).2, verifyStep_idle fun p hp => (h p hp).1, afterPlan_unchanged]
  · rw [exec_knobStepVerified (by simp [hp, he]), hp]
  · intro tops hseen hkept
    rw [exec_knobStepVerified (by simp [hp, he]), verifyStep_answered hp hv hseen]
    exact next_congr (congrArg settle
      ((congrArg (afterPlan _) (onPlan_some (s := takeReadings (countedTops l s) s) hkept)).trans (afterPlan_running rfl)))
  · rw [exec_cosignExpired hp hn he, expireProposal_eq hp, protState_pending hp hn]
  · obtain ⟨q, hq⟩ := Option.isSome_iff_exists.1 hn
    rw [exec_patchSequenceTimeout hp hn he, expireProposal_eq hp, protState_patching hp hq]
  · rw [exec_rattleArmLimit_some hp, if_pos ht, disarm_armed 2 hp ha]
    rfl
  · cases hp : smFind s.rattle.armed n with
    | none => exact exec_rattleArmLimit_none hp
    | some p =>
      rw [exec_rattleArmLimit_some hp]
      rcases h p hp with ha | hl
      · rw [disarm_unarmed hp ha, ite_self]
      · exact next_congr (if_neg (Nat.not_le.2 hl))

end Sys2Proof
end

section
/-! SUPPORT. The period boundary (01 R21, 03 R76, R82 to R85). -/

namespace Sys2Proof.Machine

variable {env : PeriodEnv} {s : State}

/-- The machine at a period boundary: the period that ends is closed, and the clocks are at the boundary. -/
def boundaryReached (env : PeriodEnv) (s : State) : State :=
  clockTick env (closeBlocks (writeTaps { s with timebase := BitVec.ofNat 64 ((period s + 1) * periodLen) }))

/-- What follows once the misses are judged; `a` is the machine at the boundary, `j` the judged one and the domains that offended. -/
def afterJudged (env : PeriodEnv) (a : State) (j : State × List Nat) : State :=
  let b := countFrames j.1
  let c := pertTick (boundaryChanges env b)
  settle (restartOffenders a.rck.wdog j.2 (flow env (buildFrames b c.rck.missed c)))

theorem execPeriodTick_eq (h : tbRuns s = true) : execPeriodTick env s = .next (afterJudged env (boundaryReached env s)
    (judge (lateAt (boundaryReached env s) env) (runRods env.aborts (lateAt (boundaryReached env s) env) (boundaryReached env s)))) := by
  unfold execPeriodTick
  rw [if_neg (by rw [h]; decide)]
  refine congrArg Host.Outcome.next ?_
  extract_lets a late dogs
  show _ = afterJudged env a (judge late (runRods env.aborts late a))
  clear_value a
  generalize judge late (runRods env.aborts late a) = j
  obtain ⟨t, told⟩ := j
  simp only [afterJudged, dogs]

theorem exec_periodTick_stopped (h : tbRuns s = false) : exec (.periodTick env) s = .next s :=
  next_congr (if_pos (by rw [h]; rfl))

/-! ### Taps and blocks leave time, the commands in progress and the clocks -/

/-- What the taps and the blocks of a period leave: the timebase, the commands in progress, the clocks. -/
def timeAndWork (s : State) : BitVec 64 × List Running × Clocks := (s.timebase, s.running, s.clk)

theorem queueWindow_timeAndWork (k span code arg n : Nat) (detail : Nat → Nat) (s : State) :
    timeAndWork (queueWindow k span code arg n detail s) = timeAndWork s := by
  unfold queueWindow
  split
  · simp [timeAndWork]
  · simp only
    split <;> simp [timeAndWork]

theorem writeTap_timeAndWork (t : Nat) (s : State) : timeAndWork (writeTap t s) = timeAndWork s := by
  unfold writeTap
  simp only
  split
  · rfl
  · split
    · rw [queueLimited, queueWindow_timeAndWork]
      simp [timeAndWork]
    · simp [timeAndWork]

theorem closeBlocks_timeAndWork (s : State) : timeAndWork (closeBlocks s) = timeAndWork s := by
  unfold closeBlocks
  by_cases hd : domDown s Dom.aud <;> simp [timeAndWork, hd]

theorem closeBlocks_writeTaps_timeAndWork (s : State) : timeAndWork (closeBlocks (writeTaps s)) = timeAndWork s :=
  (closeBlocks_timeAndWork _).trans (each_field timeAndWork _ _ s writeTap_timeAndWork)

end Sys2Proof.Machine

namespace Sys2Proof

open Machine

/-- Settles O48: the row is `afterJudged` of the machine at the boundary (`execPeriodTick_eq`); taps and blocks keep
`timeAndWork`. -/
theorem periodBoundary : Obligations.PeriodBoundary := by
  unfold Obligations.PeriodBoundary
  intro env s
  have hkept := closeBlocks_writeTaps_timeAndWork { s with timebase := BitVec.ofNat 64 ((period s + 1) * periodLen) }
  obtain ⟨htime, hwork⟩ := Prod.ext_iff.1 hkept
  obtain ⟨hrunning, hclk⟩ := Prod.ext_iff.1 hwork
  refine ⟨fun h => ?_, htime, hrunning, hclk, fun h => exec_periodTick_stopped ?_⟩
  · have hexec : exec (.periodTick env) s = execPeriodTick env s := rfl
    rw [hexec, execPeriodTick_eq h]
    simp only [afterJudged, boundaryReached]
  · rcases h with h | h <;> simp [tbRuns, h]

end Sys2Proof
end

section
/-! SUPPORT. The state right after power-up. -/

namespace Sys2Proof.Machine

theorem permOf_nil (b : Nat) : permOf [] b = 0 := by
  unfold permOf
  split <;> rfl

/-- The bins that a band touches, where it lies in the plan, are at least one. -/
theorem bandBins_ne_nil {f half : Nat} {bins : List Nat} (h : bandBins f half = some bins) : bins ≠ [] := by
  unfold bandBins at h
  split at h
  · cases h
  · simp only at h
    split at h
    · have hle : (f - half - 470000000) / 130000 ≤ (f + half - 470000000) / 130000 := Nat.div_le_div_right (by omega)
      rw [← Option.some.inj h, Ne, List.map_eq_nil_iff, List.range_eq_nil]
      omega
    · cases h

theorem permitted_nil (carrier : Bool) (f : Nat) : permitted [] carrier f = false := by
  unfold permitted
  cases h : bandBins f (halfBandOf carrier) with
  | none => rfl
  | some bins =>
    obtain ⟨b, rest, rfl⟩ := List.exists_cons_of_ne_nil (bandBins_ne_nil h)
    simp [permOf_nil]

end Sys2Proof.Machine

namespace Sys2Proof

open Machine

/-- Settles O54: each field as it is written; no frequency is permitted, for a band that lies in the plan touches a bin
(`permitted_nil`). -/
theorem resetState : Obligations.ResetState := by
  unfold Obligations.ResetState
  refine ⟨rfl, rfl, rfl, rfl, rfl, rfl, rfl, fun f c => permitted_nil c f, rfl, fun k => ?_, fun l => ⟨rfl, rfl⟩, fun c => rfl,
    fun n => rfl, fun n => rfl, fun p => rfl, rfl, rfl, fun k => ?_, rfl, ?_, fun a => rfl, rfl⟩
  · exact Int.add_zero _
  · cases k <;> exact ⟨rfl, rfl, rfl⟩
  · decide

end Sys2Proof
end
